-- ==== Sys2Proof/Word.lean ====
section
/-!
DEFINITION. The word types of the CG-W72 and their plainest arithmetic (spec 00 R10-R12, 03 R75-R77).
-/
namespace Sys2Proof

/-- A data word, 64 bits (R12). -/
abbrev Word := BitVec 64
/-- A byte. -/
abbrev Byte := BitVec 8
/-- A vector register or channel beat, 512 bits (R75, R272). -/
abbrev Vec := BitVec 512
/-- An op word, 32 bits (R12, R22). -/
abbrev OpWord := BitVec 32
/-- The extension bits a word receives, if it receives any (R25-R27). -/
abbrev Ext := Option (BitVec 7)

/-- Sparse storage with zero everywhere it lists nothing: boot zeroes every memory (R409 step 6).
Canonical form: indices strictly rising, no zero entry. -/
abbrev Store (w : Nat) := List (Nat × BitVec w)

/-- Byte memory: the sparse store of bytes, a list of `Host.Cell`s. -/
abbrev Mem := Store 8

end Sys2Proof
end

