-- ==== Sys2Proof/Machine/Bits.lean ====
section
/-!
DEFINITION. Bit fields, sign extension, lanes and byte order (spec 00 R10, R11, R18; 03 R75, R76). Integer arithmetic is
exact on `Nat` and `Int` and is narrowed at the end, as R18 asks.
-/
namespace Sys2Proof.Machine

/-- Bits `h` down to `l` of `x` (R10). -/
def bits (x h l : Nat) : Nat := x / 2 ^ l % 2 ^ (h + 1 - l)

/-- Bit `n` of `x`. -/
def bit (x n : Nat) : Bool := x / 2 ^ n % 2 == 1

/-- Two's-complement reading of the low `w` bits. -/
def toSigned (w x : Nat) : Int :=
  let y := x % 2 ^ w
  if y < 2 ^ (w - 1) then (y : Int) else (y : Int) - 2 ^ w

/-- The low `w` bits of an integer, as a cardinal. -/
def ofInt (w : Nat) (z : Int) : Nat := (z % 2 ^ w).toNat

/-- The low `w` bits sign-extended to 64 (R33). -/
def sextWord (w x : Nat) : Word := BitVec.ofInt 64 (toSigned w x)

/-- An immediate of `n` bits, widened by the 7 extension bits where the word received them (R27, R33). -/
def immSigned (n : Nat) (imm : Nat) (x : Option (BitVec 7)) : Int :=
  match x with
  | none => toSigned n imm
  | some e => toSigned (n + 7) (imm + e.toNat * 2 ^ n)

/-- The same immediate read as a cardinal (R161, R163, R184). -/
def immCard (n : Nat) (imm : Nat) (x : Option (BitVec 7)) : Nat :=
  match x with
  | none => imm
  | some e => imm + e.toNat * 2 ^ n

/-- Lane `i` of width `w` (R75): lane 0 in the lowest bits. -/
def lane (w i : Nat) (v : Vec) : Nat := v.toNat / 2 ^ (w * i) % 2 ^ w

/-- All lanes of width `w`, lane 0 first. -/
def lanes (w : Nat) (v : Vec) : List Nat := (List.range (512 / w)).map (lane w · v)

/-- The number whose `w`-bit digits are given, lowest first. -/
def joinNat (w : Nat) : List Nat → Nat
  | [] => 0
  | x :: xs => x % 2 ^ w + 2 ^ w * joinNat w xs

/-- A vector from its lanes; missing lanes are zero. -/
def ofLanes (w : Nat) (l : List Nat) : Vec := BitVec.ofNat 512 (joinNat w l)

/-- The `n` bytes of a number, lowest first (R11). -/
def bytesOf (n : Nat) (x : Nat) : List Byte :=
  (List.range n).map fun i => BitVec.ofNat 8 (x / 2 ^ (8 * i))

/-- The number its bytes give, lowest first (R11). -/
def ofBytes : List Byte → Nat
  | [] => 0
  | b :: bs => b.toNat + 256 * ofBytes bs

/-- 64-bit words of a byte string (R11). -/
def wordsOf (n : Nat) (bs : List Byte) : List Word :=
  (List.range n).map fun i => BitVec.ofNat 64 (ofBytes ((bs.drop (8 * i)).take 8))

/-- Byte enables of `n` low bytes. -/
def lowBytes (n : Nat) : Word := BitVec.ofNat 64 (2 ^ n - 1)

/-- The bytes of `old` that `be` does not enable, the others from `new` (R40). -/
def mergeBytes (be : Word) (new old : Vec) : Vec :=
  let m := BitVec.ofNat 512 (joinNat 8 ((List.range 64).map fun i => if be.getLsbD i then 255 else 0))
  (new &&& m) ||| (old &&& ~~~ m)

/-- Number of one bits among the low `w`. -/
def popCount (w x : Nat) : Nat := ((List.range w).filter (bit x ·)).length

/-- Leading zeros of a `w`-bit value; `w` for zero. -/
def leadZeros : Nat → Nat → Nat
  | 0, _ => 0
  | w + 1, x => if bit x w then 0 else leadZeros w x + 1

/-- Trailing zeros of a `w`-bit value; `w` for zero. -/
def trailZeros : Nat → Nat → Nat
  | 0, _ => 0
  | w + 1, x => if bit x 0 then 0 else trailZeros w (x / 2) + 1

/-- Carry-less product of two `n`-bit values (R117, R172). -/
def clMul : Nat → Nat → Nat → Nat
  | 0, _, _ => 0
  | n + 1, a, b => (if bit b n then a <<< n else 0) ^^^ clMul n a b

/-- The sum of a list. -/
def sumNat (l : List Nat) : Nat := l.foldl (· + ·) 0

/-- The first element satisfying `p`, with its position. -/
def findIdx {α : Type} (p : α → Bool) (l : List α) : Option (Nat × α) :=
  (l.zipIdx.find? fun x => p x.1).map fun x => (x.2, x.1)

/-- Replace every element satisfying `p`. -/
def updWhere {α : Type} (p : α → Bool) (f : α → α) (l : List α) : List α :=
  l.map fun x => if p x then f x else x

/-- A list without its later repeats. -/
def uniq {α : Type} [BEq α] (l : List α) : List α :=
  (l.foldl (fun acc x => if acc.contains x then acc else x :: acc) []).reverse

end Sys2Proof.Machine
end

