-- ==== Sys2Proof/Config.lean ====
section
/-!
DEFINITION. What the part fixes (spec 00 R2-R5), and the free values: values the spec leaves open, given by
opaque constants of which nothing can be proved.
-/
namespace Sys2Proof.Config

/-- Quads across the wafer (R4, R193). -/
def quadCols : Nat := 72
/-- Quads up the wafer. -/
def quadRows : Nat := 64
/-- Logical tiles of the wafer (R4). -/
def tiles : Nat := quadCols * quadRows * 4
/-- Scratchpad bytes of a tile (R199). -/
def spBytes : Nat := 393216
/-- Vault bytes of a quad (R283). -/
def vaultBytes : Nat := 16777216
/-- Vault banks (R283). -/
def vaultBanks : Nat := 128
/-- Husk engines, one per HBM4 stack (R1, R347). -/
def engines : Nat := 36
/-- Oscillator cycles of one tick (R414). -/
def tickCycles : Nat := 1250
/-- Oscillator cycles between beacons (R308). -/
def beaconCycles : Nat := 1024

/-- FREE VALUE. Cycles in which a commons access of a logical tile reaches the queue of a bank (R291), at most 278. -/
opaque commonsTrip : Nat → Nat → Nat
/-- FREE VALUE. Index i3 that SGET reads of a position at the end of its walk, by the record (R226). -/
opaque freeIndex : Vec → BitVec 32
/-- FREE VALUE. The serial number (R408, R412). -/
opaque serial : Word
/-- FREE VALUE. The bytes of the identity public key (R399, R408). -/
opaque publicKeyByte : Nat → Byte
/-- The identity public key, 1,793 bytes (R399). -/
def publicKey : List Byte := (List.range 1793).map publicKeyByte
/-- FREE VALUE. Its certificate by the manufacturing key (R408). -/
opaque certificate : List Byte
/-- FREE VALUE. The bytes of H of the ROM contents (R408). -/
opaque romHashByte : Nat → Byte
/-- H of the ROM contents, 32 bytes (R408). -/
def romHash : List Byte := (List.range 32).map romHashByte
/-- FREE VALUE. The bytes of the Falcon-1024 signature of a digest by the identity key (R408). -/
opaque signatureByte : List Byte → Nat → Byte
/-- The signature of a digest in the padded format, 1,280 bytes (R408). -/
def signature (d : List Byte) : List Byte := (List.range 1280).map (signatureByte d)
/-- FREE VALUE. The count that three copies of a reference of which no two agree give (R306). -/
opaque refVote : Nat → Nat → Nat → Nat
/-- FREE VALUE. Is a line mapped by a map word of an engine with an uncorrectable error (R347)? By the partition and the line. -/
opaque badMapWord : Nat → Nat → Bool
/-- FREE VALUE. The TVAL of a cause for which no rule lays one out, by the code address, the cycle, the tile and the job. -/
opaque freeTval : Nat → Nat → Nat → Nat → Word

end Sys2Proof.Config
end

