-- ==== Sys2Proof/Syntax.lean ====
section
/-!
DEFINITION. The instructions and events of spec/opcode_table.json: one constructor a row. An op word carries the
fields of its format (R32) and, where its op uses extension bits, the bits it received (R27, R41-R44).
-/
namespace Sys2Proof

/-- Format RRR (R32). -/
structure RRR where
  d : BitVec 6
  a : BitVec 6
  b : BitVec 6
  m : BitVec 4
  deriving DecidableEq, Repr

/-- Format RI (R32). -/
structure RI where
  d : BitVec 6
  a : BitVec 6
  imm : BitVec 10
  deriving DecidableEq, Repr

/-- Format I16 (R32). -/
structure I16 where
  d : BitVec 6
  imm : BitVec 16
  deriving DecidableEq, Repr

/-- Format BP (R32). -/
structure BP where
  b : BitVec 3
  disp : BitVec 19
  deriving DecidableEq, Repr

/-- Format BX (R32); bits 11:0 are zero. -/
structure BX where
  b : BitVec 3
  q : BitVec 3
  f : BitVec 4
  deriving DecidableEq, Repr

/-- Format LP (R32): `e` is the 12-bit end field. -/
structure LP where
  s : BitVec 6
  f : BitVec 4
  e : BitVec 12
  deriving DecidableEq, Repr

/-- Format MM (R32). -/
structure MM where
  t : BitVec 6
  base : BitVec 6
  ty : BitVec 3
  off : BitVec 7
  deriving DecidableEq, Repr

/-- Format CH (R32); bits 12:0 are zero. -/
structure CH where
  t : BitVec 6
  lane : BitVec 3
  deriving DecidableEq, Repr

/-- Format XM (R32). -/
structure XM where
  dst : BitVec 4
  sa : BitVec 4
  sb : BitVec 4
  cnt : BitVec 10
  deriving DecidableEq, Repr

/-- A region entry of the image (R204). -/
structure Region where
  /-- first byte -/
  base : Nat
  /-- 0 scratchpad, 1 vault, 2 DRAM -/
  space : Nat
  staged : Bool
  race : Bool
  guard : Bool
  size : Nat
  rcbase : Nat
  /-- some zero field of the entry is nonzero -/
  bad : Bool := false
  deriving DecidableEq, Repr

/-- One code section: the code part and the segment table of a share (R164, R320). -/
structure CodeSection where
  code : List Byte
  segs : List Word
  deriving DecidableEq, Repr

/-- Initial contents of one region of one tile or quad (R72, R320, R336). -/
structure ImageData where
  /-- 0 scratchpad of a tile (`index` its partition-relative number), 1 vault of a quad -/
  space : Nat
  index : Nat
  addr : Nat
  bytes : List Byte
  deriving DecidableEq, Repr

/-- A program image (R320). The spec gives the header's contents and not its bits, so an image is held as these
contents beside its raw bytes (DESIGN CHOICE, log 6). Node descriptors are the raw words of R323. -/
structure Image where
  raw : List Byte
  pw : Nat
  ph : Nat
  entry : Nat
  pmax : Nat
  /-- the `.share` word of the context of each partition-relative tile (R164) -/
  shares : List Word
  sections : List CodeSection
  /-- for each partition-relative tile, the index of its section -/
  sectionOf : List Nat
  regions : List Region
  /-- deferral queue declaration words of each tile's context (R136) -/
  deferqs : List (List Word)
  /-- the occupancy declaration, eight words (R322) -/
  declare : List Word
  /-- node descriptors, eight words each (R323) -/
  nodes : List (List Word)
  /-- per node, the tile entry table in GRANK order (R323) -/
  entries : List (List Word)
  /-- per node, one 128-byte route table a quad of its group (R273) -/
  routes : List (List (List Byte))
  data : List ImageData
  deriving DecidableEq, Repr

/-- A submission ring or the management ring of a port (R395, R396). -/
inductive RingId where
  | queue (q : BitVec 4)
  | mgmt (port : BitVec 1)
  deriving DecidableEq, Repr

/-- A command taken from a ring: its slot (R398) and what the firmware read from host memory for it. -/
structure Cmd where
  port : BitVec 1
  ring : RingId
  ctag : BitVec 32
  buf : Word
  /-- words 2 to 15 of the slot -/
  params : List Word
  /-- bytes read from the host address among the parameters -/
  data : List Byte
  /-- the image those bytes hold (LOAD_IMAGE) -/
  image : Option Image
  deriving DecidableEq, Repr

/-- Where a soft error strikes (R269, R283, R349). -/
inductive SoftSite where
  /-- a scratchpad word of tile `ltid`, share-relative address -/
  | scratchpad (ltid addr : Nat)
  /-- the shadow copy of a staged scratchpad word -/
  | spShadow (ltid addr : Nat)
  /-- scalar register, vector register, mask: any register file word -/
  | register (ltid n : Nat)
  /-- accumulator or x register -/
  | accumulator (ltid n : Nat)
  /-- IMEM or segment table word -/
  | imem (ltid addr : Nat)
  /-- node-start snapshot or effect log -/
  | snapshot (ltid : Nat)
  /-- a vault word of a partition: relative quad (qc, qr) and BYTE -/
  | vault (pid qc qr addr : Nat)
  /-- a commons word -/
  | commons (cid addr : Nat)
  /-- a DRAM word of a job -/
  | dram (pid addr : Nat)
  /-- an entry of the map copy in the router of a quad -/
  | mapCopy (quad entry : Nat)
  /-- an entry of the map store in the Hilum -/
  | mapStore (entry : Nat)
  /-- a map word of a partition in an engine: a level-1 entry, or an entry of the level-2 table below it (R347) -/
  | mapSram (engine pid l1 : Nat) (l2 : Option Nat)
  deriving DecidableEq, Repr

/-- What a counter fault moves (R305, R306, R308, R316). -/
inductive CountSite where
  /-- the WCYC copy of the quad -/
  | wcyc
  /-- the DCYC copy of a partition in the quad -/
  | dcyc (pid : Nat)
  /-- the TICK copy of the quad -/
  | tick
  /-- one of the three copies of a partition's reference, whatever the quad -/
  | reference (pid : Nat) (copy : Fin 3)
  /-- the THR that the quad holds for a partition -/
  | throttle (pid : Nat)
  deriving DecidableEq, Repr

/-- A fabric link as training finds it: the port, the serial of the module at the other end and its port, and the one-way delay in cycles
(R412, R413). -/
structure FabricLink where
  port : Nat
  serial : Word
  peerPort : Nat
  delay : Nat
  deriving DecidableEq, Repr

/-- What the members of a pod job agree over management frames, as one of them learns it (R415, R417, R422, R424). -/
inductive PodNews where
  /-- every member is ready: the job starts at this tick -/
  | start (tick : Word)
  /-- it ends on every member with this status: a refusal, CANCEL, a stream without a route -/
  | ended (status : Nat)
  /-- the largest THR that a member's power controller asks for, from this WCYC -/
  | throttle (thr wcyc : Nat)
  /-- a pre-emption request is delivered -/
  | preempt
  /-- every group of every member has switched out -/
  | allOut
  /-- every member switches in -/
  | comeBack
  /-- every member has the checkpoint of this number complete (R425) -/
  | checkpoint (num : Nat)
  /-- a member rolls back to the common checkpoint of this number, and with it every member (R425) -/
  | rollback (num : Nat)
  deriving DecidableEq, Repr

/-- What the fuse maps, the built-in test and the training of a boot find (R409 steps 2 and 3; R299, R303, R412, R413). -/
structure BootTest where
  /-- quads whose oscillator fails -/
  oscillators : List Nat := []
  /-- quads that fail as a whole -/
  quads : List Nat := []
  /-- tile positions that fail: quad and position -/
  positions : List (Nat × Nat) := []
  /-- mesh links that fail: quad and direction -/
  links : List (Nat × Nat) := []
  /-- physical lanes of stitch crossings that fail: quad, direction and lane 0-8 -/
  lanes : List (Nat × Nat × Nat) := []
  /-- the other modules that are reached: serial, and pod id where one is already in a pod -/
  modules : List (Word × Option Nat) := []
  /-- the links of this module -/
  fabric : List FabricLink := []
  /-- one-way delays of the links between the other modules of the pod -/
  delays : List Nat := []
  /-- the pod id of the grandmaster of a pod that has formed before (R414) -/
  master : Option Nat := none
  deriving DecidableEq, Repr

/-- What a unit retirement carries. -/
inductive UnitFound where
  /-- a unit to retire (R387, R388) -/
  | unit (u : BitVec 32)
  /-- what the tests and the training of the boot in progress find; BOOT_COMPLETE acts on it (R409) -/
  | tests (b : BootTest)
  deriving DecidableEq, Repr

/-- A module that joins a pod: its pod id, and its links to this module: own port, its port and the one-way delay (R412, R413). -/
structure PodMember where
  id : BitVec 6
  links : List (Nat × Nat × Nat) := []
  delays : List Nat := []
  deriving DecidableEq, Repr

/-- Where a fabric beacon comes from: the pod job, and the port of this module on which it arrives (R421). -/
structure BeaconSource where
  jobid : Word
  port : Nat
  deriving DecidableEq, Repr

/-- What a member learns of the pod's time base at a tick edge: the steering in ppm, and the grandmaster's TICK (R414). -/
structure PtpTime where
  ppm : Int
  tick : Nat
  deriving DecidableEq, Repr

/-- A batch as it arrives: the sender's count at its publish, and lines by DVA of DREG (R419). -/
structure SentLines where
  at_ : Nat
  lines : List (Nat × Vec)
  deriving DecidableEq, Repr

/-- The op words and the events, one constructor per row of the opcode table. -/
inductive Instr where
  | nop
  | bprep (o : BP)
  | bprepr (o : RRR)
  | bt (o : BX)
  | bf (o : BX)
  | ba (o : BX)
  | call (o : BX)
  | ret (o : BX)
  | binv (o : BX)
  | loop (o : LP) (x : Ext)
  | loopi (o : LP) (x : Ext)
  | loopp (o : LP) (x : Ext)
  | lexit (o : BX)
  | lidx (o : RI)
  | seg (o : I16) (x : Ext)
  | nodeend
  | condw (o : RRR)
  | phase (o : I16)
  | waitc (o : RI) (x : Ext)
  | rdcyc (o : RI)
  | calign (o : I16)
  | fence (o : I16)
  | trap (o : I16) (x : Ext)
  | tret
  | rep (o : I16) (x : Ext)
  | cmp (o : RRR)
  | cmpi (o : RI) (x : Ext)
  | qop (o : RRR)
  | qmov (o : RRR)
  | schk (o : RRR)
  | csrr (o : I16)
  | csrw (o : I16)
  | add (o : RRR)
  | sub (o : RRR)
  | and (o : RRR)
  | or (o : RRR)
  | xor (o : RRR)
  | andn (o : RRR)
  | shl (o : RRR)
  | shr (o : RRR)
  | sra (o : RRR)
  | rol (o : RRR)
  | mul (o : RRR)
  | mulh (o : RRR)
  | div (o : RRR)
  | rem (o : RRR)
  | min (o : RRR)
  | max (o : RRR)
  | clz (o : RRR)
  | ctz (o : RRR)
  | popc (o : RRR)
  | sext (o : RRR)
  | zext (o : RRR)
  | clmul (o : RRR)
  | clmulh (o : RRR)
  | sel (o : RRR) (x : Ext)
  | addi (o : RI) (x : Ext)
  | andi (o : RI) (x : Ext)
  | ori (o : RI) (x : Ext)
  | xori (o : RI) (x : Ext)
  | shli (o : RI)
  | shri (o : RI)
  | srai (o : RI)
  | limm (o : I16) (x : Ext)
  | lins (o : I16) (x : Ext)
  | fadd (o : RRR)
  | fsub (o : RRR)
  | fmul (o : RRR)
  | fdiv (o : RRR)
  | fsqrt (o : RRR)
  | fma (o : RRR) (x : Ext)
  | fmin (o : RRR)
  | fmax (o : RRR)
  | fcmp (o : RRR)
  | fcvt (o : RRR)
  | fclass (o : RRR)
  | dadd (o : RRR)
  | dsub (o : RRR)
  | dmul (o : RRR)
  | ddiv (o : RRR)
  | dfma (o : RRR) (x : Ext)
  | dquant (o : RRR)
  | drint (o : RRR)
  | dcmp (o : RRR)
  | dcvt (o : RRR)
  | dclass (o : RRR)
  | mfy (o : RRR)
  | mty (o : RRR)
  | rstk (o : RRR)
  | rstkPush (o : RRR)
  | prefixBundle (ext2 : BitVec 7)
  | vadd (o : RRR) (x : Ext)
  | vsub (o : RRR) (x : Ext)
  | vmul (o : RRR) (x : Ext)
  | vmulh (o : RRR) (x : Ext)
  | vand (o : RRR) (x : Ext)
  | vor (o : RRR) (x : Ext)
  | vxor (o : RRR) (x : Ext)
  | vandn (o : RRR) (x : Ext)
  | vshl (o : RRR) (x : Ext)
  | vshr (o : RRR) (x : Ext)
  | vsra (o : RRR) (x : Ext)
  | vmin (o : RRR) (x : Ext)
  | vmax (o : RRR) (x : Ext)
  | vabs (o : RRR) (x : Ext)
  | vadds (o : RRR) (x : Ext)
  | vsubs (o : RRR) (x : Ext)
  | vcmp (o : RRR) (x : Ext)
  | vsel (o : RRR) (x : Ext)
  | vclmul (o : RRR) (x : Ext)
  | vpopc (o : RRR) (x : Ext)
  | vclz (o : RRR) (x : Ext)
  | vshli (o : RRR) (x : Ext)
  | vshri (o : RRR) (x : Ext)
  | vsrai (o : RRR) (x : Ext)
  | vfadd (o : RRR) (x : Ext)
  | vfsub (o : RRR) (x : Ext)
  | vfmul (o : RRR) (x : Ext)
  | vfma (o : RRR) (x : Ext)
  | vfdiv (o : RRR) (x : Ext)
  | vfsqrt (o : RRR) (x : Ext)
  | vfmin (o : RRR) (x : Ext)
  | vfmax (o : RRR) (x : Ext)
  | vfcmp (o : RRR) (x : Ext)
  | vfcvt (o : RRR) (x : Ext)
  | vfscale (o : RRR) (x : Ext)
  | vfsgn (o : RRR) (x : Ext)
  | vdadd (o : RRR) (x : Ext)
  | vdsub (o : RRR) (x : Ext)
  | vdmul (o : RRR) (x : Ext)
  | vdfma (o : RRR) (x : Ext)
  | vdquant (o : RRR) (x : Ext)
  | vdcmp (o : RRR) (x : Ext)
  | vradd (o : RRR) (x : Ext)
  | vrmax (o : RRR) (x : Ext)
  | vrmin (o : RRR) (x : Ext)
  | vbcast (o : RRR) (x : Ext)
  | vext (o : RRR)
  | vins (o : RRR) (x : Ext)
  | vperm (o : RRR) (x : Ext)
  | vslide (o : RRR) (x : Ext)
  | vcompress (o : RRR) (x : Ext)
  | viota (o : RRR) (x : Ext)
  | kand (o : RRR)
  | kor (o : RRR)
  | kxor (o : RRR)
  | knot (o : RRR)
  | kpopc (o : RRR)
  | kmov (o : RRR)
  | vdefer (o : RRR) (x : Ext)
  | vdrain (o : RRR) (x : Ext)
  | dqcnt (o : RRR)
  | vrng (o : RRR)
  | vgauss (o : RRR)
  | vchk (o : RRR) (x : Ext)
  | vbqpack (o : RRR) (x : Ext)
  | vbqunpk (o : RRR) (x : Ext)
  | ld (o : MM) (x : Ext)
  | st (o : MM) (x : Ext)
  | vld (o : MM) (x : Ext)
  | vst (o : MM) (x : Ext)
  | vgather (o : MM)
  | vscatter (o : MM)
  | sets (o : MM) (x : Ext)
  | srd (o : MM)
  | swr (o : MM)
  | srst (o : MM)
  | sget (o : MM)
  | ldv (o : MM) (x : Ext)
  | stv (o : MM) (x : Ext)
  | vldv (o : MM) (x : Ext)
  | vstv (o : MM) (x : Ext)
  | drive (o : CH)
  | tap (o : CH)
  | drives (o : CH)
  | taps (o : CH)
  | aadd (o : MM) (x : Ext)
  | amax (o : MM) (x : Ext)
  | aswap (o : MM) (x : Ext)
  | acas (o : MM) (x : Ext)
  | aor (o : MM) (x : Ext)
  | binit (o : MM) (x : Ext)
  | barv (o : MM) (x : Ext)
  | bwait (o : MM) (x : Ext)
  | bbytes (o : MM) (x : Ext)
  | stage (o : MM) (x : Ext)
  | stagew (o : MM) (x : Ext)
  | pubs (o : MM)
  | hqry (o : MM)
  | pubidx (o : MM) (x : Ext)
  | cloadb (o : XM)
  | cloadbq (o : XM)
  | cmm (o : XM)
  | cmmq (o : XM)
  | caccz (o : XM)
  | caccrd (o : XM)
  | caccst (o : XM)
  | pipm (o : XM) (x : Ext)
  | dmma (o : XM)
  | dxz (o : XM)
  | dxld (o : XM)
  | dxst (o : XM)
  | dchk (o : XM)
  | dxfix (o : XM)
  | dxrd (o : XM)
  | segmentCountLimit
  | bTargetReady (b : BitVec 3)
  | returnEntryReady
  | repReissue
  | loopBufferIssue
  | waitcResume
  | stagewResume
  | fenceResume
  | resultLanding
  | memoryWriteLanding
  | vaultBankAccess
  | atomicWindow
  | barrierWindow
  | bwaitWake
  | bwaitTimeout
  | barrierBreak (pid : Nat)
  | commonsSlotService
  | missedPromise
  | channelArrival
  | channelEntryDrop
  | cimPlaneWrite
  | cimAccumulateAdd
  | dmmaLanding
  | xRegisterLanding
  | checksum
  | engineStreamAccess
  | finjWrite (v : Word)
  | finjFire
  | imemShareReload
  | groupHalt
  | nodeRerunStart
  | trapStop
  | handlerEntry
  | contextResume
  | handlerFaultEnd
  | silentErrorKill
  | preemptDelivery (pid : Nat)
  | contextSwitch
  | contextSwitchIn
  | contextStreamOut
  | contextStreamIn
  | partitionSwitchIn (pid : Nat)
  | nodeEnd (pid strand : Nat)
  | checkpointComplete (pid : Nat)
  | walkerCodeStart (pid strand : Nat)
  | walkerBranch (pid strand : Nat)
  | walkerWhile (pid strand : Nat)
  | walkerCollect (pid strand : Nat)
  | walkerFinish (pid strand : Nat)
  | jobStart (pid : Nat)
  | dualCompare (jobid : Word)
  | beacon
  | beaconArrival (quad dir : Nat)
  | drift
  | powerDecision (watts hottest : Nat)
  | thermalPause
  | thermalResume
  | thermalTimeout
  | carrierTrip
  | unitRetirement (found : UnitFound)
  | jobReplacement (jobid : Word)
  | checkpointRollback (pid : Nat)
  | rollbackRestart (pid : Nat)
  | huskWindowSwapin (pid engine : Nat)
  | translation
  | huskLocalLineWrite
  | huskSourceRead
  | huskPromiseMiss (pid engine : Nat)
  | huskBarrierDecrement
  | portLinkDown (port : BitVec 1)
  | linkDownTimeout
  | handoverTimeout
  | stailWrite (ring : RingId) (v : Word)
  | cheadWrite (ring : RingId) (v : Word)
  | mcringWrite (port : BitVec 1) (v : Word)
  | barRegisterWrite (port : BitVec 1) (offset : BitVec 24) (v : Option Word)
  | submissionConsume (ring : RingId) (data : List Byte) (image : Option Image)
  | badSeq (ring : RingId)
  | completionEntryWrite (ring : RingId)
  | identify (c : Cmd)
  | attest (c : Cmd)
  | claim (c : Cmd)
  | handover (c : Cmd)
  | accept (c : Cmd)
  | release (c : Cmd)
  | queryJob (c : Cmd)
  | queryMap (c : Cmd)
  | readDigest (c : Cmd)
  | readUtil (c : Cmd)
  | readErrors (c : Cmd)
  | loadImage (c : Cmd)
  | verifyImage (c : Cmd)
  | admitJob (c : Cmd)
  | launch (c : Cmd)
  | cancel (c : Cmd)
  | preempt (c : Cmd)
  | migrateOut (c : Cmd)
  | checkpoint (c : Cmd)
  | restore (c : Cmd)
  | retireUnit (c : Cmd)
  | copyIn (c : Cmd)
  | copyOut (c : Cmd)
  | setTime (c : Cmd)
  | powerGood
  | moduleReset
  | bootComplete
  | podJoin (member : PodMember)
  | tickEdge
  | ptpMessage (time : PtpTime)
  | grandmasterLoss
  | podJobStart (jobid : Word) (news : PodNews)
  | fabricSlotSend (stream : Nat)
  | fabricBatchPublish (stream : Nat) (batch : SentLines)
  | fabricBeacon (src : BeaconSource) (count slots : Word)
  | fabricLaneFail (port lane : Nat)
  | fabricPortFail (port : Nat)
  | podMemberLost (id : BitVec 6)
  | portLinkUp (port : BitVec 1)
  | retimingBufferSlip (quad dir : Nat)
  | softError (site : SoftSite) (bits : List (BitVec 6))
  | counterCopyFault (quad : Nat) (site : CountSite) (delta : Int)
  | thermalAdmissionResume
  deriving DecidableEq, Repr

end Sys2Proof
end

