-- ==== Sys2Proof/Machine/State.lean ====
section
/-!
DEFINITION. The state of a CG-W72 module as plain data: every piece of state the spec names (INVENTORY.md, '## State'),
and State.reset. Cycle numbers are exact naturals (R6, R7, R18); registers and words are bit vectors.
-/
namespace Sys2Proof.Machine

/-- Why the machine stops. Closed; see each constructor. -/
inductive Fault where
  /-- raised by `step` when the module has no power (R411, the carrier's trip) and no event waits: a stuck state,
  left only by POWER_GOOD. Safe: nothing is claimed of an unpowered module. -/
  | noPower
  deriving DecidableEq, Repr

/-- Why an instruction has no meaning. -/
inductive Refusal where
  /-- raised by an arm of `exec` whose instruction has no meaning yet. Safe: nothing is claimed of it. -/
  | notModelled (mnemonic : String)
  deriving DecidableEq, Repr

/-- A cause of TCAUSE, in the order of its codes (R251). -/
inductive Cause where
  | illegalOp | zeroWord | slotOrder | packetCross | misalignedTarget | unpreparedTarget | prematureTransfer
  | staleTarget | rstackOverflow | rstackUnderflow | loopOverflow | landingCollision | rejoinLate
  /-- binary exceptions 10-14 in the order of TRAPEN.BEN -/
  | binary (n : Fin 5)
  /-- decimal exceptions 18-1C in the order of TRAPEN.DEN -/
  | decimal (n : Fin 5)
  | accSat | shapeFault | streamExhausted | guardGranule | alignment | race | missedPromise | translation
  | engineOverrun | brokenObject | segMismatch | shadowMismatch | checksum | ueReplay | drift | channelTag
  | channelEmpty | deferqOverflow | deferqUnderflow | trapInstr
  deriving DecidableEq, Repr

/-- Class of a cause (R251). -/
inductive CauseClass where
  | precise | replay | silent
  deriving DecidableEq, Repr

/-- State of a branch target (R140). -/
inductive BState where
  | empty | pending | ready | stale
  deriving DecidableEq, Repr

/-- A branch-target register (R140). `copyAt`: the cycle at which COPY is still to be read. -/
structure BReg where
  target : Nat := 0
  state : BState := .empty
  ready : Nat := 0
  copy : List OpWord := []
  copyAt : Option Nat := none
  deriving DecidableEq, Repr

/-- A loop stack entry (R150). -/
structure LoopEntry where
  index : Nat
  total : Nat
  start : Nat
  stop : Nat
  pre : Bool
  rot : Bool
  /-- S - 1 (R151) -/
  stages : Nat
  n : Nat
  /-- pushed by LOOPP, so stage predicates are landed (R155) -/
  pipelined : Bool
  startCopy : List OpWord
  exitCopy : List OpWord
  startStale : Bool := false
  exitStale : Bool := false
  /-- the start packet is still to be read, when the body first issues (R151) -/
  startAt : Option Nat
  deriving DecidableEq, Repr

/-- A return stack entry (R158). -/
structure RetEntry where
  addr : Nat
  copy : List OpWord
  state : BState
  ready : Nat
  copyAt : Option Nat := none
  deriving DecidableEq, Repr

/-- A REP in progress (R161). -/
structure Rep where
  /-- the repeated X op -/
  op : Instr
  /-- its issue interval o -/
  interval : Nat
  /-- repeat count n -/
  count : Nat
  /-- issue cycle c of the REP bundle -/
  start : Nat
  /-- the loop buffer: code addresses and words of its m bundles -/
  body : List (Nat × List OpWord)
  /-- the sequential bundle after them -/
  after : Nat
  /-- the cycles for which the buffer bundle is staged and the X op reissued -/
  staged : Nat := 0
  reissued : Nat := 0
  deriving DecidableEq, Repr

/-- The open segment: index, observed count, observed signature (R46, R47, R50). -/
structure Seg where
  index : Nat
  count : Nat
  sig : BitVec 44
  deriving DecidableEq, Repr

/-- Sequencer state of a context (R139, R168). -/
structure Seq where
  /-- code address of the next bundle -/
  pc : Nat := 0
  /-- how `pc` was reached: sequentially (R53 order 2), or by a transfer -/
  sequential : Bool := false
  /-- the packet copy from which the next bundle is taken after a transfer (R143) -/
  fetchCopy : Option (List OpWord) := none
  /-- target chosen by a transfer of the bundle now issuing, with the packet copy it is taken from -/
  target : Option (Nat × List OpWord) := none
  b : Vector BReg 8 := Vector.replicate 8 {}
  loops : List LoopEntry := []
  rets : List RetEntry := []
  rep : Option Rep := none
  /-- extension bits a prefix bundle holds for the next bundle (R26) -/
  pfx : Ext := none
  seg : Option Seg := none
  /-- the next bundle must hold SEG (R45) -/
  mustSeg : Bool := false
  /-- index of the segment opened last in the attempt or handler (R49 REASON 4) -/
  lastSeg : Option Nat := none
  /-- the loop-buffer bundle to issue in this cycle (R161) -/
  buffer : Option (Nat × List OpWord) := none
  /-- an X op due for reissue in this cycle (R161) -/
  reissue : Option Instr := none
  /-- the cycle before which a loop-back with PRE = 1 was taken, or the one after a node's end: a pre-emption point (R169, R266) -/
  prePoint : Option Nat := none
  deriving DecidableEq, Repr

/-- A stream register: VALID, the shape record, POS (R218, R221). -/
structure Stream where
  valid : Bool := false
  record : Vec := 0
  pos : Nat := 0
  deriving DecidableEq, Repr

/-- KIND of an x register (R228, R245). -/
inductive XKind where
  | empty | f32 | f64
  deriving DecidableEq, Repr

/-- An x register: its kind and its cells by the index of R245, 64 bits each. -/
structure XReg where
  kind : XKind := .empty
  cells : Store 64 := []
  deriving DecidableEq, Repr

/-- The model's own: the op whose result a replay register holds, to which a fault of its landing is charged (R37, R198, R375). -/
structure Whence where
  issue : Nat
  slot : Nat
  addr : Nat
  /-- the EA of a BARV or BWAIT under TRAPEN.BRK -/
  brk : Option Nat := none
  deriving DecidableEq, Repr

/-- A replay register (R40). -/
structure YReg where
  value : Vec := 0
  byteen : Word := 0
  remain : BitVec 10 := 0
  dnum : BitVec 6 := 0
  dclass : BitVec 3 := 0
  valid : Bool := false
  whence : Option Whence := none
  deriving DecidableEq, Repr

/-- The registers and CSRs of a context that the node-start snapshot holds (R139, R192). -/
structure Ctx where
  s : Vector Word 64 := Vector.replicate 64 0
  v : Vector Vec 32 := Vector.replicate 32 0
  k : Vector Word 8 := Vector.replicate 8 0
  q : BitVec 8 := 0
  a : Vector Stream 16 := Vector.replicate 16 {}
  x : Vector XReg 8 := Vector.replicate 8 {}
  tileid : Word := 0
  groupid : Word := 0
  nodeinst : Word := 0
  partid : Word := 0
  groupsize : Word := 0
  fmode : Word := 0
  dmode : Word := 0
  trapen : Word := 0
  xflags : Word := 0
  tcause : Word := 0
  tpc : Word := 0
  tcyc : Word := 0
  tval : Word := 0
  tslot : Word := 0
  /-- PHASE: NUM, SCOPE and BPH (R195) -/
  phase : Word := 0
  oobaddr : Word := 0
  oobflag : Word := 0
  memcfg : Word := 0
  cimcfg : Word := 0
  accmode : Word := 0
  pipkeylo : Word := 0
  pipkeyhi : Word := 0
  piptag : Word := 0
  pipmemb : Word := 0
  dqbase : Word := 0
  dqcap : Word := 0
  rotb : BitVec 3 := 0
  deriving DecidableEq, Repr

/-- A word of storage with a soft error (R269, R283, R349): its number, which copy of it, the flipped bits, and the poison mark of an
uncorrectable word that was written in part. -/
structure Soft where
  word : Nat
  shadow : Bool := false
  bits : List (BitVec 6)
  poison : Bool := false
  deriving DecidableEq, Repr

/-- The storage of a space with staged regions: the published copy, the shadow copy, and the 64-byte shadow lines
that are written, each with the group that wrote it (R206). -/
structure Space where
  pub : Mem := []
  shadow : Mem := []
  lines : List (Nat × Nat) := []
  /-- soft errors, by word -/
  soft : List Soft := []
  deriving DecidableEq, Repr

/-- Where a register result lands (R37, R40). -/
inductive Dest where
  | s (n : BitVec 6)
  /-- the physical number, after renaming (R156) -/
  | v (n : BitVec 5)
  | k (n : BitVec 3)
  | q (n : BitVec 3)
  /-- all eight q bits (QMOV m = 1) -/
  | qAll
  /-- a stream replacement (R223) -/
  | stream (n : BitVec 4)
  deriving DecidableEq, Repr

/-- A memory a tile op names. -/
inductive MSpace where
  | sp | vault | commons
  deriving DecidableEq, Repr

/-- Where the value of a result comes from. -/
inductive Src where
  | val (x : Vec)
  /-- bytes read at the result's read cycle, lowest first, `none` reading zero; the lowest `sx` bits sign-extended
  when given -/
  | read (space : MSpace) (bytes : List (Option Nat)) (sx : Option Nat)
  /-- T of a STAGE or STAGEW: the descriptor at `ea` is read and checked at the result's read cycle (R361) -/
  | stage (ea : Nat) (wait : Bool)
  /-- what a VDRAIN delivers: the entry bytes that its first destination reads for all, and the bytes of this destination (R133) -/
  | drain (touch : List Nat) (bytes : List (Option Nat))
  /-- delivered by a window, a slot or a wake-up -/
  | wait
  deriving DecidableEq, Repr

/-- A register result in flight (R36-R38). -/
structure Result where
  /-- ties it to the window or bank access that fills it -/
  id : Nat
  dest : Dest
  /-- the cycle from which it is visible -/
  due : Nat
  /-- the cycle at which `src` is read -/
  rdAt : Nat
  src : Src
  /-- byte enables (R40) -/
  be : Word
  /-- flags set in the layout of XFLAGS when it lands (R171) -/
  fl : BitVec 14
  /-- issue cycle and slot of its op, and the code address of its bundle -/
  issue : Nat
  slot : Nat
  addr : Nat := 0
  /-- phase number at issue, for race records (R212) -/
  phase : Nat := 0
  /-- the replay register that captured it (R39) -/
  y : Option Nat := none
  /-- the EA of a BARV or BWAIT under TRAPEN.BRK, whose status may raise BROKEN_OBJECT (R375) -/
  brk : Option Nat := none
  deriving DecidableEq, Repr

/-- Atomic read-modify-write functions (R294). -/
inductive AtomOp where
  | add | max | swap | or | cas
  deriving DecidableEq, Repr

/-- Barrier operations (R370-R373). -/
inductive BarOp where
  | binit | barv | bwait | bbytes
  deriving DecidableEq, Repr

/-- A CMM or CMMQ in progress, with everything it latched (R230, R236). -/
structure CimRun where
  /-- first accumulator row, and the A rows this tile computes, in order (R238) -/
  row0 : Nat
  rows : List Nat
  /-- w_a, W and the planes in use -/
  wa : Nat
  w : Nat
  planes : Nat
  pip : Bool
  strm : Stream
  baseRow : Nat
  accmode : Word
  /-- Pip key, and the counter of element 0 (R237) -/
  key : Nat
  ctr : Nat
  deriving DecidableEq, Repr

/-- A memory or engine effect still to come. -/
inductive PendKind where
  /-- scratchpad bytes of the active context, share-relative -/
  | spWrite (cells : List Host.Cell)
  /-- vault bytes of the partition by vault key -/
  | vaultWrite (cells : List Host.Cell)
  /-- the bank read of the vault load whose result is `id`: `n` bytes at `addr`, sign-extended from `sx` bits -/
  | vaultRead (id addr n : Nat) (sx : Option Nat)
  /-- the read of an atomic's window at W (R294); the write lands at W + 2 -/
  | atomic (id : Nat) (space : MSpace) (addr n : Nat) (op : AtomOp) (x y : Word)
  /-- a barrier window (R368) -/
  | barrier (id : Nat) (space : MSpace) (addr : Nat) (op : BarOp) (x : Word)
  /-- the write of a window, which stands whatever becomes of the attempt (R256, R259); where it advances a pair, the pair's owner
  and address, and the word that the waits on it are judged by (R373) -/
  | outWrite (space : MSpace) (cells : List Host.Cell) (wake : Option (Nat × Nat × Nat) := none)
  /-- publish(region) by its identifier (R362) -/
  | publish (region : Nat)
  /-- group `g` of a plane load (R235): first plane, plane count, latched CIMCFG; from the vault when `vault` -/
  | planeRead (vault : Bool) (dst cnt g : Nat) (strm : Stream) (cfg : Nat)
  /-- a tile of TQ 1-3 that takes part in a CLOADBQ -/
  | planeJoin (dst cnt cfg : Nat)
  /-- group `g` of a plane load reaches the planes at row BASEROW of `cfg` -/
  | planeWrite (dst g cfg : Nat) (tag : BitVec 2) (bytes : List Byte) (scales : List (BitVec 16))
  /-- rows of the planes in use, locked until this entry's cycle (R234) -/
  | cimLock (lo hi : Nat)
  /-- read `part` of slice `slice` of a multiply, with the element words read so far (R236) -/
  | cimSlice (run : CimRun) (slice part : Nat) (got : List Nat)
  /-- the adds of one slice into one accumulator row: for each column the four partials, none for a NaN block -/
  | cimAdd (row : Nat) (accmode : Word) (parts : List (List (Option (Int × Int))))
  /-- an engine's store out of range, in its bank cycle (R210, R239, R247) -/
  | engineOut (addr : Nat)
  /-- the exceptions of a group of CACCST in the cycle in which it lands: its flags, or the trap they are (R239, R255) -/
  | accFlags (fl : Nat) (trap : Option (Cause × Nat))
  /-- the end of a multiply: flags by accumulator row, and the lowest saturating cell (R236, R106) -/
  | cimEnd (trapen : Word) (fl : List Nat) (sat : Option (Nat × Nat))
  /-- group `g` of CACCST (R239) -/
  | accStore (row0 rows g : Nat) (strm : Stream) (accmode trapen : Word)
  /-- the DMMA update of x (R246): type, the two 64-byte groups, TRAPEN at issue -/
  | dmma (x : BitVec 3) (ty : Nat) (a b : Vec) (trapen : Word)
  /-- x ← EMPTY (DXZ) -/
  | xZero (x : BitVec 3)
  /-- group `g` of DXLD (R247) -/
  | xRead (x : BitVec 3) (g : Nat) (strm : Stream)
  /-- the landing of DXLD, with the values read so far -/
  | xLoad (x : BitVec 3) (kind : XKind) (vals : List Nat)
  /-- group `g` of DXST: the values still to store (R247) -/
  | xStore (g : Nat) (strm : Stream) (vals : List Nat)
  /-- the rewritten cell of DXFIX (R249); none when it changes nothing -/
  | xFix (x : BitVec 3) (cell : Option (Nat × Nat))
  /-- an unrepairable pattern found by DCHK or DXFIX (R248) -/
  | checksum (rows cols : Nat)
  deriving DecidableEq, Repr

/-- A pending effect: its cycle, and the issue cycle and slot of the op it belongs to. -/
structure Pend where
  due : Nat
  kind : PendKind
  issue : Nat
  slot : Nat
  addr : Nat := 0
  /-- phase number at issue, for race records (R212) -/
  phase : Nat := 0
  deriving DecidableEq, Repr

/-- A bank use booked in a coming cycle (R201, R287, R295): `word` is the row or line, `window` an atomic window. -/
structure BankUse where
  due : Nat
  vault : Bool
  bank : Nat
  word : Nat
  write : Bool
  window : Bool
  issue : Nat
  slot : Nat
  addr : Nat := 0
  /-- which access made it: the accesses of one window do not collide -/
  owner : Nat
  /-- an access of a Husk engine (R354) -/
  husk : Bool := false
  /-- the vault bank has looked at it (R287) -/
  seen : Bool := false
  deriving DecidableEq, Repr

/-- What an op of the bundle now issuing changes when the bundle commits: every op of a bundle reads its operands before
(R31). -/
inductive Post where
  /-- a CSR write, effective from c+1 (R191) -/
  | csr (n : BitVec 12) (v : Word)
  /-- PIPMEMB written by PIPM (R244) -/
  | pipmemb (v : Word)
  /-- CIMCFG.MINC adds 1 to PIPMEMB (R233, R237) -/
  | minc
  /-- a rotating push sets ROTB to 0 (R151) -/
  | rotZero
  /-- PHASE (R186) -/
  | phase (scope : Nat)
  /-- the position a naming leaves (R221) -/
  | stream (n : BitVec 4) (pos : Nat)
  /-- SRST (R225) -/
  | srst (n : BitVec 4)
  /-- entries appended by VDEFER, entries taken by VDRAIN (R132, R133) -/
  | dqPush (n : Nat)
  | dqPull (n : Nat)
  deriving DecidableEq, Repr

/-- The model's own: what the write of a window replaced in the cycle in which it landed, should another access of that cycle be found to
meet its banks (R295): its cycle and its op, the published bytes by physical address or vault key, and the pair whose waits it woke. -/
structure Undo where
  at_ : Nat
  issue : Nat
  slot : Nat
  space : MSpace
  old : List Host.Cell
  wake : Option (Nat × Nat) := none
  deriving DecidableEq, Repr

/-- A detected cause (R255, R256). -/
structure Det where
  cause : Cause
  tval : Word
  slot : Nat
  /-- issue cycle t_b of the charged bundle and its code address -/
  issue : Nat
  addr : Nat
  /-- detection cycle d -/
  det : Nat
  /-- an uncorrectable error found again in the next attempt is a silent error (R269) -/
  silent : Bool := false
  /-- raised in a handler (R262) -/
  nest : Bool := false
  deriving DecidableEq, Repr

/-- Why issue is suspended until a cycle. -/
inductive WaitKind where
  | waitc | stagew | fence
  deriving DecidableEq, Repr

/-- What a tile does in a cycle. -/
inductive Run where
  /-- no node runs on it -/
  | idle
  /-- it issues a bundle each cycle -/
  | issue
  /-- issue resumes at `till` (R167, R187, R361) -/
  | wait (till : Nat) (kind : WaitKind)
  /-- suspended in the BWAIT whose result is `id` (R373) -/
  | bwait (id : Nat)
  /-- NODEEND issued: the drain (R165) -/
  | drain
  /-- halted; the re-run starts at `s1`, or waits for the launch controller (R256) -/
  | halt (s1 : Option Nat)
  /-- stopped at a charged bundle; the handler is entered at `entry` (R261) -/
  | stopped (entry : Nat)
  /-- TRET issued: the interrupted context resumes at `t` (R263) -/
  | resume (t : Nat)
  /-- switched out (R266) -/
  | out
  deriving DecidableEq, Repr

/-- A beat on its way (R275, R280): delivery lane, arrival cycle, data, tag, and the mesh outputs it crosses (quad,
direction). -/
structure Beat where
  lane : Nat
  at_ : Nat
  data : Vec
  tag : BitVec 4
  via : List (Nat × Nat) := []
  deriving DecidableEq, Repr

/-- What a stop for a handler holds: the sequencer state and the frozen effects (R168, R232, R261, R282). -/
structure TrapSave where
  seq : Seq
  /-- the stop cycle t -/
  at_ : Nat
  rotb : BitVec 3
  /-- what the tile was doing: a tile of the group may stand in a wait -/
  run : Run
  after : Run := .issue
  /-- engine effects held with their offsets, and the bank uses of their stores -/
  held : List Pend
  banks : List BankUse := []
  /-- beats and landing-buffer entries held (lane, arrival, data, tag) -/
  beats : List Beat
  landing : List (Nat × Nat × Vec)
  /-- engine and decimal occupancy -/
  cimBusy : Nat
  denseBusy : Nat
  pipBusy : Nat
  deriving DecidableEq, Repr

/-- The stop point of a re-run: its cycle and the tile's own cause, if any, with the group's (R256, R253). -/
structure Stop where
  at_ : Nat
  own : Option Det
  gcode : BitVec 8
  gsrc : BitVec 15
  deriving DecidableEq, Repr

/-- An entry of the effect log: what was asked and the value returned (R259). -/
structure LogEntry where
  /-- the op's own code within the outside effects -/
  code : Nat
  addr : Word
  operands : List Word
  /-- the value returned; none until the window has run -/
  value : Option Word
  /-- BWAIT: the resume offset from node start; other ops 0 -/
  offset : Nat
  /-- the result that the window fills -/
  id : Nat
  /-- the model's own: the cycle in which it was made -/
  made : Nat := 0
  deriving DecidableEq, Repr

/-- A context: everything a slot holds of it but memory (R264). -/
structure Context where
  pid : Nat := 0
  /-- walker strand whose node runs on the tile -/
  strand : Option Nat := none
  node : Nat := 0
  cx : Ctx := {}
  sq : Seq := {}
  y : Vector YReg 16 := Vector.replicate 16 {}
  /-- the node-start snapshot (R139, R256): registers and the accumulator array -/
  snap : Ctx := {}
  snapAcc : Store 48 := []
  /-- entry code address of the node -/
  entry : Nat := 0
  /-- first cycle S0 of the attempt, and of the node -/
  s0 : Nat := 0
  attempt : Nat := 0
  run : Run := .idle
  /-- the model's own: what another op of the bundle that began the wait now in force has set, taken up when that wait ends (R31) -/
  after : Run := .issue
  stop : Option Stop := none
  trap : Option TrapSave := none
  /-- the cycles of the last handler of this attempt: its stop, and the resumption after it (R262) -/
  handled : Option (Nat × Nat) := none
  /-- what a switch-out froze (R266), and a node that its switch-in replays (R310) -/
  frozen : Option TrapSave := none
  adrift : Option Word := none
  /-- the effect log, its position in this attempt, and whether an append was lost (R259) -/
  log : List LogEntry := []
  logPos : Nat := 0
  logFull : Bool := false
  /-- the result of a BWAIT whose status is still to land, with the replay register that captured it (R39, R373); and the entry that
  the log gains when it lands (R259) -/
  waiting : Option (Nat × Option Nat) := none
  waitLog : Option LogEntry := none
  condw : Option Word := none
  flags : BitVec 14 := 0
  /-- a pending guard fault, as its TVAL (R211) -/
  guard : Option Word := none
  /-- latest T of the node's Husk transfers (R356) -/
  husk : Nat := 0
  /-- shares: IBASE in KiB, ISIZE in KiB, SEGN, SBASE in bytes, SSIZE in KiB (R164, R199) -/
  ibase : Nat := 0
  isize : Nat := 0
  segn : Nat := 0
  sbase : Nat := 0
  ssize : Nat := 0
  /-- region table of the image (R204) -/
  regions : List Region := []
  /-- delivered cycles: the DCYC copy, and LAG (R306) -/
  now : Nat := 0
  lag : Nat := 0
  inflight : List Result := []
  /-- the resumption cycle from which valid replay registers count down to their landing (R39) -/
  yAt : Option Nat := none
  /-- flags set in XFLAGS in cycle `flAt` (R92) -/
  flAt : Nat := 0
  flSet : BitVec 14 := 0
  /-- the first out-of-range access of the last cycle that had one: cycle, vault, address (R210) -/
  oor : Option (Nat × Bool × Nat) := none
  /-- a DQCAP update held for a cycle by a CSRW of DQCAP (R17): cycle, appended, taken -/
  dqLate : Option (Nat × Nat × Nat) := none
  /-- MINC updates held for a cycle by a CSRW of PIPMEMB (R17, R237): cycle, count -/
  mincLate : Option (Nat × Nat) := none
  cimUser : Bool := false
  /-- IMEM overlays of the node that are still to be published (R360): code offset and bytes -/
  overlays : List (Nat × List Byte) := []
  /-- DIGEST as the context's last .wafer or .pod fence fixed it (R196) -/
  digest : Word := 0
  /-- FINJ (R197), and the firing cycle of an armed injection, or the DMMA landings still to come for UNIT 1 (R198) -/
  finj : Word := 0
  finjDue : Nat := 0
  /-- an injection armed before a CSRW of FINJ that takes effect in this cycle: the cycle, FINJ and its due (R198) -/
  finjPrev : Option (Nat × Word × Nat) := none
  /-- the model's own, so that a replay does not arm again an injection that has fired (R198): the CSRWs of FINJ committed in the attempt,
  the numbers of the one that wrote FINJ last and of the one before, and those whose injections have fired since the node's start -/
  finjSeen : Nat := 0
  finjBy : Nat × Nat := (0, 0)
  finjGone : List Nat := []
  /-- utilisation counts of the attempt (R343) -/
  util : Vector Nat 6 := Vector.replicate 6 0
  deriving DecidableEq, Repr

/-- What a save area holds of a context beside its registers (R264, R265): both shares from address 0, and for a CIM user the
accumulator array, the plane scale array and its tags. -/
structure SavedShare where
  pid : Nat
  /-- the arrays of a CIM user were streamed out with it, and stream in again (R265) -/
  arrays : Bool := false
  imem : Mem
  sp : Space
  acc : Store 48 := []
  scales : Store 16 := []
  tags : Vector (BitVec 2) 16 := Vector.replicate 16 2
  deriving DecidableEq, Repr

/-- A physical tile position serving a logical tile (R193, R270). -/
structure Tile where
  /-- wafer-logical tile number LTID (R193) -/
  ltid : Nat := 0
  /-- the active slot -/
  ct : Context := {}
  /-- the other resident slot and the contexts streamed out (R264) -/
  standby : Option Context := none
  streamed : List Context := []
  /-- the streamed context the launch controller brings in, and the WCYC at which the movement under way, if one is, is complete
  (R264, R265) -/
  want : Option Nat := none
  moveAt : Option Nat := none
  /-- delivered cycles left before the incoming context's first issue (R266) -/
  switchLeft : Option Nat := none
  /-- memory saved with each streamed context (R264, R265) -/
  saved : List SavedShare := []
  /-- IMEM by physical byte (R28) -/
  imem : Mem := []
  /-- scratchpad by physical byte (R199) -/
  sp : Space := {}
  /-- lines written by the current attempt (R269) -/
  marks : List Nat := []
  /-- uncorrectable errors found by this attempt and the one before, to find them again: word, attempt (R269) -/
  lastUe : List (Nat × Nat) := []
  /-- errors corrected (R269): the count, the count as last looked at, and the WCYC of the last ones (R387); an error
  that only a checkpoint rollback repairs -/
  corrected : Nat := 0
  corrSeen : Nat := 0
  corrAt : List Nat := []
  rollAsk : Bool := false
  /-- the share is to be reloaded from the image (R269) -/
  reloadAsk : Bool := false
  /-- accumulator cells by row × 384 + column (R228) -/
  acc : Store 48 := []
  /-- plane scale entries by (p × 384 + n) × 4 + b, and format tags (R228) -/
  scales : Store 16 := []
  tags : Vector (BitVec 2) 16 := Vector.replicate 16 2
  /-- first cycle at which each engine and the decimal unit is free (R229, R114) -/
  cimBusy : Nat := 0
  denseBusy : Nat := 0
  pipBusy : Nat := 0
  decBusy : Nat := 0
  pend : List Pend := []
  banks : List BankUse := []
  dets : List Det := []
  post : List Post := []
  /-- LANDING_COLLISION found by the ops of the bundle now issuing, for order 7 of R53: TVAL and slot -/
  late : List (Nat × Nat) := []
  /-- bank collisions of accesses that may still race, which comes first: issue cycle, slot and TVAL (R214, R295) -/
  owed : List (Nat × Nat × Nat) := []
  /-- the windows' writes of the last cycle that had one -/
  undo : List Undo := []
  /-- the first engine access out of range in this cycle, recorded after those of the ops (R210): vault, address -/
  engineOor : Option (Bool × Nat) := none
  /-- beats on their way -/
  beats : List Beat := []
  /-- landing buffer entries: lane, arrival cycle, data (R277) -/
  landing : List (Nat × Nat × Vec) := []
  drops : Nat := 0
  /-- numbers handed to results -/
  uid : Nat := 0
  /-- it has issued in this cycle -/
  issued : Bool := false
  /-- fetch faulted: empty bundles until the halt (R256) -/
  lost : Bool := false
  deriving DecidableEq, Repr

/-- A strand of the walker (R325). -/
structure Strand where
  num : Nat
  node : Nat
  ready : Nat
  cw : Word
  /-- the node of the strand runs -/
  running : Bool := false
  /-- non-code nodes passed since the last code node (R326) -/
  passed : Nat := 0
  /-- reference cycle at which the running node started (R334) -/
  started : Nat := 0
  deriving DecidableEq, Repr

/-- A job control block (R331). -/
structure Jcb where
  expected : Nat := 0
  completed : Nat := 0
  bound : Word := 0
  posted : Word := 0
  late : Nat := 0
  clamp : Bool := false
  /-- the post since which the block passes (R326, R332) -/
  passAt : Option Nat := none
  deriving DecidableEq, Repr

/-- Per-node counts of a job: starts (R193), replays in a row (R382), misses (R355), translations (R348). -/
structure NodeStat where
  node : Nat
  starts : Nat := 0
  replays : Nat := 0
  misses : Nat := 0
  translations : Nat := 0
  deriving DecidableEq, Repr

/-- The replay summary (R381). -/
structure Replays where
  nue : Nat := 0
  ndrift : Nat := 0
  ntag : Nat := 0
  nmiss : Nat := 0
  ntrans : Nat := 0
  nroll : Nat := 0
  nretire : Nat := 0
  lastck : Nat := 0
  deriving DecidableEq, Repr

/-- A Husk transfer, with the descriptor of R357. -/
structure Transfer where
  ltid : Nat
  desc : List Word
  /-- issue cycle, start S, promise T (R353) -/
  issue : Nat
  s : Nat
  t : Nat
  /-- lines moved and local lines (R352) -/
  n : Nat
  nd : Nat
  /-- next local line to access -/
  next : Nat := 0
  /-- data read from the local source, by line -/
  got : List Byte := []
  strand : Nat := 0
  /-- code address of the issuing bundle -/
  addr : Nat := 0
  /-- the walk of R348 has been made -/
  walked : Bool := false
  /-- everything of it is done -/
  done : Bool := false
  /-- DRAM cannot meet T (R355) -/
  missed : Bool := false
  deriving DecidableEq, Repr

/-- A Husk window of a partition on one engine (R353). -/
structure Window where
  engine : Nat
  active : Option Transfer := none
  shadow : Option Transfer := none
  deriving DecidableEq, Repr

/-- A page of a job: DVA page number in its size, large or small, stack and physical page (R346, R347). -/
structure Page where
  large : Bool
  index : Nat
  stack : Nat
  ppn : Nat
  deriving DecidableEq, Repr

/-- What a checkpoint or an inspection holds of one tile: its registers and its memories. -/
structure SavedTile where
  ltid : Nat
  ct : Context
  sp : Mem
  acc : Store 48
  /-- the IMEM share as it stood: overlays published before it are part of it -/
  imem : Mem := []
  deriving DecidableEq, Repr

/-- What a dirty bit of a checkpoint generation stands for (R385): a DRAM page of the job, a quad's vault share, a tile's scratchpad share. -/
inductive CkUnit where
  | page (large : Bool) (index : Nat)
  | vault (quad : Nat)
  | share (ltid : Nat)
  deriving DecidableEq, Repr

/-- A batch of a fabric stream under way (R419). -/
structure Batch where
  stream : Nat
  /-- publish cycle P and the lines -/
  at_ : Nat
  lines : List (Nat × Vec)
  /-- lines sent -/
  sent : Nat := 0
  deriving DecidableEq, Repr

/-- A checkpoint generation (R334, R385). -/
structure Checkpoint where
  num : Nat
  node : Nat
  at_ : Nat
  complete : Bool
  digest : List Byte
  flagWord : BitVec 14
  jcbs : List Jcb
  strands : List Strand
  /-- committed starts by node (R193) -/
  starts : List (Nat × Nat) := []
  dram : Mem
  vault : Mem
  /-- scratchpad and registers of each tile of the partition, by ltid -/
  tiles : List SavedTile
  /-- units published since it was written -/
  dirty : List CkUnit := []
  /-- an error struck its write, so that COMPLETE is not set -/
  spoiled : Bool := false
  /-- batches of the job's streams on their way at `at_`: to be sent, and received (R419) -/
  batches : List Batch := []
  incoming : List Batch := []
  deriving DecidableEq, Repr

/-- The barrier decrement of a finished transfer (R372): who issued it, the space and last byte of its destination, the
barrier, its byte count, and the reference cycle of its window once the destination is published. -/
structure BarDue where
  strand : Nat
  ltid : Nat
  space : Nat
  last : Nat
  vault : Bool
  baddr : Nat
  bytes : Nat
  due : Option Nat := none
  deriving DecidableEq, Repr

/-- Where a job stands (R399-R403). -/
inductive JobState where
  | waiting | held | loaded | running | preempted | ended
  deriving DecidableEq, Repr

/-- A job: its launch record and everything of its partition that no tile holds. -/
structure Job where
  jobid : Word
  /-- the model's own: which launch record it is -/
  serial : Nat := 0
  /-- the launch record, eight words (R335) -/
  record : List Word
  queue : Nat := 0
  ctag : BitVec 32 := 0
  state : JobState := .waiting
  /-- ADMIT holds it once loaded (R399) -/
  hold : Bool := false
  /-- tick at which it entered its queue (R338) -/
  since : Nat := 0
  pid : Nat := 0
  /-- south-west quad of the placement -/
  x : Nat := 0
  y : Nat := 0
  /-- start tick, and the WCYC of the start (R341) -/
  tick : Nat := 0
  startWcyc : Nat := 0
  late : Bool := false
  /-- the three copies of the partition's reference count (R306) -/
  refs : Vector Nat 3 := Vector.replicate 3 0
  /-- pulses withheld: checkpoint, rollback, thermal pause (R334, R383, R411) -/
  withheld : Bool := false
  thr : Nat := 0
  thrFrom : Nat := 0
  /-- a throttle change on its way: THR and the beacon cycle it applies from (R316) -/
  thrNext : Option (Nat × Nat) := none
  /-- the THR that this member's power controller asks for a pod job (R422) -/
  thrAsk : Nat := 0
  /-- WCYC of the last such request -/
  thrAskAt : Option Nat := none
  strands : List Strand := []
  jcbs : List Jcb := []
  flagWord : BitVec 14 := 0
  stats : List NodeStat := []
  replays : Replays := {}
  /-- the running result digest RD, 32 bytes (R406), and the lines that running nodes have published, by strand and
  DVA -/
  digest : List Byte := []
  published : List (Nat × Nat × Vec) := []
  checkpoints : List Checkpoint := []
  ckNum : Nat := 0
  rollbacks : Nat := 0
  /-- a rollback is under way, with the cycle of its halt; what was saved is restored, and delivery is to resume -/
  rolling : Option Nat := none
  /-- the NUM to which the members of a pod job roll back, when another member asked; and the latest that they agree on (R425) -/
  rollTo : Option Nat := none
  podNum : Nat := 0
  restart : Bool := false
  /-- it leaves its placement at that halt, for a new one (R388) -/
  replacing : Bool := false
  /-- a checkpoint is being written -/
  saving : Bool := false
  /-- BROKEN is to be set in the registered pairs (R374) -/
  breakAsk : Bool := false
  /-- tick at which loading was complete, or LAUNCH released the job (R341, R399) -/
  loadedAt : Option Nat := none
  /-- it starts from its last complete checkpoint (R389, R403) -/
  resuming : Bool := false
  /-- checkpoint storage reserved, in 2 MiB pages (R384), and storage for the streams that the member receives (R416) -/
  ckStore : Nat := 0
  recvStore : Nat := 0
  /-- CHECKPOINT or MIGRATE_OUT asked for at the next code node end (R399, R402) -/
  ckAsked : Bool := false
  /-- the node end, by node and committed starts, at which the other placement has taken the checkpoint that was asked for (R385) -/
  ckAt : Option (Nat × Nat) := none
  migrate : Bool := false
  preemptAt : Option Nat := none
  /-- a pre-emption request has been delivered: groups switch out at their points (R266); PREEMPT holds the job out (R402) -/
  preempting : Bool := false
  /-- before its start a job of a higher class has taken its quads (R340) -/
  aside : Bool := false
  /-- a pre-emption request made of this member of a pod job, to be forwarded to every member (R422) -/
  preemptAsk : Bool := false
  /-- the reference cycle of that delivery -/
  preemptFrom : Nat := 0
  heldOut : Bool := false
  /-- barrier pairs registered: commons id and BYTE (R374) -/
  pairs : List (Nat × Nat) := []
  dram : Space := {}
  /-- the vault shares of the partition, by vault key -/
  vault : Space := {}
  vaultMarks : List (Nat × Nat) := []
  pages : List Page := []
  /-- under dual execution, pages passed on from a retained job, with what they hold: they stay as they are until the comparison (R344, R403) -/
  kept : List Page := []
  keptDram : Space := {}
  /-- DIGEST as each tile's last committed FENCE fixed it, when the job last left its placement (R196) -/
  fenceDigests : List Word := []
  /-- the engines hold the map of its partition (R347) -/
  mapSet : Bool := false
  windows : List Window := []
  /-- an end decided at a cycle: status, unit, trap record (R262, R268) -/
  ending : Option (Nat × Nat × Nat × List Word) := none
  /-- barrier decrements of finished transfers with BAR = 1 (R372) -/
  bars : List BarDue := []
  /-- under dual execution, the placement and the other placement's pid (R344) -/
  place : Nat := 0
  twin : Option Nat := none
  /-- status of an ended placement waiting for its twin -/
  endStatus : Option Nat := none
  /-- fabric plan of a pod job: members and streams (R415, R416) -/
  plan : List Word := []
  /-- failed ports whose streams run on their alternates, and those that are to from the restart (R424) -/
  alts : List Nat := []
  altsNext : List Nat := []
  /-- CALIGN .pod has armed the members' counts (R189, R421) -/
  podArmed : Bool := false
  deriving DecidableEq, Repr

/-- What a beacon that arrived showed (R309): the direction it came from, the kind, 0 WCYC, 1 DCYC, 2 link slip, and for DCYC the
partition. -/
structure Finding where
  dir : Nat
  kind : Nat
  pid : Nat := 0
  deriving DecidableEq, Repr

/-- What a quad holds beside its tiles. -/
structure Quad where
  /-- offsets of the WCYC, DCYC and TICK copies from the correct count, made by faults; a DCYC copy is that of a partition's context slot
  (R305, R306) -/
  wskew : Int := 0
  dskews : List (Nat × Int) := []
  tickSkew : Int := 0
  /-- partitions for which a fault has given the quad a THR of its own (R316) -/
  thrs : List (Nat × Nat) := []
  /-- map entry: STATE, T0-T3, QUAR, LINKS (R386) -/
  state : Nat := 0
  serve : List Nat := [0, 1, 2, 3]
  quar : BitVec 5 := 0
  links : BitVec 4 := 0
  /-- failed physical lanes of its stitch crossings, as the boot test found them: direction and lane (R299) -/
  laneFail : List (Nat × Nat) := []
  /-- clock word (R304) -/
  src : Nat := 0
  fused : Bool := false
  drifts : Nat := 0
  slips : Nat := 0
  /-- beats by which each retiming buffer has slipped since it was centred, by link N E S W (R301) -/
  slipped : Vector Nat 4 := Vector.replicate 4 0
  /-- partitions whose CALIGN armed its copies (R189) -/
  armed : List Nat := []
  /-- latched at the last beacon: WCYC, partition counts, TICK (R308), as offsets from the correct counts -/
  latchW : Int := 0
  latchC : List (Nat × Int) := []
  latchK : Int := 0
  /-- WCYC of the last beacons that found it adrift (R311) -/
  found : List Nat := []
  /-- route tables of the running node, one byte an entry (R273), and the group they belong to -/
  route : List Byte := []
  /-- what the beacons that arrived found (R309) -/
  findings : List Finding := []
  /-- entries of the router's map copy with inverted bits (R386) -/
  copyErr : List (Nat × List (BitVec 6)) := []
  deriving DecidableEq, Repr

/-- A commons access that waits for its slot (R291). -/
structure CReq where
  pid : Nat
  ltid : Nat
  id : Nat
  bank : Nat
  byte : Nat
  /-- 0 load, 1 store, 2 atomic, 3 barrier op, 4 PUBIDX, 5 barrier decrement -/
  kind : Nat
  bytes : List Byte
  n : Nat
  atom : AtomOp := .add
  bar : BarOp := .barv
  x : Word := 0
  y : Word := 0
  /-- WCYC at which the slot taken begins; none while no slot is granted -/
  slotAt : Option Nat
  /-- DCYC of issue, code address of its bundle, barrier phase at issue (R376) -/
  issue : Nat
  addr : Nat := 0
  bph : Nat := 0
  /-- GRANK of the tile, and the WCYC at which it reaches the bank's queue (R291) -/
  grank : Nat := 0
  arrive : Nat := 0
  served : Bool := false
  /-- it did not complete in time (R291) -/
  missed : Bool := false
  /-- it raced in its slot while its context was out: the TVAL (R376) -/
  raced : Option Nat := none
  deriving DecidableEq, Repr

/-- A commons (R289-R292, R364). -/
structure Commons where
  cid : Nat
  /-- physical quad and banks -/
  quad : Nat
  banks : Nat
  mem : Mem := []
  soft : List (Nat × List (BitVec 6)) := []
  /-- calendar: for each bank, (slot, partition id) of the granted slots -/
  cal : List (Nat × Nat × Nat) := []
  value : Store 64 := []
  ign : Store 32 := []
  queue : List CReq := []
  /-- jobs that hold slots, by their launch records -/
  holders : List Nat := []
  /-- pairs of ended or leaving jobs in which BROKEN is still to be set: partition id and BYTE (R374) -/
  breaks : List (Nat × Nat) := []
  deriving DecidableEq, Repr

/-- An armed BWAIT (R373). -/
structure Arm where
  space : MSpace
  /-- scratchpad: ltid; vault: pid; commons: cid -/
  owner : Nat
  addr : Nat
  phase : BitVec 12
  ltid : Nat
  /-- the partition of the context that waits on that tile -/
  pid : Nat
  id : Nat
  /-- deadline D in the tile's DCYC, and hops -/
  deadline : Nat
  hops : Nat
  /-- woken: the status and the cycle (DCYC, or WCYC for a commons) at which it lands -/
  woken : Option (Word × Nat) := none
  issue : Nat
  /-- the status that the window found, returned with TIMEOUT at the deadline -/
  status : Word := 0
  deriving DecidableEq, Repr

/-- Ownership of the module (R392). -/
inductive Ownership where
  | unowned
  | owned (port : BitVec 1)
  | pending (port : BitVec 1)
  deriving DecidableEq, Repr

/-- A completion entry of 24 words (R404). -/
structure Entry where
  words : List Word
  deriving DecidableEq, Repr

/-- The register block and state of one ring (R395-R397, R407). -/
structure Ring where
  stail : Nat := 0
  head : Nat := 0
  chead : Nat := 0
  ctail : Nat := 0
  ignS : Nat := 0
  ignC : Nat := 0
  ovr : Nat := 0
  cls : Nat := 0
  enabled : Bool := false
  /-- slots that the host has written: slot number, 16 words, and the port that wrote it last -/
  slots : List (Nat × List Word) := []
  /-- completion ring: host address and entry count, 0 for none -/
  caddr : Nat := 0
  csize : Nat := 0
  waiting : List Entry := []
  /-- entries written to the completion ring: host address and entry, newest first -/
  written : List (Nat × Entry) := []
  mcring : Word := 0
  chain : List Byte := []
  count : Nat := 0
  deriving DecidableEq, Repr

/-- An image slot (R400). -/
structure ImageSlot where
  image : Option Image := none
  digest : List Byte := []
  verified : Bool := false
  /-- utilisation: node, GRANK, six counts (R343) -/
  util : List (Nat × Nat × List Nat) := []
  deriving DecidableEq, Repr

/-- A unit other than a tile with a count of its own in READ_ERRORS (R399): a quad, a DRAM engine, a host link. -/
inductive ErrUnit where
  | quad (n : Nat)
  | engine (n : Nat)
  | link (n : Nat)
  deriving DecidableEq, Repr

/-- Counts that READ_ERRORS returns and no other structure holds. -/
structure Errors where
  linkDowns : Nat := 0
  noreg : Nat := 0
  mcring : Nat := 0
  undelivered : Nat := 0
  fabric : List (Nat × Nat) := []
  /-- errors corrected in a quad's map copy and in an engine's storage, and link losses, by unit -/
  units : List (ErrUnit × Nat) := []
  deriving DecidableEq, Repr

/-- The Hilum (R391-R411). -/
structure Hilum where
  /-- boot has not completed (R409) -/
  booting : Bool := true
  /-- what the tests and the training of the boot in progress have found (R409) -/
  test : BootTest := {}
  boots : Nat := 0
  own : Ownership := .unowned
  /-- the pending HANDOVER command and whether the one-second timer runs -/
  handover : Option Cmd := none
  linkUp : Vector Bool 2 := Vector.replicate 2 true
  queues : Vector Ring 16 := Vector.replicate 16 {}
  mgmt : Vector Ring 2 := Vector.replicate 2 {}
  images : Vector ImageSlot 16 := Vector.replicate 16 {}
  /-- admission queues per class: launch records in order (R338), and STALLS -/
  admission : Vector (List Nat) 4 := Vector.replicate 4 []
  stalls : Vector Nat 4 := Vector.replicate 4 0
  headSince : Vector Nat 4 := Vector.replicate 4 0
  /-- results written to host buffers: address and bytes, newest first -/
  bufs : List (Word × List Byte) := []
  /-- the queue of each class from which a command was last taken (R399) -/
  turn : Vector Nat 4 := Vector.replicate 4 15
  /-- MSI-X interrupts raised: port, and vector 0-15 for the completion ring of a queue or 16 for the management ring (R391), newest first -/
  irqs : List (BitVec 1 × Nat) := []
  /-- the last word read through a BAR (R391, R396) -/
  barData : Word := 0
  errors : Errors := {}
  deriving DecidableEq, Repr

/-- The power controller (R410, R411). -/
structure Power where
  on : Bool := true
  paused : Bool := false
  /-- no job is admitted until every quad is below 60 °C -/
  hot : Bool := false
  /-- WCYC since which power and temperature have been low -/
  coolSince : Option Nat := none
  /-- periods of 2^20 WCYC cycles whose decision has been taken (R410) -/
  decided : Nat := 0
  deriving DecidableEq, Repr

/-- One fabric port (R413). -/
structure Port where
  peer : Option (Nat × Nat) := none
  failed : Bool := false
  /-- lanes lost; the spare stands in for one -/
  lanes : List Nat := []
  deriving DecidableEq, Repr

/-- The module's place in a pod (R412-R425). -/
structure Pod where
  id : Nat := 0
  members : List Nat := [0]
  grandmaster : Nat := 0
  fl : Nat := 16
  ports : List (Nat × Port) := []
  /-- steering of the oscillator grid in ppm (R414) -/
  ppm : Int := 0
  /-- TICK is on the pod's time base (R414) -/
  synced : Bool := true
  /-- batches to be sent, and batches received that are not yet published -/
  batches : List Batch := []
  incoming : List Batch := []
  /-- lines that have left on the fabric: stream, DVA and line, newest first -/
  out : List (Nat × Nat × Vec) := []
  /-- fabric beacons sent: port, JOBID, partition count and slot counter, newest first (R421) -/
  beacons : List (Nat × Word × Nat × Nat) := []
  /-- the last publish cycle of each stream (R420) -/
  lastPub : List (Nat × Nat) := []
  deriving DecidableEq, Repr

/-- A map word of an engine with inverted bits (R347): engine, partition, level-1 index, and index in the level-2 table below. -/
structure SramErr where
  engine : Nat
  pid : Nat
  l1 : Nat
  l2 : Option Nat
  bits : List (BitVec 6)
  deriving DecidableEq, Repr

/-- The module. -/
structure State where
  /-- the tile in focus: op words act on it -/
  tile : Tile := {}
  others : List Tile := []
  jobs : List Job := []
  /-- the master WCYC and TICK (R305, R414) -/
  wcyc : Nat := 0
  tick : Nat := 0
  /-- the tick edge, the beacon and the drift resolution of this WCYC have been served -/
  edge : Bool := true
  beaconDone : Bool := true
  driftDone : Bool := true
  /-- quads that differ from a fresh one, by physical quad number -/
  quads : List (Nat × Quad) := []
  /-- beacons under way: receiving quad and direction (R309) -/
  arrivals : List (Nat × Nat) := []
  /-- P0 and P1 of the beacons under way: the sending quad, and the partitions in its context slots in the beacon cycle (R308) -/
  beaconSlots : List (Nat × List Nat) := []
  /-- units to be retired (R387), in the layout of R268 -/
  retireAsk : List (BitVec 32) := []
  /-- entries of the map store, and map words of the engines, with inverted bits (R347, R386) -/
  storeErr : List (Nat × List (BitVec 6)) := []
  sramErr : List SramErr := []
  commons : List Commons := []
  arms : List Arm := []
  hilum : Hilum := {}
  power : Power := {}
  pod : Pod := {}
  /-- events given from outside, oldest first -/
  inbox : List Instr := []
  /-- a SET_TIME still to come: TICK, and the WCYC at which it applies (R399) -/
  timeAt : Option (Nat × Nat) := none
  /-- the model's own: launch records taken, whose numbers tell jobs of one JOBID apart -/
  launches : Nat := 0
  deriving DecidableEq, Repr

/-- Right after module reset (R409): every memory zeroed, ownership UNOWNED, WCYC 0, nothing of a job; the boot
sequence has not completed. Registers without a reset value are zero (DESIGN CHOICE, log 1). -/
def State.reset : State := {}

end Sys2Proof.Machine
end

