-- ==== Sys2Proof/Machine/Mem.lean ====
section
/-!
DEFINITION. Sparse memory in canonical form (indices strictly rising, no zero entry) and the published and shadow copies
of a space with staged regions (spec 07 R199, R200, R206, R207). An unlisted byte reads zero: boot zeroes the scratchpads,
vaults, HBM4 and map SRAM (15 R409, step 6).
-/
namespace Sys2Proof.Machine

/-- What index `a` holds; zero where nothing is listed. -/
def memGet {w : Nat} : Store w → Nat → BitVec w
  | [], _ => 0
  | (b, v) :: m, a => if a = b then v else memGet m a

/-- Put `v` in front unless it is what an unlisted index reads as. -/
def memCons {w : Nat} (a : Nat) (v : BitVec w) (m : Store w) : Store w := if v = 0 then m else (a, v) :: m

/-- Write index `a`, keeping the canonical form. -/
def memSet {w : Nat} : Store w → Nat → BitVec w → Store w
  | [], a, v => memCons a v []
  | (b, x) :: m, a, v =>
    if a < b then memCons a v ((b, x) :: m)
    else if a = b then memCons a v m
    else (b, x) :: memSet m a v

/-- The canonical form, above a lower bound. -/
def memWfFrom {w : Nat} (lo : Nat) : Store w → Bool
  | [] => true
  | (a, v) :: m => lo ≤ a && v != 0 && memWfFrom (a + 1) m

/-- The canonical form of a memory. -/
def memWf {w : Nat} (m : Store w) : Bool := memWfFrom 0 m

/-- Write several indices, the last listed winning. -/
def memSetAll {w : Nat} (m : Store w) (cells : List (Nat × BitVec w)) : Store w :=
  cells.foldl (fun m c => memSet m c.1 c.2) m

/-- `n` consecutive bytes, lowest first. -/
def memBytes (m : Mem) (a n : Nat) : List Byte := (List.range n).map fun i => memGet m (a + i)

/-- The little-endian value of `n` bytes (R11). -/
def memNat (m : Mem) (a n : Nat) : Nat := ofBytes (memBytes m a n)

/-- The cells that `bytes` fill from address `a`. -/
def cellsAt (a : Nat) (bytes : List Byte) : List Host.Cell := bytes.zipIdx.map fun x => (a + x.2, x.1)

/-- Write consecutive bytes. -/
def memPut (m : Mem) (a : Nat) (bytes : List Byte) : Mem := memSetAll m (cellsAt a bytes)

/-- Drop every entry of `[lo, hi)`: the range reads zero. -/
def memClear {w : Nat} (m : Store w) (lo hi : Nat) : Store w := m.filter fun c => !(lo ≤ c.1 && c.1 < hi)

/-- Line number of a byte (R12). -/
def lineOf (a : Nat) : Nat := a / 64

/-- The group that wrote the shadow line of `a`, if it is written (R206). -/
def Space.writer (sp : Space) (a : Nat) : Option Nat :=
  (sp.lines.find? fun l => l.1 == lineOf a).map (·.2)

/-- A byte in the view of group `g`: the shadow line where `g` wrote it, else the published line (R206). -/
def Space.view (sp : Space) (g a : Nat) : Byte :=
  if sp.writer a = some g then memGet sp.shadow a else memGet sp.pub a

/-- A byte as every other observer sees it (R206). -/
def Space.seen (sp : Space) (a : Nat) : Byte := memGet sp.pub a

/-- The bytes of the line of `a`, from a memory. -/
def lineBytes (m : Mem) (a : Nat) : List Byte := memBytes m (64 * lineOf a) 64

/-- Is the word uncorrectable (R269)? -/
def Soft.bad (e : Soft) : Bool := e.poison || 2 ≤ e.bits.length

/-- The soft error that reading the word of `a` in the view of group `g` finds. -/
def Space.softAt (sp : Space) (g a : Nat) : Option Soft :=
  if sp.soft.isEmpty then none else sp.soft.find? fun e => e.word == a / 8 && e.shadow == (sp.writer a == some g)

/-- Words of one copy are written, `words` naming each once for every byte: one wholly written, or written in part and correctable, has
no error any more; one written in part and uncorrectable is poisoned (R269). -/
def Space.heal (sp : Space) (shadow : Bool) (words : List Nat) : Space :=
  { sp with soft := sp.soft.filterMap fun e =>
      let n := (words.filter (· == e.word)).length
      if e.shadow != shadow || n = 0 then some e else if 8 ≤ n || !e.bad then none else some { e with poison := true } }

/-- How many errors these writes correct: a word written in part is merged, and so corrected and counted (R269). -/
def Space.merged (sp : Space) (shadow : Bool) (words : List Nat) : Nat :=
  (sp.soft.filter fun e =>
    let n := (words.filter (· == e.word)).length
    e.shadow == shadow && 0 < n && n < 8 && !e.bad).length

/-- Invert bits of a word of one copy. -/
def Space.strike (sp : Space) (w : Nat) (shadow : Bool) (bs : List (BitVec 6)) : Space :=
  let mine (e : Soft) : Bool := e.word == w && e.shadow == shadow
  let old := (sp.soft.find? mine).getD { word := w, shadow := shadow, bits := [] }
  let new := (old.bits.filter fun x => !bs.contains x) ++ bs.filter fun x => !old.bits.contains x
  let rest := sp.soft.filter (!mine ·)
  { sp with soft := if new.isEmpty && !old.poison then rest else { old with bits := new } :: rest }

/-- A byte written to a staged line in the view of group `g`: an unwritten line first takes the rest from the published
line (R206), with the errors that cannot be corrected. -/
def Space.stage (sp : Space) (g a : Nat) (b : Byte) : Space :=
  if sp.writer a = some g then { sp with shadow := memSet sp.shadow a b }
  else
    { sp with
      shadow := memSet (memPut sp.shadow (64 * lineOf a) (lineBytes sp.pub a)) a b
      lines := (sp.lines.filter fun l => l.1 != lineOf a) ++ [(lineOf a, g)]
      soft := sp.soft ++ (sp.soft.filter fun e => !e.shadow && e.word / 8 == lineOf a && e.bad).map ({ · with shadow := true }) }

/-- A byte written to an unstaged location. -/
def Space.store (sp : Space) (a : Nat) (b : Byte) : Space := { sp with pub := memSet sp.pub a b }

/-- Publish the written lines that `p` picks: one swap (R207). -/
def Space.publish (sp : Space) (p : Nat × Nat → Bool) : Space :=
  let ls := sp.lines.filter p
  let mine (e : Soft) : Bool := ls.any fun l => l.1 == e.word / 8
  { pub := ls.foldl (fun m l => memPut m (64 * l.1) (memBytes sp.shadow (64 * l.1) 64)) sp.pub
    shadow := ls.foldl (fun m l => memClear m (64 * l.1) (64 * l.1 + 64)) sp.shadow
    lines := sp.lines.filter fun l => !p l
    soft := (sp.soft.filter fun e => e.shadow || !mine e).map fun e => if mine e then { e with shadow := false } else e }

/-- Discard the written lines that `p` picks (R207). -/
def Space.discard (sp : Space) (p : Nat × Nat → Bool) : Space :=
  let ls := sp.lines.filter p
  { sp with
    shadow := ls.foldl (fun m l => memClear m (64 * l.1) (64 * l.1 + 64)) sp.shadow
    lines := sp.lines.filter fun l => !p l
    soft := sp.soft.filter fun e => !(e.shadow && ls.any fun l => l.1 == e.word / 8) }

/-- Whole bytes written to the published copy. -/
def Space.putPublished (sp : Space) (a : Nat) (bytes : List Byte) : Space :=
  let cells := cellsAt a bytes
  let sp : Space := { sp with pub := memSetAll sp.pub cells }
  sp.heal false (cells.map fun c => c.1 / 8)

/-- What stays when only the published copy is kept. -/
def Space.published (sp : Space) : Space := { pub := sp.pub, soft := sp.soft.filter (!·.shadow) }

/-- Both copies and the written-line list are canonical. -/
def Space.wf (sp : Space) : Bool := memWf sp.pub && memWf sp.shadow

end Sys2Proof.Machine
end

