-- ==== Sys2Proof/Machine/Ops.lean ====
section
/-!
DEFINITION. The named operations over registers and memory that the meanings are written with: register access and
renaming (05 R139, R156), landing (01 R36-R38), raising a cause (00 R19, 09 R255), the scratchpad and vault with
staged regions, out-of-range rules, race checks and soft errors (07, 10), the effect log (09 R259), and taking a trap and
returning from one (09 R256, R261, R263).
-/
namespace Sys2Proof.Machine

/-- The outcome of a meaning. -/
abbrev Out := Host.Outcome State Fault Refusal

/-- A meaning that changes only the tile in focus. -/
def onTile (f : Tile → Tile) (s : State) : Out := .next { s with tile := f s.tile }

/-! ### Registers -/

/-- A scalar register; s0 reads zero (R139). -/
def Ctx.rdS (x : Ctx) (n : BitVec 6) : Word := if n = 0 then 0 else x.s[n.toNat]'(n.isLt)

/-- Write a scalar register; writes to s0 are discarded (R139). -/
def Ctx.wrS (x : Ctx) (n : BitVec 6) (v : Word) : Ctx :=
  if n = 0 then x else { x with s := x.s.set n.toNat v (n.isLt) }

/-- The physical number of a vector register under ROTB (R156). -/
def Ctx.phys (x : Ctx) (n : BitVec 5) : BitVec 5 :=
  if n.toNat < 24 then n else BitVec.ofNat 5 (24 + (n.toNat - 24 + x.rotb.toNat) % 8)

/-- A vector register by physical number. -/
def Ctx.vAt (x : Ctx) (n : BitVec 5) : Vec := x.v[n.toNat]'(n.isLt)

/-- A vector register by the number an op names (R156). -/
def Ctx.rdV (x : Ctx) (n : BitVec 5) : Vec := x.vAt (x.phys n)

/-- A mask register. -/
def Ctx.rdK (x : Ctx) (n : BitVec 3) : Word := x.k[n.toNat]'(n.isLt)

/-- A stream register. -/
def Ctx.rdA (x : Ctx) (n : BitVec 4) : Stream := x.a[n.toNat]'(n.isLt)

/-- The DCYC value at which the bundle issues (R7). -/
def Tile.c (t : Tile) : Nat := t.ct.now

/-- A scalar register of the context in focus. -/
def Tile.s (t : Tile) (n : BitVec 6) : Word := t.ct.cx.rdS n

/-- A scalar register as a cardinal. -/
def Tile.sN (t : Tile) (n : BitVec 6) : Nat := (t.s n).toNat

/-- A vector register of the context in focus. -/
def Tile.v (t : Tile) (n : BitVec 6) : Vec := t.ct.cx.rdV (n.setWidth 5)

/-- The low three bits of a field that names a mask, a q bit or a b register. -/
def low3 (n : BitVec 6) : BitVec 3 := n.setWidth 3

/-- Change the register state. -/
def Tile.onCx (t : Tile) (f : Ctx → Ctx) : Tile := { t with ct := { t.ct with cx := f t.ct.cx } }

/-- Change the sequencer state. -/
def Tile.onSq (t : Tile) (f : Seq → Seq) : Tile := { t with ct := { t.ct with sq := f t.ct.sq } }

/-- Is a trap handler running (R261)? -/
def Tile.inHandler (t : Tile) : Bool := t.ct.trap.isSome

/-- Does the slot hold a context? An empty slot has no IMEM share. -/
def Context.full (k : Context) : Bool := k.isize != 0

/-- Does the slot hold a context of this partition? -/
def Context.isOf (k : Context) (pid : Nat) : Bool := k.full && k.pid == pid

/-- The context of a partition that a tile holds, wherever it stands (R264). -/
def Tile.contextOf (t : Tile) (pid : Nat) : Option Context := (t.ct :: t.standby.toList ++ t.streamed).find? (·.isOf pid)

/-- PHASE.NUM (R195). -/
def Ctx.phaseNum (x : Ctx) : Nat := bits x.phase.toNat 11 0

/-- PHASE.BPH (R195, R376). -/
def Ctx.bph (x : Ctx) : Nat := bits x.phase.toNat 27 16

/-! ### Causes -/

/-- The code of a cause (R251). -/
def Cause.code : Cause → Nat
  | .illegalOp => 0x01
  | .zeroWord => 0x02
  | .slotOrder => 0x03
  | .packetCross => 0x04
  | .misalignedTarget => 0x05
  | .unpreparedTarget => 0x06
  | .prematureTransfer => 0x07
  | .staleTarget => 0x08
  | .rstackOverflow => 0x09
  | .rstackUnderflow => 0x0A
  | .loopOverflow => 0x0B
  | .landingCollision => 0x0C
  | .rejoinLate => 0x0D
  | .binary n => 0x10 + n.val
  | .decimal n => 0x18 + n.val
  | .accSat => 0x1D
  | .shapeFault => 0x20
  | .streamExhausted => 0x21
  | .guardGranule => 0x23
  | .alignment => 0x24
  | .race => 0x28
  | .missedPromise => 0x30
  | .translation => 0x31
  | .engineOverrun => 0x32
  | .brokenObject => 0x38
  | .segMismatch => 0x40
  | .shadowMismatch => 0x41
  | .checksum => 0x42
  | .ueReplay => 0x48
  | .drift => 0x49
  | .channelTag => 0x4A
  | .channelEmpty => 0x4B
  | .deferqOverflow => 0x50
  | .deferqUnderflow => 0x51
  | .trapInstr => 0x60

/-- The class of a cause (R251). BROKEN_OBJECT and CHECKSUM are raised only where their enables ask for it. -/
def Cause.cls : Cause → CauseClass
  | .segMismatch | .shadowMismatch | .checksum => .silent
  | .missedPromise | .translation | .ueReplay | .drift | .channelTag => .replay
  | _ => .precise

/-- The class under which a detected cause is handled (R251, R269). -/
def Det.cls (d : Det) : CauseClass := if d.silent then .silent else d.cause.cls

/-- Is a cause charged to the bundle that issued at `issue` one of a handler: raised while one runs, or charged to a bundle of the one
that the context last left (R262)? -/
def Tile.nests (t : Tile) (issue : Nat) : Bool := t.inHandler || t.ct.handled.any fun h => h.1 ≤ issue && issue < h.2

/-- Record a cause charged to the bundle now issuing, detected at cycle `det` (R255). -/
def Tile.raiseAt (t : Tile) (cause : Cause) (tval : Nat) (slot det : Nat) : Tile :=
  { t with dets := t.dets ++ [{
      cause := cause, tval := BitVec.ofNat 64 tval, slot := slot, issue := t.ct.now, addr := t.ct.sq.pc, det := det
      nest := t.nests t.ct.now }] }

/-- trap(cause, value) at issue (R19, R255). -/
def Tile.raise (t : Tile) (cause : Cause) (tval slot : Nat) : Tile := t.raiseAt cause tval slot t.ct.now

/-- Record a cause charged to an earlier bundle and found now (R255). -/
def Tile.found (t : Tile) (cause : Cause) (tval slot issue addr : Nat) : Tile :=
  { t with dets := t.dets ++ [{
      cause := cause, tval := BitVec.ofNat 64 tval, slot := slot, issue := issue, addr := addr, det := t.ct.now
      nest := t.nests issue }] }

/-- The meaning of an op that traps at issue: nothing but the cause. -/
def trapOut (cause : Cause) (tval slot : Nat) (s : State) : Out := onTile (·.raise cause tval slot) s

/-- The value the opcode map's ILLEGAL_OP puts in TVAL, which no rule lays out (DESIGN CHOICE, log 7). -/
def Tile.freeTval (t : Tile) : Nat := (Config.freeTval t.ct.sq.pc t.c t.ltid t.ct.cx.partid.toNat).toNat

/-! ### Landing -/

/-- DCLASS and DNUM of a destination (R40). -/
def Dest.codes : Dest → Nat × Nat
  | .s n => (0, n.toNat)
  | .v n => (1, n.toNat)
  | .k n => (2, n.toNat)
  | .q n => (3, n.toNat)
  | .qAll => (3, 8)
  | .stream n => (4, n.toNat)

/-- DCLASS and DNUM in the places of part 9 (R37, R40). -/
def Dest.tval (d : Dest) : Nat := d.codes.1 * 2 ^ 16 + d.codes.2 * 2 ^ 10

/-- A result to s0 is discarded: no register result (R37, R170). Its flags are still set. -/
def Dest.isS0 : Dest → Bool
  | .s n => n == 0
  | _ => false

/-- Do two landings name one register? QMOV of all eight counts as each q bit (R37, R149). -/
def Dest.clash : Dest → Dest → Bool
  | .qAll, .q _ => true
  | .q _, .qAll => true
  | .qAll, .qAll => true
  | .s m, .s n => m == n && m != 0
  | a, b => a == b

/-- The register in which two clashing landings meet: the q bit, where only one of them takes all eight (R37). -/
def Dest.meet : Dest → Dest → Dest
  | .qAll, .q n => .q n
  | d, _ => d

/-- Add a result: visible from `due`, its source read at `rdAt`. -/
def Tile.addResult (t : Tile) (dest : Dest) (due rdAt : Nat) (src : Src) (be : Word) (fl : Nat) (slot : Nat) : Tile :=
  { t with
    ct := { t.ct with inflight := t.ct.inflight ++ [{
      id := t.uid, dest := dest, due := due, rdAt := rdAt, src := src, be := be, fl := BitVec.ofNat 14 fl
      issue := t.ct.now, slot := slot, addr := t.ct.sq.pc, phase := t.ct.cx.phaseNum }] }
    uid := t.uid + 1 }

/-- land(reg, value, n) for a value known at issue (R19, R36). -/
def Tile.land (t : Tile) (dest : Dest) (v : Vec) (be : Word) (fl lat slot : Nat) : Tile :=
  t.addResult dest (t.c + lat) (t.c + lat) (.val v) be fl slot

/-- Land a scalar. -/
def Tile.landS (t : Tile) (d : BitVec 6) (v : Word) (lat slot : Nat) : Tile :=
  t.land (.s d) (v.setWidth 512) 0xFF 0 lat slot

/-- Land one q bit. -/
def Tile.landQ (t : Tile) (d : BitVec 3) (v : Bool) (lat : Nat) : Tile :=
  t.land (.q d) (if v then 1 else 0) 1 0 lat 0

/-- Land a mask. -/
def Tile.landK (t : Tile) (d : BitVec 3) (v : Word) (fl lat : Nat) : Tile :=
  t.land (.k d) (v.setWidth 512) 0xFF fl lat 1

/-- The register results in flight: those of the pipeline, and valid replay registers (R38). -/
def Tile.flying (t : Tile) : Nat :=
  (t.ct.inflight.filter fun r => r.y.isNone && !r.dest.isS0).length + (t.ct.y.toList.filter (·.valid)).length

/-- Write a landed value (R37, R40). -/
def Ctx.put (x : Ctx) (d : Dest) (v : Vec) (be : Word) : Ctx :=
  match d with
  | .s n => x.wrS n ((mergeBytes be v ((x.rdS n).setWidth 512)).setWidth 64)
  | .v n => { x with v := x.v.set n.toNat (mergeBytes be v (x.vAt n)) (n.isLt) }
  | .k n => { x with k := x.k.set n.toNat ((mergeBytes be v ((x.rdK n).setWidth 512)).setWidth 64) (n.isLt) }
  | .q n =>
    if !be.getLsbD 0 then x
    else { x with q := if v.getLsbD 0 then x.q ||| ((1 : BitVec 8) <<< n.toNat) else x.q &&& ~~~((1 : BitVec 8) <<< n.toNat) }
  | .qAll => if !be.getLsbD 0 then x else { x with q := v.setWidth 8 }
  | .stream n => { x with a := x.a.set n.toNat { valid := true, record := v, pos := 0 } (n.isLt) }

/-- Set flags in XFLAGS and in the node flag set (R92, R94, R171). -/
def Context.setFlags (k : Context) (fl : BitVec 14) : Context :=
  { k with
    cx := { k.cx with xflags := k.cx.xflags ||| fl.setWidth 64 }
    flags := k.flags ||| fl
    flSet := if k.flAt = k.now then k.flSet ||| fl else fl
    flAt := k.now }

/-- Flags of a binary result in the layout of XFLAGS (R91). -/
def bFlags (fl : Nat) : Nat := fl

/-- Flags of a decimal result in the layout of XFLAGS (R91). -/
def dFlags (fl : Nat) : Nat := fl * 256

/-- ACC_SAT in the layout of XFLAGS. -/
def satFlag : Nat := 2 ^ 13

/-- The position of the lowest set bit, among five. -/
def firstFlag (fl : Nat) : Fin 5 :=
  if bit fl 0 then 0 else if bit fl 1 then 1 else if bit fl 2 then 2 else if bit fl 3 then 3 else 4

/-- The arithmetic trap of an op whose lanes raised the flags given, lane 0 first, in the layout of XFLAGS (R93): cause
and TVAL, none when no enabled exception was raised. -/
def arithTrap (trapen : Nat) (lanes : List Nat) : Option (Cause × Nat) :=
  let all := lanes.foldl (· ||| ·) 0
  let b := bits all 4 0 &&& bits trapen 4 0
  let d := bits all 12 8 &&& bits trapen 12 8
  let lane (n : Nat) : Nat := ((findIdx (fun fl => bit fl n) lanes).map (·.1)).getD 0
  let raised := bits all 4 0 * 2 ^ 8 + bits all 12 8 * 2 ^ 16
  if b ≠ 0 then some (.binary (firstFlag b), lane (firstFlag b).val + raised)
  else if d ≠ 0 then some (.decimal (firstFlag d), lane (8 + (firstFlag d).val) + raised)
  else none

/-! ### What a bundle changes when it commits -/

/-- Leave a change for the commit of the bundle. -/
def Tile.later (t : Tile) (p : Post) : Tile := { t with post := t.post ++ [p] }

/-- A collision of order 7, raised when the ops of the bundle have passed their own checks (R53). -/
def Tile.collide (t : Tile) (bad : Bool) (tval slot : Nat) : Tile :=
  if bad then { t with late := t.late ++ [(tval, slot)] } else t

/-- Add a pending effect. -/
def Tile.pending (t : Tile) (due slot : Nat) (k : PendKind) : Tile :=
  { t with pend := t.pend ++ [{ due := due, kind := k, issue := t.c, slot := slot, addr := t.ct.sq.pc, phase := t.ct.cx.phaseNum }] }

/-! ### Address checks -/

/-- Bytes of a region's shadow storage, directly after it (R205). -/
def regionShadow (r : Region) : Nat := if r.staged then r.size else 0

/-- Does the region hold byte `a`? -/
def regionHolds (r : Region) (space a : Nat) : Bool := r.space == space && r.base ≤ a && a < r.base + r.size

/-- Is byte `a` in a guard granule of the region (R208)? -/
def regionGuards (r : Region) (space guards a : Nat) : Bool :=
  r.space == space && r.guard &&
    ((r.base ≤ a + 64 * guards && a < r.base) ||
     (r.base + r.size + regionShadow r ≤ a && a < r.base + r.size + regionShadow r + 64 * guards))

/-- Is byte `a` in storage reserved for the region (R205, R209)? `guards`: guard granules on each side, in guard mode. -/
def regionReserves (r : Region) (space guards a : Nat) : Bool :=
  regionGuards r space guards a ||
  (r.space == space &&
    ((r.staged && r.base + r.size ≤ a && a < r.base + 2 * r.size) || (r.race && r.rcbase ≤ a && a < r.rcbase + r.size / 2)))

/-- Guard mode (R208). -/
def Ctx.guardMode (x : Ctx) : Bool := bit x.memcfg.toNat 0
/-- Guard granules on each side; none in zero mode (R208). -/
def Ctx.guards (x : Ctx) : Nat := if x.guardMode then bits x.memcfg.toNat 3 1 else 0
/-- Race checking enabled (R208). -/
def Ctx.raceEn (x : Ctx) : Bool := bit x.memcfg.toNat 4

/-- A scratchpad byte address out of range (R209). -/
def Context.spOut (k : Context) (a : Nat) : Bool :=
  k.ssize * 1024 ≤ a || k.regions.any fun r => regionReserves r 0 k.cx.guards a

/-- Any of the `n` bytes at `a` out of range (R209). -/
def Context.spOutRange (k : Context) (a n : Nat) : Bool := (List.range n).any fun i => k.spOut (a + i)

/-- Is byte `a` of the scratchpad in a staged region? -/
def Context.spStaged (k : Context) (a : Nat) : Bool := k.regions.any fun r => r.staged && regionHolds r 0 a

/-- Record an out-of-range access (R210, R211): OOBADDR and OOBFLAG in zero mode, a pending guard fault in guard mode. -/
def Tile.outOfRange (t : Tile) (vault : Bool) (a : Nat) : Tile :=
  let k := t.ct
  let first := match k.oor with
    | some o => o.1 != k.now
    | none => true
  let k := if first then { k with oor := some (k.now, vault, a) } else k
  if k.cx.guardMode then
    match k.guard with
    | some _ => { t with ct := k }
    | none =>
      { t with ct := { k with guard := some (BitVec.ofNat 64 (
          a % 2 ^ 19 + (if vault then 2 ^ 28 else (a / 8 % 384) * 2 ^ 19) + k.now % 2 ^ 32 * 2 ^ 32)) } }
  else if bit k.cx.oobflag.toNat 0 then { t with ct := k }
  else
    { t with ct := { k with cx := { k.cx with
        oobaddr := BitVec.ofNat 64 (a % 2 ^ 48), oobflag := if vault then 3 else 1 } } }

/-! ### Scratchpad -/

/-- The tag under which a tile's own staged scratchpad lines are kept (R206). -/
def spTag : Nat := 0

/-- A scratchpad byte in the node view, by share-relative address (R199, R206). -/
def Tile.spByte (t : Tile) (a : Nat) : Byte := t.sp.view spTag (t.ct.sbase + a)

/-- Bytes of the node view, lowest first. -/
def Tile.spBytes (t : Tile) (a n : Nat) : List Byte := (List.range n).map fun i => t.spByte (a + i)

/-- The little-endian value of `n` bytes of the node view. -/
def Tile.spNat (t : Tile) (a n : Nat) : Nat := ofBytes (t.spBytes a n)

/-- The scratchpad as every other observer sees it (R206). -/
def Tile.spSeen (t : Tile) (a : Nat) : Byte := t.sp.seen (t.ct.sbase + a)

/-- Write one byte of the node view: to the shadow line in a staged region (R206); the line is marked written in the
attempt (R269). -/
def Tile.spPutByte (t : Tile) (a : Nat) (b : Byte) : Tile :=
  let p := t.ct.sbase + a
  { t with
    sp := if t.ct.spStaged a then t.sp.stage spTag p b else t.sp.store p b
    marks := if t.marks.contains (p / 64) then t.marks else p / 64 :: t.marks }

/-- Words of the scratchpad have been written, in the copy that writes of the node view reach (R206): their errors go, are corrected and
counted, or leave a poison mark (R269). -/
def Tile.spHeal (t : Tile) (addrs : List Nat) : Tile :=
  if t.sp.soft.isEmpty then t
  else
    let words (staged : Bool) : List Nat := (addrs.filter (t.ct.spStaged · == staged)).map fun a => (t.ct.sbase + a) / 8
    { t with
      sp := (t.sp.heal true (words true)).heal false (words false)
      corrected := t.corrected + t.sp.merged true (words true) + t.sp.merged false (words false) }

/-- Write bytes of the node view. -/
def Tile.spPut (t : Tile) (cells : List Host.Cell) : Tile :=
  (cells.foldl (fun t c => t.spPutByte c.1 c.2) t).spHeal (uniq (cells.map (·.1)))

/-- An uncorrectable error that a replay repairs: UE_REPLAY, or a silent error when the same word failed in the attempt before
(R269). -/
def Tile.ueAt (t : Tile) (key slot issue addr : Nat) : Tile :=
  { t with
    lastUe := (key, t.ct.attempt) :: t.lastUe.filter fun e => t.ct.attempt ≤ e.2 + 1
    dets := t.dets ++ [{
      cause := .ueReplay, tval := 0, slot := slot, issue := issue, addr := addr, det := t.c
      silent := 0 < t.ct.attempt && t.lastUe.contains (key, t.ct.attempt - 1) }] }

/-- Does reading the word of physical byte `p` replay the node, or does only a rollback repair it (R269)? A staged line, or one written
earlier in the attempt and not poisoned, replays. -/
def Tile.replayable (t : Tile) (p : Nat) (poison : Bool) : Bool :=
  t.ct.spStaged (p - t.ct.sbase) || (!poison && t.marks.contains (p / 64))

/-- Read through the check port (R269): a one-bit error is corrected and counted; more raise UE_REPLAY, a silent error when the same
word failed in the attempt before, or ask for a checkpoint rollback. The error itself stays until its word is written. -/
def Tile.spCheckWord (t : Tile) (p slot issue addr : Nat) : Tile :=
  match t.sp.softAt spTag p with
  | none => t
  | some e =>
    if !e.bad then { t with sp := { t.sp with soft := t.sp.soft.erase e }, corrected := t.corrected + 1 }
    else if t.replayable p e.poison then t.ueAt (p / 8) slot issue addr
    else { t with rollAsk := true }

/-- Check every word that the read of these bytes touches. -/
def Tile.spCheck (t : Tile) (addrs : List Nat) (slot issue addr : Nat) : Tile :=
  if t.sp.soft.isEmpty then t
  else (uniq (addrs.map fun a => (t.ct.sbase + a) / 8)).foldl (fun t w => t.spCheckWord (8 * w) slot issue addr) t

/-! ### Race checking -/

/-- The 32-bit race entry address of the word at `a`, in a checked region (R212). -/
def raceEntry (rs : List Region) (space a : Nat) : Option Nat :=
  (rs.find? fun r => r.race && regionHolds r space a).map fun r => r.rcbase + 4 * ((a - r.base) / 8)

/-- One check of R213: the race TVAL if the access races, and the entry it leaves. -/
def raceCheck (e : Nat) (id phase : Nat) (write dom vault : Bool) (a : Nat) : Option Nat × Nat :=
  let v := bit e 28
  let same := v && bits e 26 15 == phase
  let race := same && bits e 14 0 != id && (bit e 27 || write)
  let keep := same && bit e 27 && !write
  (if race then some (a / 8 * 8 % 2 ^ 32 + bits e 14 0 * 2 ^ 32 + (if bit e 27 then 2 ^ 47 else 0)
      + (if vault then 2 ^ 48 else 0)) else none,
   if keep then e
   else id + phase * 2 ^ 15 + (if write then 2 ^ 27 else 0) + 2 ^ 28 + (if dom then 2 ^ 29 else 0))

/-- The words of a list of byte addresses, in ascending order of first mention. -/
def wordsTouched (addrs : List Nat) : List Nat := uniq (addrs.map (· / 8))

/-- The first race among the scratchpad words an access touches (R213). -/
def Tile.spRace (t : Tile) (addrs : List Nat) (phase : Nat) (write : Bool) : Option Nat :=
  if !t.ct.cx.raceEn then none
  else (wordsTouched addrs).findSome? fun w =>
    match raceEntry t.ct.regions 0 (8 * w) with
    | none => none
    | some e => (raceCheck (memNat t.sp.pub (t.ct.sbase + e) 4) (bits t.ct.cx.tileid.toNat 14 0) phase write false false (8 * w)).1

/-- Enter the access in the race carve-out through the check port (R212, R213). -/
def Tile.spRaceMark (t : Tile) (addrs : List Nat) (phase : Nat) (write : Bool) : Tile :=
  if !t.ct.cx.raceEn then t
  else (wordsTouched addrs).foldl (fun t w =>
    match raceEntry t.ct.regions 0 (8 * w) with
    | none => t
    | some e =>
      let p := t.ct.sbase + e
      let r := (raceCheck (memNat t.sp.pub p 4) (bits t.ct.cx.tileid.toNat 14 0) phase write false false (8 * w)).2
      { t with sp := { t.sp with pub := memPut t.sp.pub p (bytesOf 4 r) } }) t

/-! ### Banks -/

/-- Scratchpad bank of a share-relative byte (R200). -/
def spBank (a : Nat) : Nat := a / 8 % 384
/-- Scratchpad row of a share-relative byte (R200). -/
def spRow (a : Nat) : Nat := a / 8 / 384

/-- Book the bank cycle of every word that bytes `addrs` touch (R201). -/
def Tile.bookSp (t : Tile) (due : Nat) (addrs : List Nat) (write window : Bool) (slot : Nat) : Tile :=
  { t with
    uid := t.uid + 1
    banks := t.banks ++ (wordsTouched addrs).map fun w => {
      due := due, vault := false, bank := w % 384, word := w / 384, write := write, window := window
      issue := t.c, slot := slot, addr := t.ct.sq.pc, owner := t.uid } }

/-- Number of a vault bank among those of the partition: quad coordinates and bank (R284). -/
def vaultBank (ea : Nat) : Nat := ea / 2 ^ 24 % 2 ^ 13 * 128 + ea / 64 % 128

/-- Book the bank cycle of a vault line (R287). -/
def Tile.bookVault (t : Tile) (due ea : Nat) (write window : Bool) (slot : Nat) : Tile :=
  { t with
    uid := t.uid + 1
    banks := t.banks ++ [{
      due := due, vault := true, bank := vaultBank ea, word := ea % 2 ^ 24 / 8192, write := write, window := window
      issue := t.c, slot := slot, addr := t.ct.sq.pc, owner := t.uid }] }

/-- Do two bank uses of one cycle collide (R201, R287, R295)? A single write at the first cycle of a window is admitted.
`one`: both belong to one access, of which only distinct words collide. -/
def BankUse.clash (x y : BankUse) (one : Bool) : Bool :=
  x.due == y.due && x.vault == y.vault && x.bank == y.bank && (!one || (!x.window && x.word != y.word)) &&
    (if x.window || y.window then !((x.window && !x.write && y.write && !y.window) || (y.window && !y.write && x.write && !x.window))
     else if x.write && y.write then true
     else if x.write || y.write then false
     else x.word != y.word)

/-- TVAL of a bank collision (R201, R287); `row` the share-relative row of the later access. -/
def BankUse.tval (x : BankUse) : Nat :=
  if x.vault then 0b1011 * 2 ^ 60 + x.bank % 128 + (x.bank / 128 % 128) * 2 ^ 16 + (x.bank / 128 / 128) * 2 ^ 23
  else 0b1010 * 2 ^ 60 + x.bank + x.word * 2 ^ 9

/-! ### The other tiles, and the job -/

/-- Every tile, the one in focus first. -/
def State.tiles (s : State) : List Tile := s.tile :: s.others

/-- Change every tile that satisfies `p`. -/
def State.mapTiles (s : State) (p : Tile → Bool) (f : Tile → Tile) : State :=
  { s with tile := if p s.tile then f s.tile else s.tile, others := updWhere p f s.others }

/-- Bring the first tile satisfying `p` into focus. -/
def State.focus (s : State) (p : Tile → Bool) : State :=
  if p s.tile then s
  else
    match s.others.find? p with
    | none => s
    | some t => { s with tile := t, others := s.tile :: s.others.erase t }

/-- Wafer-logical quad coordinates of a tile, column and row (R193). -/
def Tile.quadOf (t : Tile) : Nat × Nat := (t.ltid / 4 % Config.quadCols, t.ltid / 4 / Config.quadCols)

/-- The job whose partition has this id. -/
def State.job? (s : State) (pid : Nat) : Option Job := s.jobs.find? fun j => j.pid == pid && j.state == .running

/-- The reference count of a partition: the value of two of its three copies (R306). -/
def Job.ref (j : Job) : Nat :=
  if j.refs[0] == j.refs[1] || j.refs[0] == j.refs[2] then j.refs[0]
  else if j.refs[1] == j.refs[2] then j.refs[1]
  else Config.refVote j.refs[0] j.refs[1] j.refs[2]

/-- Three copies of a count that agree. -/
def threeOf (n : Nat) : Vector Nat 3 := Vector.replicate 3 n

/-- The job of the tile in focus. -/
def State.myJob (s : State) : Option Job := s.job? s.tile.ct.pid

/-- Change the job of partition `pid`. -/
def State.onJob (s : State) (pid : Nat) (f : Job → Job) : State :=
  { s with jobs := updWhere (fun j => j.pid == pid && j.state == .running) f s.jobs }

/-- Change the Hilum. -/
def State.onHilum (s : State) (f : Hilum → Hilum) : State := { s with hilum := f s.hilum }

/-- Change the error counts. -/
def State.onErrors (s : State) (f : Errors → Errors) : State :=
  s.onHilum fun h => { h with errors := f h.errors }

/-- One more error of a unit (R399). -/
def Errors.counts (e : Errors) (u : ErrUnit) : Errors :=
  { e with units := if e.units.any (·.1 == u) then updWhere (·.1 == u) (fun x => (x.1, x.2 + 1)) e.units else e.units ++ [(u, 1)] }

/-- Do two tiles run the node of one group (R319)? -/
def Tile.sameGroup (t u : Tile) : Bool :=
  t.ct.pid == u.ct.pid && t.ct.strand.isSome && t.ct.strand == u.ct.strand

/-- GROUPID.GRANK (R193). -/
def Tile.grank (t : Tile) : Nat := bits t.ct.cx.groupid.toNat 14 0

/-- Does the tile run, or hold, a node of the group of tile `t`? -/
def State.groupOf (s : State) (t : Tile) : List Tile := s.tiles.filter (·.sameGroup t)

/-- Width and height of the partition in quads (R335). -/
def Job.width (j : Job) : Nat := bits (j.record.getD 0 0).toNat 21 15 + 1
def Job.height (j : Job) : Nat := bits (j.record.getD 0 0).toNat 27 22 + 1

/-! ### The vault -/

/-- A vault byte in the view of group `g` (R206, R284): the key is the vault address with COM = 0. -/
def Job.vByte (j : Job) (g a : Nat) : Byte := j.vault.view g a

/-- Bytes of a vault share as group `g` sees them. -/
def Job.vBytes (j : Job) (g a n : Nat) : List Byte := (List.range n).map fun i => j.vByte g (a + i)

/-- Is vault byte `a` in a staged region? -/
def vStaged (rs : List Region) (a : Nat) : Bool := rs.any fun r => r.staged && regionHolds r 1 a

/-- The words that a write of these vault bytes covers in staged lines, or outside them, one entry per byte. -/
def vWords (rs : List Region) (cells : List Host.Cell) (staged : Bool) : List Nat :=
  (uniq ((cells.filter (vStaged rs ·.1 == staged)).map (·.1))).map (· / 8)

/-- The errors of vault words that such a write merges, corrects and so counts (R269, R283). -/
def Job.vMerged (j : Job) (rs : List Region) (cells : List Host.Cell) : Nat :=
  if j.vault.soft.isEmpty then 0
  else j.vault.merged true (vWords rs cells true) + j.vault.merged false (vWords rs cells false)

/-- Write vault bytes for group `g`: to shadow lines in staged regions (R206); the line is marked with the attempt's
group (R283). -/
def Job.vPut (j : Job) (rs : List Region) (g : Nat) (cells : List Host.Cell) : Job :=
  let v := cells.foldl (fun v c => if vStaged rs c.1 then v.stage g c.1 c.2 else v.store c.1 c.2) j.vault
  { j with
    vault := if v.soft.isEmpty then v else (v.heal true (vWords rs cells true)).heal false (vWords rs cells false)
    vaultMarks := (cells.map fun c => (lineOf c.1, g)) ++ j.vaultMarks.filter fun m => !(cells.any fun c => lineOf c.1 == m.1) }

/-- Relative quad of a vault address with COM = 0 (R284). -/
def vQuad (ea : Nat) : Nat × Nat := (ea / 2 ^ 24 % 128, ea / 2 ^ 31 % 64)

/-- Hops from a quad to the quad of a vault address (R286). -/
def hops (q : Nat × Nat) (ea : Nat) : Nat :=
  let p := vQuad ea
  (max p.1 q.1 - min p.1 q.1) + (max p.2 q.2 - min p.2 q.2)

/-- Partition-relative quad of the tile (R298). -/
def Tile.relQuad (t : Tile) (j : Job) : Nat × Nat := (t.quadOf.1 - j.x, t.quadOf.2 - j.y)

/-- Bytes of the job's vault share in each quad (R335). -/
def Job.vshare (j : Job) : Nat := bits (j.record.getD 2 0).toNat 43 32 * 8192

/-! ### The effect log -/

/-- Capacity of the effect log (R259). -/
def logCap : Nat := 256

/-- The log entry that an outside effect now reaches, in a re-run (R259). -/
def Context.replayed (k : Context) : Option LogEntry := k.log[k.logPos]?

/-- Append an outside effect to the log (R259): a full log is remembered, and a later rewind escalates. -/
def Context.logged (k : Context) (e : LogEntry) : Context :=
  if k.log.length < logCap then { k with log := k.log ++ [{ e with made := k.now }], logPos := k.logPos + 1 }
  else { k with logFull := true, logPos := k.logPos + 1 }

/-- Enter the value that a window returned (R259). -/
def Context.logValue (k : Context) (id : Nat) (v : Word) : Context :=
  { k with log := updWhere (fun e => e.id == id && e.value.isNone) (fun e => { e with value := some v }) k.log }

/-- Does an outside effect agree with its log entry (R259)? -/
def LogEntry.agrees (e : LogEntry) (code : Nat) (addr : Word) (operands : List Word) : Bool :=
  e.code == code && e.addr == addr && e.operands == operands

/-! ### Filling results -/

/-- Give a waiting result its value; one already captured enters its replay register (R39). -/
def Context.fill (k : Context) (id : Nat) (v : Vec) (fl : BitVec 14) : Context :=
  match k.inflight.find? fun r => r.id == id with
  | none => k
  | some r =>
    match r.y with
    | none =>
      { k with inflight := updWhere (fun r => r.id == id) (fun r => { r with src := .val v, fl := r.fl ||| fl }) k.inflight }
    | some i =>
      { k with
        inflight := k.inflight.filter fun r => r.id != id
        y := if h : i < 16 then k.y.set i { k.y[i] with value := v } h else k.y }

/-! ### Leaving execution -/

/-- The first replay register that is free (R39). -/
def freeY (y : Vector YReg 16) : Option Nat := y.toList.findIdx? fun r => !r.valid

/-- The replay register of a result captured at `at_` (R39, R40). The status of an armed BWAIT has no landing cycle yet: it takes the
least REMAIN there is (DESIGN CHOICE, log 14). -/
def captured (r : Result) (at_ : Nat) : YReg :=
  { value := match r.src with
      | .val v => v
      | _ => 0
    byteen := r.be
    remain := BitVec.ofNat 10 (max 1 (r.due - at_))
    dnum := BitVec.ofNat 6 r.dest.codes.2
    dclass := BitVec.ofNat 3 r.dest.codes.1
    valid := true
    whence := some ⟨r.issue, r.slot, r.addr, r.brk⟩ }

/-- Capture one result still in flight at `at_`: its flags are set (R171); a result not read yet fills its register when it
is read. -/
def Context.capture1 (at_ : Nat) (k : Context) (r : Result) : Context :=
  let k := k.setFlags r.fl
  if r.dest.isS0 then k
  else
    match freeY k.y with
    | none => k
    | some i =>
      if h : i < 16 then
        { k with
          y := k.y.set i (captured r at_) h
          waiting := k.waiting.map fun w => if w.1 = r.id then (w.1, some i) else w
          inflight := match r.src with
            | .val _ => k.inflight
            | _ => k.inflight ++ [{ r with y := some i, fl := 0 }] }
      else k

/-- Capture of everything in flight when the tile leaves execution at `at_` (R39), in the order of issue (DESIGN CHOICE, log 59): registers still valid keep their place
with the cycles that remain, and a result that one of them already holds a place for keeps it. -/
def Context.capture (k : Context) (at_ : Nat) : Context :=
  let y := match k.yAt with
    | none => k.y
    | some a => k.y.map fun r => if r.valid then { r with remain := BitVec.ofNat 10 (max 1 (a + r.remain.toNat - at_)) } else r
  (k.inflight.filter (·.y.isNone)).foldl (Context.capture1 at_) { k with y := y, yAt := none, inflight := k.inflight.filter (·.y.isSome) }

/-- Engine effects stop with the tile (R232); stores, atomic windows and bank reads go on to their cycles. -/
def PendKind.isEngine : PendKind → Bool
  | .spWrite _ | .vaultWrite _ | .vaultRead .. | .atomic .. | .barrier .. | .outWrite .. | .publish _ => false
  | _ => true

/-- Is the effect one of an engine op: of its kind, or a store that an X op makes (R232, R239, R247)? -/
def Pend.isEngine (p : Pend) : Bool := p.kind.isEngine || p.slot == 3

/-- Effects that stand whatever becomes of the attempt (R256, R259): the re-run sends a BWAIT again. -/
def PendKind.isOutside : PendKind → Bool
  | .barrier _ _ _ op _ => op != .bwait
  | .atomic .. | .outWrite .. => true
  | _ => false

/-- Suspend issue; what another op of the bundle has set waits its turn (R31). -/
def Context.hold (k : Context) (r : Run) : Context := { k with run := r, after := k.run }

/-- The wait in force is over. -/
def Context.goOn (k : Context) : Context := { k with run := k.after, after := .issue }

/-- **Taking a trap** on one tile at the stop cycle (R256, R261): results in flight are captured, engine effects and beats
are frozen with their offsets, the sequencer state is saved, and TCAUSE, TPC, TCYC, TVAL and TSLOT are written. The
handler's first bundle issues four cycles later. -/
def Tile.takeTrap (t : Tile) (st : Stop) : Tile :=
  let n := t.ct.now
  let code := (st.own.map (·.cause.code)).getD 0
  let k := t.ct.capture n
  { t with
    ct := { k with
      trap := some {
        seq := k.sq, at_ := n, rotb := k.cx.rotb, run := k.run, after := k.after
        held := (t.pend.filter (·.isEngine)).map fun p => { p with due := p.due - n }
        banks := (t.banks.filter fun b => b.slot == 3 && n < b.due).map fun b => { b with due := b.due - n }
        beats := t.beats.map fun b => { b with at_ := b.at_ - n }
        landing := t.landing.map fun e => (e.1, n - e.2.1, e.2.2)
        cimBusy := t.cimBusy - n, denseBusy := t.denseBusy - n, pipBusy := t.pipBusy - n }
      stop := none
      run := .stopped (n + 4)
      cx := { k.cx with
        tcause := BitVec.ofNat 64 (code + st.gcode.toNat * 2 ^ 8 + st.gsrc.toNat * 2 ^ 16)
        tpc := BitVec.ofNat 64 k.sq.pc
        tcyc := BitVec.ofNat 64 n
        tval := (st.own.map (·.tval)).getD 0
        tslot := BitVec.ofNat 64 ((st.own.map (·.slot)).getD 0
          + (if st.own.isSome && k.sq.pfx.isSome then 8 else 0) + (n - k.s0) * 2 ^ 16) } }
    pend := t.pend.filter (!·.isEngine)
    banks := t.banks.filter fun b => b.slot != 3 || b.due ≤ n
    beats := [], landing := [], cimBusy := 0, denseBusy := 0, pipBusy := 0, decBusy := 0 }

/-- The state in which a handler's first bundle issues (R261). -/
def Tile.enterHandler (t : Tile) : Tile :=
  { t with ct := { t.ct with
      run := .issue, after := .issue
      sq := { pc := 0, mustSeg := true, lastSeg := none }
      cx := { t.ct.cx with rotb := 0 } } }

/-- A code address in the code part of the share (R164). -/
def Context.codeEnd (k : Context) : Nat := k.isize * 1024 - 8 * k.segn

/-- The op word at a code address, from IMEM as it stands (R28, R164). -/
def Tile.word (t : Tile) (a : Nat) : OpWord := BitVec.ofNat 32 (memNat t.imem (t.ct.ibase * 1024 + a) 4)

/-- The packet that holds code address `a`, from IMEM as it stands (R28). -/
def Tile.packet (t : Tile) (a : Nat) : List OpWord := (List.range 8).map fun i => t.word (a / 32 * 32 + 4 * i)

/-- The word at code address `a` in a packet copy. -/
def copyWord (copy : List OpWord) (a : Nat) : OpWord := copy.getD (a / 4 % 8) 0

/-- Sequencer state restored `shift` cycles later, with every copy read again from IMEM (R168): that of a transfer already taken too, which
R144 would have issued from the copy it had (DEDUCED, log 59). A loop copy or a return entry that is Stale stays so, like a Stale b register
(DEDUCED, log 59). -/
def Tile.restoreSeq (t : Tile) (q : Seq) (shift : Nat) : Seq :=
  { q with
    b := q.b.map fun b => match b.state with
      | .ready => { b with copy := t.packet b.target }
      | .pending => { b with ready := b.ready + shift, copyAt := b.copyAt.map (· + shift) }
      | _ => b
    loops := q.loops.map fun e => { e with
      startCopy := t.packet e.start, exitCopy := t.packet e.stop
      startAt := e.startAt.map (· + shift) }
    rets := q.rets.map fun r => match r.state with
      | .stale => r
      | .pending => { r with ready := r.ready + shift, copyAt := r.copyAt.map (· + shift) }
      | _ => { r with copy := t.packet r.addr }
    rep := q.rep.map fun r => { r with start := r.start + shift, staged := 0, reissued := 0 }
    buffer := none, reissue := none
    fetchCopy := q.fetchCopy.map fun _ => t.packet q.pc }

/-- Is a replay register fit to land (R40)? -/
def YReg.sound (y : YReg) : Bool :=
  y.remain != 0 && y.dclass.toNat ≤ 4 &&
    match y.dclass.toNat with
    | 1 => y.dnum.toNat < 32
    | 2 => y.dnum.toNat < 8
    | 3 => y.dnum.toNat ≤ 8
    | 4 => y.dnum.toNat < 16
    | _ => true

/-- The destination a replay register names (R40). -/
def YReg.dest (y : YReg) : Dest :=
  match y.dclass.toNat with
  | 0 => .s y.dnum
  | 1 => .v (y.dnum.setWidth 5)
  | 2 => .k (y.dnum.setWidth 3)
  | 3 => if y.dnum.toNat = 8 then .qAll else .q (y.dnum.setWidth 3)
  | _ => .stream (y.dnum.setWidth 4)

/-- The destination of two replay registers that are to land in one register in one cycle (R37). -/
def yClash : List YReg → Option Dest
  | [] => none
  | y :: ys =>
    match ys.find? fun z => z.remain == y.remain && z.dest.clash y.dest with
    | some z => some (y.dest.meet z.dest)
    | none => yClash ys

/-- The cycles that a FENCE waits are cycles in execution: those left when the tile leaves it follow when it is back, so that D(S) of
them count in the segment and none that the tile was out (R46, R187; DEDUCED, log 14). -/
def Run.shifted (r : Run) (n : Nat) : Run :=
  match r with
  | .wait till .fence => .wait (till + n) .fence
  | _ => r

/-- **Returning from a trap**: the interrupted context's first issue after TRET (R263, R168, R39). With TPC changed the
charged bundle is skipped, a REP and a wait in progress are dropped, and so is the interrupted segment. The TSLOT of a collision of two
replay registers is 4 (DESIGN CHOICE, log 59). -/
def Tile.returnTrap (t : Tile) : Tile :=
  match t.ct.trap with
  | none => t
  | some sv =>
    let n := t.ct.now
    let shift := n - sv.at_
    let q := t.restoreSeq sv.seq shift
    let tpc := t.ct.cx.tpc.toNat
    let same := tpc == sv.seq.pc
    let q := if same then q
      else { q with pc := tpc, sequential := false, fetchCopy := none, rep := none, pfx := none, seg := none, mustSeg := true }
    let t := { t with
      ct := { t.ct with
        sq := q, trap := none, handled := some (sv.at_, n), yAt := some n
        run := if same then sv.run.shifted shift else .issue
        after := if same then sv.after.shifted shift else .issue
        cx := { t.ct.cx with rotb := sv.rotb } }
      pend := t.pend ++ sv.held.map fun (p : Pend) => { p with due := p.due + n }
      beats := sv.beats.map fun (b : Beat) => { b with at_ := b.at_ + n, tag := b.tag + BitVec.ofNat 4 shift }
      landing := sv.landing.map fun (e : Nat × Nat × Vec) => (e.1, n - e.2.1, e.2.2)
      cimBusy := sv.cimBusy + n, denseBusy := sv.denseBusy + n, pipBusy := sv.pipBusy + n }
    let ys := t.ct.y.toList.filter (·.valid)
    if ys.any (!·.sound) then t.raise .illegalOp t.freeTval 4
    else
      match yClash ys with
      | some d => t.raise .landingCollision d.tval 4
      | none => t

/-- Rewind of one tile at a halt (R256): the node-start snapshot comes back, staged writes are discarded, the node flag set
clears, and everything still under way is dropped but the windows of outside effects. The re-run starts at `s1`. -/
def Tile.rewind (t : Tile) (s1 : Nat) : Tile :=
  let k := t.ct
  { t with
    ct := { k with
      cx := k.snap
      sq := { pc := k.entry, mustSeg := true }
      y := Vector.replicate 16 {}
      run := .halt (some s1)
      trap := none, handled := none, yAt := none, guard := none, oor := none, dqLate := none, mincLate := none, waiting := none, waitLog := none, overlays := []
      condw := none, after := .issue
      flags := 0, flSet := 0, inflight := [], logPos := 0, husk := 0, finjSeen := 0, util := Vector.replicate 6 0
      s0 := s1, attempt := k.attempt + 1 }
    sp := t.sp.discard fun l => k.sbase ≤ 64 * l.1 && 64 * l.1 < k.sbase + k.ssize * 1024
    acc := if k.cimUser then k.snapAcc else t.acc
    marks := [], lost := false, dets := [], post := [], late := [], owed := [], undo := [], engineOor := none
    pend := t.pend.filter (·.kind.isOutside)
    banks := t.banks.filter (·.window), beats := [], landing := []
    cimBusy := 0, denseBusy := 0, pipBusy := 0, decBusy := 0 }

/-- Tree delay of a rectangle of quads (R256, R318). -/
def treeDelay (w h : Nat) : Nat := 4 + 2 * (w + h - 2)

/-- Tree delay of the tile's node group. -/
def Tile.groupDelay (t : Tile) : Nat :=
  treeDelay (bits t.ct.cx.groupsize.toNat 6 0) (bits t.ct.cx.groupsize.toNat 13 7)

end Sys2Proof.Machine
end

