-- ==== Sys2Proof/Machine/Banks.lean ====
section
/-!
DEFINITION. Collisions at banks (07 R201; 10 R287; 13 R354): those that a bundle meets at its issue, and those that an engine
access meets in its bank cycle.
-/
namespace Sys2Proof.Machine

/-- The first of these bank uses, among those that `ok` picks, that collides with one of the tile booked before it, or with one of another
tile of the partition in the vault (R201, R287). -/
def State.firstClash (s : State) (ok : BankUse → Bool) (before : List BankUse) : List BankUse → Option (BankUse × Tile × BankUse)
  | [] => none
  | b :: bs =>
    let t := s.tile
    let own := ((before.filter fun _ => ok b).find? fun x => b.clash x (x.owner == b.owner)).map fun x => (b, t, x)
    let far := if b.vault && ok b then
        (s.others.filter fun u => u.ct.pid == t.ct.pid).findSome? fun u => (u.banks.find? (b.clash · false)).map fun x => (b, u, x)
      else none
    match own, far with
    | some r, _ => some r
    | none, some r => some r
    | none, none => s.firstClash ok (before ++ [b]) bs

/-- Would a scratchpad access of the op that made this bank use race, by the entries as they stand (R213)? -/
def Tile.racesAhead (t : Tile) (b : BankUse) : Bool :=
  (t.pend.any fun p => p.issue == b.issue && p.slot == b.slot && match p.kind with
    | .spWrite cells => (t.spRace (cells.map (·.1)) p.phase true).isSome
    | .atomic _ .sp a n .. => (t.spRace ((List.range n).map (a + ·)) p.phase true).isSome
    | _ => false) ||
  t.ct.inflight.any fun r => r.issue == b.issue && r.slot == b.slot && match r.src with
    | .read .sp as _ => (t.spRace (as.filterMap id) r.phase false).isSome
    | .drain as _ => (t.spRace as r.phase false).isSome
    | _ => false

/-- A scratchpad bank use of this bundle, of those that `ok` picks, that collides with one made before it (R201); the vault banks find
their collisions in the bank cycle (R287). -/
def State.bankClash (s : State) (ok : BankUse → Bool) : Option BankUse :=
  let t := s.tile
  (s.firstClash ok (t.banks.filter fun b => b.issue != t.c) (t.banks.filter fun b => b.issue == t.c && !b.vault)).map (·.1)

/-- A bank collision found at issue is charged to this bundle, whose access is the later (R201). RACE comes before it (R214, R295): an
access that is to race commits with its bundle, and its bank cycle finds the race, else the collision. -/
def State.chargeBanks (s : State) : State :=
  match s.bankClash (!s.tile.racesAhead ·), s.bankClash fun _ => true with
  | some b, _ => { s with tile := s.tile.raise .landingCollision b.tval b.slot }
  | none, some b => { s with tile := { s.tile with owed := s.tile.owed ++ [(s.tile.c, b.slot, b.tval)] } }
  | none, none => s

/-- The words of the share that bytes `addrs` touch, as uses of their banks in this cycle by a bundle issued earlier. -/
def Tile.spUses (t : Tile) (addrs : List Nat) (write : Bool) (issue slot addr : Nat) (husk : Bool) : List BankUse :=
  (wordsTouched addrs).map fun w => {
    due := t.c, vault := false, bank := w % 384, word := w / 384, write := write, window := false
    issue := issue, slot := slot, addr := addr, owner := t.uid, husk := husk, seen := true }

/-- The vault lines that `addrs` name, as uses of their banks in this cycle. -/
def Tile.vaultUses (t : Tile) (addrs : List Nat) (write : Bool) (issue slot addr : Nat) (husk : Bool) : List BankUse :=
  (uniq addrs).map fun a => {
    due := t.c, vault := true, bank := vaultBank a, word := a % 2 ^ 24 / 8192, write := write, window := false
    issue := issue, slot := slot, addr := addr, owner := t.uid, husk := husk, seen := true }

/-- Is the effect one of the op that made this bank use? An engine's op keeps its effects but the one that is charged. -/
def Pend.madeBy (p : Pend) (b : BankUse) : Bool :=
  p.issue == b.issue && p.slot == b.slot && match p.kind with
    | .vaultWrite _ | .vaultRead .. | .outWrite .vault _ _ | .atomic _ .vault .. | .barrier _ .vault .. => b.vault
    | .spWrite _ | .outWrite .sp _ _ | .atomic _ .sp .. | .barrier _ .sp .. => !b.vault && b.slot != 3
    | _ => false

/-- Entries that satisfy `p` leave the effect log. -/
def Context.unlogIf (k : Context) (p : LogEntry → Bool) : Context :=
  { k with log := k.log.filter (!p ·), logPos := k.logPos - (k.log.filter p).length }

/-- An op that takes no effect after all delivers no result and makes no log entry. Of one bundle only the M op has one. -/
def Context.spoilOp (k : Context) (issue slot : Nat) : Context :=
  let gone (r : Result) : Bool := r.issue == issue && r.slot == slot
  let ids := (k.inflight.filter gone).map (·.id)
  { k.unlogIf (fun e => ids.contains e.id || (slot == 2 && e.made == issue)) with inflight := k.inflight.filter (!gone ·) }

/-- An op charged with a collision in its bank cycle takes no effect there: its access, its result and its log entry are gone (R295). -/
def Tile.spoil (t : Tile) (b : BankUse) : Tile :=
  { t with pend := t.pend.filter (!·.madeBy b), ct := t.ct.spoilOp b.issue b.slot }

/-- The cycles that a wake takes to the tile (R373). -/
def Arm.lag (a : Arm) : Nat :=
  match a.space with
  | .sp => 3
  | .vault => 2 + 2 * a.hops
  | .commons => 278

/-- What a tile's window writes replaced is noted, for this cycle. -/
def Tile.noteUndo (t : Tile) (u : Undo) : Tile := { t with undo := t.undo.filter (·.at_ == u.at_) ++ [u] }

/-- A window's write that landed in this cycle is taken back, with the wakes it sent: its op is charged after all (R295). What it wrote to
staged lines goes with the attempt. -/
def State.takeBack (s : State) (t : Tile) (issue slot : Nat) : State :=
  (t.undo.filter fun u => u.at_ == t.c && u.issue == issue && u.slot == slot).foldl (fun s u =>
    let back (sp : Space) : Space := u.old.foldl (fun sp c => sp.store c.1 c.2) sp
    let s : State := match u.space with
      | .sp => s.mapTiles (·.ltid == t.ltid) fun t => { t with sp := back t.sp }
      | _ => s.onJob t.ct.pid fun j => { j with vault := back j.vault }
    match u.wake with
    | some (o, a) =>
      let mine (m : Arm) : Bool := m.space == u.space && m.owner == o && m.addr == a && m.woken.any (·.2 == u.at_ + m.lag)
      { s with arms := updWhere mine (fun m => { m with woken := none }) s.arms }
    | none => s) s

/-- Every transfer a job has under way. -/
def Job.transfers (j : Job) : List Transfer := j.windows.flatMap fun w => w.active.toList ++ w.shadow.toList

/-- Change the transfers of a job that satisfy `p`. -/
def Job.onTransfers (j : Job) (p : Transfer → Bool) (f : Transfer → Transfer) : Job :=
  let g (x : Transfer) : Transfer := if p x then f x else x
  { j with windows := j.windows.map fun w => { w with active := w.active.map g, shadow := w.shadow.map g } }

/-- Drop the transfers that satisfy `p`, with their reservations (R356). -/
def Job.dropTransfers (j : Job) (p : Transfer → Bool) : Job :=
  let g (x : Option Transfer) : Option Transfer := x.filter fun x => !p x
  { j with windows := j.windows.map fun w => { w with active := g w.active, shadow := g w.shadow } }

/-- Charge a collision found in its bank cycle (R201, R287, R354): to the tile's bundle against a Husk engine, else to the
access issued later, and for equal issue cycles of two tiles to the lower GRANK. An access already found to race stays charged with that; a STAGE whose
descriptor read is charged reserves nothing (R361). -/
def State.foundClash (s : State) (b : BankUse) (u : Tile) (x : BankUse) : State :=
  let other := if b.husk != x.husk then b.husk
    else x.issue > b.issue || (x.issue == b.issue && u.ltid != s.tile.ltid && u.grank < s.tile.grank)
  let y := if other then x else b
  let ltid := if other then u.ltid else s.tile.ltid
  let raced (t : Tile) : Bool := t.dets.any fun d => d.cause == .race && d.issue == y.issue && d.slot == y.slot
  let s := if y.husk then s
    else s.onJob s.tile.ct.pid (·.dropTransfers fun x => x.ltid == ltid && x.issue == y.issue && y.slot == 2)
  let s := if y.window then s.takeBack (if other then u else s.tile) y.issue y.slot else s
  s.mapTiles (fun t => t.ltid == ltid && !raced t) fun t => (t.spoil y).found .landingCollision y.tval y.slot y.issue y.addr

/-- Bank uses of this cycle made by an engine or a deferred access of the tile in focus: booked, and a collision charged. -/
def State.bookNow (s : State) (us : List BankUse) : State :=
  let s' := { s with tile := { s.tile with uid := s.tile.uid + 1, banks := s.tile.banks ++ us } }
  match s.firstClash (fun _ => true) s.tile.banks us with
  | none => s'
  | some (b, u, x) => s'.foundClash b u x

/-- A write to a word of a plane that a running CMM or CMMQ uses (R234): the TVAL of R201. -/
def Tile.lockedWord (t : Tile) (addrs : List Nat) : Option Nat :=
  (wordsTouched addrs).findSome? fun w =>
    if t.pend.any fun p => match p.kind with
      | .cimLock lo hi => p.issue < t.c && t.c ≤ p.due && lo ≤ w / 384 && w / 384 < hi
      | _ => false
    then some (0b1010 * 2 ^ 60 + w % 384 + w / 384 * 2 ^ 9) else none

/-- Raise the LANDING_COLLISION of a write to locked words, charged to the bundle that issued it. -/
def Tile.checkLocked (t : Tile) (addrs : List Nat) (slot issue addr : Nat) : Tile :=
  match t.lockedWord addrs with
  | none => t
  | some v => t.found .landingCollision v slot issue addr

end Sys2Proof.Machine
end

