-- ==== Sys2Proof/Machine/Hash.lean ====
section
/-!
DEFINITION. SHAKE256 (FIPS 202), the H of 15 R406-R408 and 12 R344. The spec names the function and not its steps (PRESUMED, log 26).
-/
namespace Sys2Proof.Machine

/-- The lane that the rho step reaches after `t` moves from lane (1, 0). -/
def rhoWalk : Nat → Nat × Nat
  | 0 => (1, 0)
  | t + 1 =>
    let p := rhoWalk t
    (p.2, (2 * p.1 + 3 * p.2) % 5)

/-- The rotation of a lane in the rho step: the triangular number of its place in the walk, and none of lane (0, 0). -/
def rhoOf (x y : Nat) : Nat :=
  match (List.range 24).find? fun t => rhoWalk t == (x, y) with
  | some t => (t + 1) * (t + 2) / 2 % 64
  | none => 0

/-- The rotations, of lane (x, y) at x + 5y. -/
def rhoTable : List Nat := (List.range 25).map fun i => rhoOf (i % 5) (i / 5)

/-- The register that makes the iota step's bits after `t` shifts: feedback by x^8 + x^6 + x^5 + x^4 + 1. -/
def iotaShift : Nat → Nat
  | 0 => 1
  | t + 1 =>
    let d := 2 * iotaShift t
    if d < 256 then d else d ^^^ 0x171

/-- The constant of a round in the iota step: bit 2^j - 1 from shift 7 × round + j. -/
def iotaOf (round : Nat) : BitVec 64 :=
  (List.range 7).foldl (fun w j => if iotaShift (7 * round + j) % 2 = 1 then w ||| BitVec.ofNat 64 (2 ^ (2 ^ j - 1)) else w) 0

/-- The constants of the 24 rounds. -/
def iotaTable : List (BitVec 64) := (List.range 24).map iotaOf

/-- Lane (x, y) of the state, 25 words with x + 5y. -/
def kLane (a : List (BitVec 64)) (x y : Nat) : BitVec 64 := a.getD (x % 5 + 5 * (y % 5)) 0

/-- A state from its lanes. -/
def kMake (f : Nat → Nat → BitVec 64) : List (BitVec 64) := (List.range 25).map fun i => f (i % 5) (i / 5)

/-- One round: theta, rho and pi, chi, iota. -/
def kRound (a : List (BitVec 64)) (rc : BitVec 64) : List (BitVec 64) :=
  let c := (List.range 5).map fun x => kLane a x 0 ^^^ kLane a x 1 ^^^ kLane a x 2 ^^^ kLane a x 3 ^^^ kLane a x 4
  let d := (List.range 5).map fun x => c.getD ((x + 4) % 5) 0 ^^^ (c.getD ((x + 1) % 5) 0).rotateLeft 1
  let a := kMake fun x y => (kLane a x y ^^^ d.getD x 0).rotateLeft (rhoTable.getD (x + 5 * y) 0)
  let b := kMake fun x y => kLane a (x + 3 * y) x
  let e := kMake fun x y => kLane b x y ^^^ (~~~ kLane b (x + 1) y &&& kLane b (x + 2) y)
  match e with
  | [] => []
  | h :: t => (h ^^^ rc) :: t

/-- Keccak-f[1600]. -/
def keccak (a : List (BitVec 64)) : List (BitVec 64) := iotaTable.foldl kRound a

/-- Bytes of a block: the rate of SHAKE256. -/
def shakeRate : Nat := 136

/-- Absorb one block. -/
def kAbsorb (a : List (BitVec 64)) (block : List Byte) : List (BitVec 64) :=
  let w := wordsOf 17 block
  keccak (kMake fun x y => kLane a x y ^^^ w.getD (x + 5 * y) 0)

/-- Pad a message: the suffix 1111, the first and the last bit of pad10*1. -/
def shakePad (m : List Byte) : List Byte :=
  let k := shakeRate - m.length % shakeRate
  if k = 1 then m ++ [0x9F] else m ++ [0x1F] ++ List.replicate (k - 2) 0 ++ [0x80]

/-- The blocks of a padded message. -/
def shakeBlocks : Nat → List Byte → List (List Byte)
  | 0, _ => []
  | n + 1, m => m.take shakeRate :: shakeBlocks n (m.drop shakeRate)

/-- The first `n` bytes, at most one block, of SHAKE256. -/
def shake256 (m : List Byte) (n : Nat) : List Byte :=
  let p := shakePad m
  let a := (shakeBlocks (p.length / shakeRate) p).foldl kAbsorb (List.replicate 25 0)
  ((a.take 17).flatMap fun w => bytesOf 8 w.toNat).take n

/-- H (R406): 256 bits. -/
def digest256 (m : List Byte) : List Byte := shake256 m 32

/-- The bytes of ASCII text. -/
def ascii (t : String) : List Byte := t.toList.map fun c => BitVec.ofNat 8 c.toNat

end Sys2Proof.Machine
end

