-- ==== Sys2Proof/WellFormed.lean ====
section
/-!
DEFINITION. Which operand fields the opcode map allows (spec 01 R32-R35, R41-R44, R52): `Instr.wf`. An op word that
fails it raises ILLEGAL_OP at issue (R52, R53 order 4).
-/
namespace Sys2Proof

/-- A V-slot vector operand field: 48-63 are reserved (R34). -/
def vecField (f : BitVec 6) : Bool := f.toNat < 48
/-- A field that names v0-v31 only (R111). -/
def regField (f : BitVec 6) : Bool := f.toNat < 32
/-- A field that names a mask or a q bit by its low three bits (R34). -/
def maskField (f : BitVec 6) : Bool := f.toNat < 8

/-- The bits a word reads from its extension field; none received reads as zero (R27). -/
def Ext.bits (x : Ext) : BitVec 7 := x.getD 0

/-- Masking bits of a V op: ext[2:0] zero, and ext[5:3] zero when ext[6] = 0 (R32, R109). -/
def Ext.maskOk (x : Ext) : Bool :=
  let b := x.bits.toNat
  b % 8 == 0 && (64 ≤ b || b == 0)

/-- The scalar named by a prefix: with ext[6] = 0 the rest is zero (R174, R177). -/
def Ext.scalarOk (x : Ext) : Bool :=
  let b := x.bits.toNat
  64 ≤ b || b == 0

/-- Lane width in bits of an element-type code (R13, R75). -/
def typeWidth (m : Nat) : Nat :=
  match m with
  | 0 | 4 => 8
  | 1 | 5 | 8 | 9 => 16
  | 2 | 6 | 10 => 32
  | _ => 64

/-- An integer element-type code (R13). -/
def isIntType (m : Nat) : Bool := m < 8
/-- A binary floating element-type code (R13). -/
def isBinType (m : Nat) : Bool := 8 ≤ m && m ≤ 11

/-- Three vector operands and masking. -/
def RRR.vec3 (o : RRR) (x : Ext) : Bool := vecField o.d && vecField o.a && vecField o.b && x.maskOk
/-- Two vector operands, b zero, and masking. -/
def RRR.vec2 (o : RRR) (x : Ext) : Bool := vecField o.d && vecField o.a && o.b == 0 && x.maskOk
/-- A vector compare: d holds k and the condition code. -/
def RRR.vcmp (o : RRR) (x : Ext) : Bool := vecField o.a && vecField o.b && x.maskOk
/-- The type is an integer type. -/
def RRR.mInt (o : RRR) : Bool := isIntType o.m.toNat
/-- The type is a binary floating type. -/
def RRR.mBin (o : RRR) : Bool := isBinType o.m.toNat
/-- A conversion's target field (R41, R42). -/
def RRR.cvtOk (o : RRR) : Bool :=
  o.b.toNat < 12 && o.m.toNat < 12 && (isBinType o.m.toNat || isBinType o.b.toNat)
/-- VDEFER and VDRAIN: 1-3 vectors, unused fields zero (R42, R111). -/
def RRR.deferOk (o : RRR) (x : Ext) : Bool :=
  regField o.d && regField o.a && regField o.b && x.maskOk &&
  match o.m.toNat with
  | 1 => o.a == 0 && o.b == 0
  | 2 => o.b == 0
  | 3 => true
  | _ => false
/-- The types DCVT takes (R41, R181). -/
def dcvtType (n : Nat) : Bool := n == 2 || n == 3 || n == 6 || n == 7 || n == 11 || n == 12

/-- The 12- or 19-bit loop end (R32). -/
def LP.endWords (o : LP) (x : Ext) : Nat := o.e.toNat + 4096 * x.bits.toNat

/-- The field rules of the opcode map, op by op (R41-R44). Events have no encoding and are well formed. -/
def Instr.wf : Instr → Bool
  | .nop | .nodeend | .tret =>
    true
  | .prefixBundle _ =>
    true
  | .bprep _ =>
    true
  | .bprepr o =>
    maskField o.d && o.b == 0 && o.m == 0
  | .bt o | .bf o =>
    o.f.toNat < 2
  | .ba o | .call o =>
    o.f.toNat < 2 && o.q == 0
  | .ret o =>
    o.b == 0 && o.q == 0 && o.f == 0
  | .binv o =>
    o.q == 0 && o.f.toNat < 2 && (o.f == 0 || o.b == 0)
  | .loop o x | .loopi o x =>
    o.f.toNat % 4 == 0 && o.endWords x != 0
  | .loopp o x =>
    o.endWords x != 0
  | .lexit o =>
    o.b == 0 && o.f.toNat < 2 && (o.f == 1 || o.q == 0)
  | .lidx o =>
    o.a == 0 && o.imm.toNat ≤ 5
  | .seg o _ | .trap o _ =>
    o.d == 0
  | .condw o =>
    o.d == 0 && o.b == 0 && o.m == 0
  | .phase o | .fence o =>
    o.d == 0 && 1 ≤ o.imm.toNat && o.imm.toNat ≤ 5
  | .calign o =>
    o.d == 0 && 2 ≤ o.imm.toNat && o.imm.toNat ≤ 5
  | .waitc o _ =>
    o.d == 0
  | .rdcyc o =>
    o.a == 0 && o.imm.toNat ≤ 2
  | .rep _ _ | .limm _ _ =>
    true
  | .cmp o =>
    maskField o.d && o.m.toNat < 8
  | .cmpi _ _ | .addi _ _ | .andi _ _ | .ori _ _ | .xori _ _ =>
    true
  | .qop o =>
    maskField o.d && maskField o.a && maskField o.b
  | .qmov o =>
    o.b == 0 && (o.m == 0 && o.a == 0 || o.m == 1 && o.d == 0 || (o.m == 2 || o.m == 3) && maskField o.d && maskField o.a)
  | .schk o =>
    o.d == 0 && o.m == 0
  | .csrr o | .csrw o =>
    o.imm.toNat < 4096
  | .add o | .sub o | .and o | .or o | .xor o | .andn o | .shl o | .shr o
  | .sra o | .rol o | .mul o | .clmul o | .clmulh o =>
    o.m == 0
  | .mulh o =>
    o.m.toNat ≤ 2
  | .div o | .rem o | .min o | .max o =>
    o.m.toNat ≤ 1
  | .clz o | .ctz o | .popc o | .fsqrt o | .fclass o | .dclass o =>
    o.b == 0 && o.m == 0
  | .sext o | .zext o =>
    o.b == 0 && o.m.toNat ≤ 2
  | .sel o x =>
    x.scalarOk && (x.bits.toNat < 64 || o.m == 0)
  | .shli o | .shri o | .srai o =>
    o.imm.toNat < 64
  | .lins _ x =>
    x.bits.toNat < 4
  | .fadd o | .fsub o | .fmul o | .fdiv o | .fmin o | .fmax o | .dadd o | .dsub o
  | .dmul o | .ddiv o | .dquant o =>
    o.m == 0
  | .fma o x | .dfma o x =>
    o.m == 0 && x.scalarOk
  | .fcmp o | .dcmp o =>
    maskField o.d && o.m.toNat < 8
  | .fcvt o =>
    o.cvtOk
  | .drint o =>
    o.b == 0 && o.m.toNat ≤ 5
  | .dcvt o =>
    dcvtType o.m.toNat && dcvtType o.b.toNat && (o.m == 12) != (o.b == 12)
  | .mfy o =>
    o.a.toNat < 16 && o.b == 0 && o.m.toNat ≤ 9
  | .mty o =>
    o.d.toNat < 16 && o.b == 0 && o.m.toNat ≤ 9
  | .rstk o =>
    o.a == 0 && o.b == 0 && o.m == 0
  | .rstkPush o =>
    o.d == 0 && o.b == 0 && o.m == 1
  | .vadd o x | .vsub o x | .vmul o x | .vmulh o x | .vand o x | .vor o x | .vxor o x | .vandn o x
  | .vshl o x | .vshr o x | .vsra o x | .vmin o x | .vmax o x | .vadds o x | .vsubs o x =>
    o.vec3 x && o.mInt
  | .vabs o x =>
    o.vec2 x && o.m.toNat ≤ 3
  | .vcmp o x =>
    o.vcmp x && o.mInt && o.d.toNat / 8 ≤ 5
  | .vsel o x =>
    vecField o.d && vecField o.a && vecField o.b && x.bits.toNat < 64 && x.bits.toNat % 8 == 0 && o.mInt
  | .vclmul o x =>
    o.vec3 x && (o.m == 3 || o.m == 7)
  | .vpopc o x | .vclz o x =>
    o.vec2 x && o.mInt
  | .vshli o x | .vshri o x | .vsrai o x =>
    vecField o.d && vecField o.a && x.maskOk && o.mInt && o.b.toNat < typeWidth o.m.toNat
  | .vfadd o x | .vfsub o x | .vfmul o x | .vfdiv o x | .vfmin o x | .vfmax o x | .vfscale o x | .vfsgn o x =>
    o.vec3 x && o.mBin
  | .vfma o x =>
    o.vec3 x && regField o.d && o.mBin
  | .vfsqrt o x =>
    o.vec2 x && o.mBin
  | .vfcmp o x =>
    o.vcmp x && o.mBin
  | .vfcvt o x =>
    vecField o.d && vecField o.a && x.maskOk && o.cvtOk
  | .vdadd o x | .vdsub o x | .vdmul o x | .vdquant o x =>
    o.vec3 x && o.m == 12
  | .vdfma o x =>
    o.vec3 x && regField o.d && o.m == 12
  | .vdcmp o x =>
    o.vcmp x && o.m == 12
  | .vradd o x =>
    o.vec2 x && o.m.toNat ≤ 12
  | .vrmax o x | .vrmin o x =>
    o.vec2 x && o.m.toNat ≤ 11
  | .vbcast o x =>
    vecField o.d && o.b == 0 && x.maskOk && o.m.toNat ≤ 12
  | .vext o =>
    vecField o.a && o.m.toNat ≤ 12
  | .vins o x =>
    regField o.d && x.maskOk && o.m.toNat ≤ 12
  | .vperm o x =>
    o.vec3 x && o.m.toNat ≤ 12
  | .vslide o x =>
    vecField o.d && vecField o.a && x.maskOk && o.m.toNat ≤ 12
  | .vcompress o x =>
    vecField o.d && vecField o.a && maskField o.b && x.maskOk && o.m.toNat ≤ 12
  | .viota o x =>
    vecField o.d && maskField o.a && o.b == 0 && x.maskOk && o.mInt
  | .kand o | .kor o | .kxor o =>
    maskField o.d && maskField o.a && maskField o.b && o.m == 0
  | .knot o =>
    maskField o.d && maskField o.a && o.b == 0 && o.m == 0
  | .kpopc o =>
    maskField o.a && o.b == 0 && o.m == 0
  | .kmov o =>
    o.b == 0 && (o.m == 0 && maskField o.d || o.m == 1 && maskField o.a || o.m == 2 && maskField o.d && maskField o.a)
  | .vdefer o x | .vdrain o x =>
    o.deferOk x
  | .dqcnt o =>
    o.a == 0 && o.b == 0 && o.m == 0
  | .vrng o | .vgauss o =>
    vecField o.d && o.a.toNat % 2 == 0 && o.b == 0 && o.m == 0
  | .vchk o x =>
    o.d == 0 && o.m == 0 && vecField o.a && vecField o.b && x.maskOk
  | .vbqpack o x | .vbqunpk o x =>
    vecField o.d && vecField o.a && x.maskOk && o.m.toNat ≤ 2
  | .ld o _ | .st o _ | .ldv o _ | .stv o _ =>
    o.ty != 7
  | .vld o _ | .vst o _ | .vldv o _ | .vstv o _ =>
    regField o.t && o.ty == 0
  | .vgather o | .vscatter o =>
    regField o.t && o.ty.toNat < 4 && o.off.toNat < 32
  | .sets o _ =>
    o.t.toNat < 16 && o.ty == 0
  | .srd o | .swr o =>
    o.base.toNat < 16 && o.ty != 7 && o.off == 0
  | .srst o =>
    o.t.toNat < 16 && o.base == 0 && o.ty == 0 && o.off == 0
  | .sget o =>
    o.base.toNat < 16 && o.ty == 0 && o.off.toNat < 7
  | .drive _ | .tap _ =>
    true
  | .drives o | .taps o =>
    regField o.t
  | .aadd o _ | .amax o _ | .aswap o _ | .aor o _ =>
    o.ty.toNat < 4
  | .acas o _ =>
    o.ty.toNat < 4 && o.t.toNat % 2 == 0
  | .binit o _ | .barv o _ | .bwait o _ | .bbytes o _ =>
    o.ty.toNat < 2
  | .stage o _ | .stagew o _ | .pubidx o _ =>
    o.ty == 0
  | .pubs o =>
    o.t == 0 && o.ty == 0 && o.off == 0
  | .hqry o =>
    o.ty == 0 && o.off.toNat < 4
  | .cloadb o | .cloadbq o =>
    o.sb == 0 && 1 ≤ o.cnt.toNat && o.cnt.toNat ≤ 16 && o.dst.toNat + o.cnt.toNat ≤ 16
  | .cmm o =>
    o.sb.toNat < 2 && 1 ≤ o.cnt.toNat && 4 * o.dst.toNat + o.cnt.toNat ≤ 48
  | .cmmq o =>
    o.sb.toNat < 2 && 1 ≤ o.cnt.toNat && 4 * o.dst.toNat + (o.cnt.toNat + 3) / 4 ≤ 48
  | .caccz o =>
    o.sa == 0 && o.sb == 0 && 1 ≤ o.cnt.toNat && 4 * o.dst.toNat + o.cnt.toNat ≤ 48
  | .caccrd o =>
    o.sa == 0 && o.sb.toNat < 2 && o.cnt.toNat % 64 < 48 && o.cnt.toNat / 64 + 16 * o.sb.toNat < 24
  | .caccst o =>
    o.sb == 0 && 1 ≤ o.cnt.toNat && 4 * o.dst.toNat + o.cnt.toNat ≤ 48
  | .pipm o x =>
    o.dst == 0 && o.sa == 0 && o.sb == 0 && x.bits.toNat < 64
  | .dmma o =>
    o.dst.toNat < 8 && 8 ≤ o.cnt.toNat && o.cnt.toNat ≤ 11
  | .dxz o =>
    o.dst.toNat < 8 && o.sa == 0 && o.sb == 0 && o.cnt == 0
  | .dxld o | .dxst o =>
    o.dst.toNat < 8 && o.sb == 0 && o.cnt == 0
  | .dchk o =>
    o.dst.toNat < 8 && o.cnt.toNat < 64
  | .dxfix o =>
    o.dst.toNat < 8 && o.cnt == 0
  | .dxrd o =>
    o.dst.toNat < 8 && o.sb == 0 && o.cnt.toNat ≤ 288
  | .segmentCountLimit | .bTargetReady _ | .returnEntryReady | .repReissue | .loopBufferIssue | .waitcResume
  | .stagewResume | .fenceResume | .resultLanding | .memoryWriteLanding | .vaultBankAccess | .atomicWindow
  | .barrierWindow | .bwaitWake | .bwaitTimeout | .barrierBreak _ | .commonsSlotService | .missedPromise
  | .channelArrival | .channelEntryDrop | .cimPlaneWrite | .cimAccumulateAdd | .dmmaLanding | .xRegisterLanding
  | .checksum | .engineStreamAccess | .finjWrite _ | .finjFire | .imemShareReload | .groupHalt
  | .nodeRerunStart | .trapStop | .handlerEntry | .contextResume | .handlerFaultEnd | .silentErrorKill
  | .preemptDelivery _ | .contextSwitch | .contextSwitchIn | .contextStreamOut | .contextStreamIn | .partitionSwitchIn _
  | .nodeEnd _ _ | .checkpointComplete _ | .walkerCodeStart _ _ | .walkerBranch _ _ | .walkerWhile _ _ | .walkerCollect _ _
  | .walkerFinish _ _ | .jobStart _ | .dualCompare _ | .beacon | .beaconArrival _ _ | .drift
  | .powerDecision _ _ | .thermalPause | .thermalResume | .thermalTimeout | .carrierTrip | .unitRetirement _
  | .jobReplacement _ | .checkpointRollback _ | .rollbackRestart _ | .huskWindowSwapin _ _ | .translation | .huskLocalLineWrite
  | .huskSourceRead | .huskPromiseMiss _ _ | .huskBarrierDecrement | .portLinkDown _ | .linkDownTimeout | .handoverTimeout
  | .stailWrite _ _ | .cheadWrite _ _ | .mcringWrite _ _ | .barRegisterWrite _ _ _ | .submissionConsume _ _ _ | .badSeq _
  | .completionEntryWrite _ | .identify _ | .attest _ | .claim _ | .handover _ | .accept _
  | .release _ | .queryJob _ | .queryMap _ | .readDigest _ | .readUtil _ | .readErrors _
  | .loadImage _ | .verifyImage _ | .admitJob _ | .launch _ | .cancel _ | .preempt _
  | .migrateOut _ | .checkpoint _ | .restore _ | .retireUnit _ | .copyIn _ | .copyOut _
  | .setTime _ | .powerGood | .moduleReset | .bootComplete | .podJoin _ | .tickEdge
  | .ptpMessage _ | .grandmasterLoss | .podJobStart _ _ | .fabricSlotSend _ | .fabricBatchPublish _ _ | .fabricBeacon _ _ _
  | .fabricLaneFail _ _ | .fabricPortFail _ | .podMemberLost _ | .portLinkUp _ | .retimingBufferSlip _ _ | .softError _ _
  | .counterCopyFault _ _ _ | .thermalAdmissionResume => true

end Sys2Proof
end

