-- ==== Sys2Proof/Machine/Operands.lean ====
section
/-!
DEFINITION. The operand forms: immediates and addresses of the MM format (01 R33, R43), masks (04 R109), stream registers
with their shape records (07 R218-R222), and vector operands, each a register or a stream (01 R34).
-/
namespace Sys2Proof.Machine

/-! ### Immediates and addresses -/

/-- imm or imm17, signed (R32, R33). -/
def riImm (o : RI) (x : Ext) : Int := immSigned 10 o.imm.toNat x

/-- imm or imm23, signed. -/
def i16Imm (o : I16) (x : Ext) : Int := immSigned 16 o.imm.toNat x

/-- imm or imm23, as a cardinal. -/
def i16Card (o : I16) (x : Ext) : Nat := immCard 16 o.imm.toNat x

/-- A 64-bit word from an integer. -/
def wordOf (z : Int) : Word := BitVec.ofInt 64 z

/-- EA = s[base] + sext(off) × scale, a 64-bit sum (R43, R214). -/
def Tile.ea (t : Tile) (o : MM) (x : Ext) (scale : Nat) : Nat :=
  (t.s o.base + wordOf (immSigned 7 o.off.toNat x * scale)).toNat

/-- Bytes moved under an access code (R43). -/
def accessSize (ty : BitVec 3) : Nat := 2 ^ (ty.toNat % 4)

/-- Sign extension asked for by an access code: .i8, .i16, .i32 (R43). -/
def accessSext (ty : BitVec 3) : Option Nat := if 4 ≤ ty.toNat then some (8 * accessSize ty) else none

/-! ### Masks -/

/-- Lane `i` is active (R109). -/
def Tile.active (t : Tile) (x : Ext) (i : Nat) : Bool :=
  let b := x.bits
  if b.getLsbD 6 then (t.ct.cx.rdK (b.extractLsb' 3 3)).getLsbD i else true

/-- Byte enables of the active lanes of `z` bytes. -/
def laneBytes (z : Nat) (active : Nat → Bool) : Word :=
  BitVec.ofNat 64 (joinNat 1 ((List.range 64).map fun i => if active (i / z) then 1 else 0))

/-! ### Shape records -/

def recField (r : Vec) (word h l : Nat) : Nat := bits (lane 64 word r) h l
def recBase (r : Vec) : Nat := recField r 0 18 0
def recFmt (r : Vec) : Nat := recField r 0 35 32
def recWrite (r : Vec) : Bool := recField r 0 40 40 == 1
def recShuf (r : Vec) : Bool := recField r 0 41 41 == 1
def recNdim (r : Vec) : Nat := recField r 0 43 42
/-- Extent of dimension `k`; 1 beyond NDIM (R218). -/
def recE (r : Vec) (k : Nat) : Nat := if k ≤ recNdim r then lane 32 (2 + k) r else 1
/-- The extent field as it stands. -/
def recERaw (r : Vec) (k : Nat) : Nat := lane 32 (2 + k) r
/-- Stride of dimension `k` (R218). -/
def recT (r : Vec) (k : Nat) : Int := toSigned 32 (lane 32 (6 + k) r)
def recSbase (r : Vec) : Nat := recField r 5 18 0
def recSstride (r : Vec) : Int := toSigned 32 (recField r 5 63 32)
def recBlk (r : Vec) : Bool := recField r 6 0 0 == 1
/-- Element size z in bytes (R219). -/
def recZ (r : Vec) : Nat := if 13 ≤ recFmt r then 1 else typeWidth (recFmt r) / 8
/-- Length of the walk (R219). -/
def recN (r : Vec) : Nat := recE r 0 * recE r 1 * recE r 2 * recE r 3

/-- The lane shuffle of R98: element `i` of a group of 64 lies at this byte. -/
def shufflePos (i : Nat) : Nat := i % 4 * 16 + i / 4

/-- Index `k` of element `j` of the walk (R219). -/
def recIndex (r : Vec) (j k : Nat) : Nat :=
  match k with
  | 0 => j % recE r 0
  | 1 => j / recE r 0 % recE r 1
  | 2 => j / (recE r 0 * recE r 1) % recE r 2
  | _ => j / (recE r 0 * recE r 1 * recE r 2) % recE r 3

/-- Address of element `j` of the walk (R219), as a 64-bit address. -/
def recAddr (r : Vec) (j : Nat) : Nat :=
  let i0 := recIndex r j 0
  let i0 := if recShuf r then 64 * (i0 / 64) + shufflePos (i0 % 64) else i0
  ofInt 64 (recBase r + i0 * recT r 0 + recIndex r j 1 * recT r 1 + recIndex r j 2 * recT r 2 + recIndex r j 3 * recT r 3)

/-- Address of the scale entry of element `j` (R219). -/
def recScale (r : Vec) (j : Nat) : Nat := ofInt 64 (recSbase r + ((j / 16 : Nat) : Int) * recSstride r)

/-- The dimensions with extent above 1, by increasing |Tk| and then increasing k (R220). -/
def recDims (r : Vec) : List (Nat × Nat) :=
  let ds := ((List.range 4).filter fun k => 1 < recE r k).map fun k => ((recT r k).natAbs, recE r k)
  ds.foldl (fun acc d => acc.takeWhile (·.1 ≤ d.1) ++ d :: acc.dropWhile (·.1 ≤ d.1)) []

/-- The overlap test of R220: the reach of the dimensions before each one. -/
def dimsApart (z : Nat) : Nat → List (Nat × Nat) → Bool
  | _, [] => true
  | reach, (st, e) :: ds => z + reach ≤ st && dimsApart z (reach + st * (e - 1)) ds

/-- Validation of a record (R220): the REASON of the first failing check with, for REASON 1, the dimension. -/
def recReason (r : Vec) : Option (Nat × Nat) :=
  let nd := recNdim r
  let z := recZ r
  let used := (List.range 4).filter (· ≤ nd)
  let unused := (List.range 4).filter (nd < ·)
  match used.find? fun k => recE r k == 0 with
  | some k => some (1, k)
  | none =>
    if recBase r % z ≠ 0 || (used ++ unused).any (fun k => recT r k % z != 0)
        || (recBlk r && (recSbase r % 2 ≠ 0 || recSstride r % 2 ≠ 0)) then some (2, 0)
    else if recWrite r && !dimsApart z 0 (recDims r) then some (3, 0)
    else if recField r 0 31 19 ≠ 0 || recField r 0 36 36 ≠ 0 || recField r 0 39 37 ≠ 0 || recField r 0 63 44 ≠ 0
        || recField r 5 31 19 ≠ 0 || recField r 6 63 1 ≠ 0 || recField r 7 63 0 ≠ 0
        || unused.any (fun k => recERaw r k != 0 || recT r k != 0) || 2 ^ 32 ≤ recN r then some (4, 0)
    else if recShuf r && (recWrite r || z ≠ 1 || recE r 0 % 64 ≠ 0 || recT r 0 ≠ 1) then some (5, 0)
    else if (recBlk r && recFmt r < 13) || (!recBlk r && 13 ≤ recFmt r)
        || (!recBlk r && (recSbase r ≠ 0 || recSstride r ≠ 0)) then some (6, 0)
    else none

/-- TVAL of SHAPE_FAULT (R220). -/
def shapeTval (reason stream dim : Nat) : Nat := reason + stream * 16 + dim * 256

/-! ### Streams as operands -/

/-- The checks of a naming (R221), in their order. -/
def streamFault (st : Stream) (n : Nat) (write : Bool) (z : Nat) : Option (Cause × Nat) :=
  if !st.valid then some (.shapeFault, shapeTval 9 n 0)
  else if recWrite st.record != write then some (.shapeFault, shapeTval 8 n 0)
  else if recZ st.record != z then some (.shapeFault, shapeTval 7 n 0)
  else if st.pos = recN st.record then some (.streamExhausted, n + st.pos * 2 ^ 32)
  else none

/-- The addresses of the group of `g` elements at POS; absent elements have none (R221). -/
def streamGroup (st : Stream) (g : Nat) : List (Option Nat) :=
  (List.range g).map fun i => if st.pos + i < recN st.record then some (recAddr st.record (st.pos + i)) else none

/-- POS after a group of `g` (R221). -/
def streamNext (st : Stream) (g : Nat) : Nat := min (st.pos + g) (recN st.record)

/-- The value of `n` bytes at `a` in the node view; zero when out of range (R210). -/
def Tile.spRead (t : Tile) (a n : Nat) : Nat := if t.ct.spOutRange a n then 0 else t.spNat a n

/-- The bytes that in-range accesses of `n` bytes touch. -/
def Tile.spReached (t : Tile) (as : List Nat) (n : Nat) : List Nat :=
  (as.filter fun a => !t.ct.spOutRange a n).flatMap fun a => (List.range n).map (a + ·)

/-- The first access out of range, recorded (R210, R211). -/
def Tile.spNote (t : Tile) (as : List Nat) (n : Nat) : Tile :=
  match as.find? fun a => t.ct.spOutRange a n with
  | none => t
  | some a => t.outOfRange false a

/-- Read accesses that reach the array in this cycle: banks, race records, storage checks (R201, R213, R269). -/
def Tile.spUseNow (t : Tile) (as : List Nat) (n slot : Nat) : Tile :=
  let reach := t.spReached as n
  ((((t.spNote as n).bookSp t.c reach false false slot).spRaceMark reach t.ct.cx.phaseNum false).spCheck reach slot t.c t.ct.sq.pc)

/-- The race that reading these elements now would raise (R213). -/
def Tile.spRaceNow (t : Tile) (as : List Nat) (n : Nat) : Option (Cause × Nat) :=
  (t.spRace (t.spReached as n) t.ct.cx.phaseNum false).map fun v => (.race, v)

/-! ### Vector operands -/

/-- The stream that a V-slot operand field of 32-47 names (R34). -/
def streamOf (f : BitVec 6) : Option (BitVec 4) := if 32 ≤ f.toNat && f.toNat < 48 then some (f.setWidth 4) else none

/-- The value of a vector operand: a register, or the stream's group of `g` elements of `z` bytes (R34, R221). -/
def Tile.vRead (t : Tile) (f : BitVec 6) (z g : Nat) : Vec :=
  match streamOf f with
  | none => t.v f
  | some n =>
    ofLanes (8 * z) ((streamGroup (t.ct.cx.rdA n) g).map fun a => match a with
      | some a => t.spRead a z
      | none => 0)

/-- The faults of reading a vector operand (R112, R221). -/
def Tile.vReadFault (t : Tile) (f : BitVec 6) (z : Nat) : Option (Cause × Nat) :=
  match streamOf f with
  | none => none
  | some n => streamFault (t.ct.cx.rdA n) n.toNat false z

/-- The race of reading a vector operand now (R222, R213). -/
def Tile.vReadRace (t : Tile) (f : BitVec 6) (z g : Nat) : Option (Cause × Nat) :=
  match streamOf f with
  | none => none
  | some n => t.spRaceNow ((streamGroup (t.ct.cx.rdA n) g).filterMap id) z

/-- What reading a vector operand does beside giving its value: the stream advances at commit (R111, R221). -/
def Tile.vReadUse (t : Tile) (f : BitVec 6) (z g slot : Nat) : Tile :=
  match streamOf f with
  | none => t
  | some n =>
    let st := t.ct.cx.rdA n
    (t.spUseNow ((streamGroup st g).filterMap id) z slot).later (.stream n (streamNext st g))

/-- The faults of writing a vector operand (R112, R221). -/
def Tile.vWriteFault (t : Tile) (f : BitVec 6) (z : Nat) : Option (Cause × Nat) :=
  match streamOf f with
  | none => none
  | some n => streamFault (t.ct.cx.rdA n) n.toNat true z

/-- Land the flags of an op that writes no register. -/
def Tile.landFlags (t : Tile) (fl lat slot : Nat) : Tile := if fl = 0 then t else t.land (.s 0) 0 0 fl lat slot

/-- Stores of values at addresses, landing at c + lat; those out of range are dropped (R202, R210). -/
def Tile.spStore (t : Tile) (as : List (Nat × Nat)) (n lat slot : Nat) : Tile :=
  let ok := as.filter fun a => !t.ct.spOutRange a.1 n
  let cells := ok.flatMap fun a => cellsAt a.1 (bytesOf n a.2)
  let t := t.spNote (as.map (·.1)) n
  if ok.isEmpty then t
  else (t.bookSp (t.c + lat) (cells.map (·.1)) true false slot).pending (t.c + lat) slot (.spWrite cells)

/-- Write a vector result at c + lat: a register with the active lanes' byte enables, or the active elements of a write
stream's group (R36, R111). -/
def Tile.vWrite (t : Tile) (f : BitVec 6) (z g : Nat) (v : Vec) (active : Nat → Bool) (fl lat slot : Nat) : Tile :=
  match streamOf f with
  | none => t.land (.v (t.ct.cx.phys (f.setWidth 5))) v (laneBytes z active) fl lat slot
  | some n =>
    let st := t.ct.cx.rdA n
    let els := (streamGroup st g).zipIdx.filterMap fun e =>
      match e.1 with
      | some a => if active e.2 then some (a, lane (8 * z) e.2 v) else none
      | none => none
    ((t.spStore els z lat slot).landFlags fl lat slot).later (.stream n (streamNext st g))

/-- The first fault of a list. -/
def firstFault (l : List (Option (Cause × Nat))) : Option (Cause × Nat) := l.findSome? id

/-- A meaning that takes the first fault of its list, and otherwise does `f`. -/
def checked (faults : State → List (Option (Cause × Nat))) (slot : Nat) (f : State → Out) (s : State) : Out :=
  match firstFault (faults s) with
  | some (c, v) => trapOut c v slot s
  | none => f s

end Sys2Proof.Machine
end

