-- ==== Sys2Proof/Machine/Flags.lean ====
section
/-!
DEFINITION. The exception flags of results and the arithmetic traps they raise (03 R92, R93; 06 R171).
-/
namespace Sys2Proof.Machine

/-- TRAPEN of the context in focus. -/
def Tile.trapen (t : Tile) : Nat := t.ct.cx.trapen.toNat

/-- FMODE.RM. -/
def Tile.fmode (t : Tile) : Nat := bits t.ct.cx.fmode.toNat 1 0

/-- DMODE.RM. -/
def Tile.dmode (t : Tile) : Nat := bits t.ct.cx.dmode.toNat 2 0

/-- A result whose lanes raised the flags given (in the layout of XFLAGS): an enabled exception traps, detected in the cycle
in which the result would land, and otherwise `f` lands it with the flags' union (R92, R93, R255). -/
def Tile.arith (t : Tile) (lanes : List Nat) (lat slot : Nat) (f : Tile → Nat → Tile) : Tile :=
  match arithTrap t.trapen lanes with
  | some (c, v) => t.raiseAt c v slot (t.c + lat)
  | none => f t (lanes.foldl (· ||| ·) 0)

/-- A scalar floating result with its flags: landed, or trapped with LANE = 0 (R177). -/
def Tile.landArith (t : Tile) (d : BitVec 6) (v : Word) (fl lat : Nat) : Tile :=
  t.arith [fl] lat 0 fun t fl => t.land (.s d) (v.setWidth 512) 0xFF fl lat 0

/-- A floating compare into a q bit (R178). -/
def Tile.landCond (t : Tile) (d : BitVec 3) (r : Bool) (fl lat : Nat) : Tile :=
  t.arith [fl] lat 0 fun t fl => t.land (.q d) (if r then 1 else 0) 1 fl lat 0

end Sys2Proof.Machine
end

