-- ==== Sys2Proof/Machine/Csr.lean ====
section
/-!
DEFINITION. The CSR map (06 R191-R198): reads, the checks of a write, the effect of a write, and the commit of what a
bundle's ops changed.
-/
namespace Sys2Proof.Machine

/-- CSR numbers (R192). -/
def csrFmode : Nat := 0x010
def csrDmode : Nat := 0x011
def csrTrapen : Nat := 0x012
def csrXflags : Nat := 0x013
def csrTpc : Nat := 0x021
def csrOobflag : Nat := 0x042
def csrCimcfg : Nat := 0x050
def csrAccmode : Nat := 0x051
def csrPipkeylo : Nat := 0x060
def csrPipkeyhi : Nat := 0x061
def csrPiptag : Nat := 0x062
def csrPipmemb : Nat := 0x063
def csrDqbase : Nat := 0x070
def csrDqcap : Nat := 0x071
def csrRotb : Nat := 0x081
def csrFinj : Nat := 0x0F0

/-- The quad of the tile as the machine keeps it: index in `quads` (R305). -/
def Tile.quadIndex (t : Tile) : Nat := t.ltid / 4

/-- What a quad holds beside its tiles; a fresh one unless listed. -/
def State.quad (s : State) (q : Nat) : Quad := ((s.quads.find? fun e => e.1 == q).map (·.2)).getD {}

/-- Change what a quad holds. -/
def State.setQuad (s : State) (q : Nat) (x : Quad) : State :=
  { s with quads := (q, x) :: s.quads.filter fun e => e.1 != q }

/-- WCYC as the tile's quad copy stands (R305). -/
def State.wcycAt (s : State) (t : Tile) : Nat := ofInt 64 (s.wcyc + (s.quad t.quadIndex).wskew)

/-- TICK as the tile's quad copy stands (R194, R414). -/
def State.tickAt (s : State) (t : Tile) : Nat := ofInt 64 (s.tick + (s.quad t.quadIndex).tickSkew)

/-- The DCYC copy of a partition in a quad, as its offset from the correct count (R306). -/
def Quad.skewOf (q : Quad) (pid : Nat) : Int := ((q.dskews.find? fun e => e.1 == pid).map (·.2)).getD 0

/-- Set that offset. -/
def Quad.setSkew (q : Quad) (pid : Nat) (v : Int) : Quad :=
  { q with dskews := (if v = 0 then [] else [(pid, v)]) ++ q.dskews.filter (·.1 != pid) }

/-- DCYC as the copy of the tile's quad and context slot stands (R188, R306). -/
def State.dcycAt (s : State) (t : Tile) : Nat := ofInt 64 (t.c + (s.quad t.quadIndex).skewOf t.ct.pid)

/-- The value of a CSR as it stands; none for a number absent from the map (R191, R192). -/
def State.readCsr (s : State) (n : Nat) : Option Word :=
  let t := s.tile
  let x := t.ct.cx
  match n with
  | 0x000 => some x.tileid
  | 0x001 => some x.groupid
  | 0x002 => some x.nodeinst
  | 0x003 => some x.partid
  | 0x004 => some x.groupsize
  | 0x010 => some x.fmode
  | 0x011 => some x.dmode
  | 0x012 => some x.trapen
  | 0x013 => some x.xflags
  | 0x020 => some x.tcause
  | 0x021 => some x.tpc
  | 0x022 => some x.tcyc
  | 0x023 => some x.tval
  | 0x024 => some x.tslot
  | 0x030 => some (BitVec.ofNat 64 (s.dcycAt t))
  | 0x031 => some (BitVec.ofNat 64 (s.wcycAt t))
  | 0x032 => some (BitVec.ofNat 64 (s.tickAt t))
  | 0x040 => some x.phase
  | 0x041 => some x.oobaddr
  | 0x042 => some x.oobflag
  | 0x043 => some x.memcfg
  | 0x050 => some x.cimcfg
  | 0x051 => some x.accmode
  | 0x060 => some x.pipkeylo
  | 0x061 => some x.pipkeyhi
  | 0x062 => some x.piptag
  | 0x063 => some x.pipmemb
  | 0x070 => some x.dqbase
  | 0x071 => some x.dqcap
  | 0x080 => some (BitVec.ofNat 64 t.ct.sq.rets.length)
  | 0x081 => some (x.rotb.setWidth 64)
  | 0x090 => some t.ct.digest
  | 0x0F0 => some t.ct.finj
  | _ => none

/-- Bits a CSRW may set, for the CSRs that take one (R91, R192, R233, R240). -/
def csrWritable (n : Nat) : Option Nat :=
  match n with
  | 0x010 => some 0x3
  | 0x011 => some 0x7
  | 0x012 => some 0x33F1F
  | 0x013 => some 0x3F1F
  | 0x021 => some 0x1FFFC
  | 0x042 => some 0x3
  | 0x050 => some 0x1F7FFF
  | 0x051 => some 0x7F
  | 0x060 => some (2 ^ 64 - 1)
  | 0x061 => some (2 ^ 64 - 1)
  | 0x062 => some (2 ^ 32 - 1)
  | 0x063 => some (2 ^ 16 - 1)
  | 0x070 => some 0x7FFE0
  | 0x071 => some 0x3FFF_FFFF_FFF1_3FFF
  | 0x081 => some 0x7
  | 0x0F0 => some 0x7_FFFF_7FFF_FFFF
  | _ => none

/-- Fields of DQCAP (R129). -/
def dqCap (x : Nat) : Nat := bits x 13 0
def dqWide (x : Nat) : Bool := bit x 16
def dqHead (x : Nat) : Nat := bits x 33 20
def dqCount (x : Nat) : Nat := bits x 47 34
def dqHeld (x : Nat) : Nat := bits x 61 48

/-- DQCAP from its fields. -/
def dqMake (cap : Nat) (wide : Bool) (head count held : Nat) : Word :=
  BitVec.ofNat 64 (cap + (if wide then 2 ^ 16 else 0) + head * 2 ^ 20 + count * 2 ^ 34 + held * 2 ^ 48)

/-- Fields of FINJ (R197). -/
def finjUnit (v : Nat) : Nat := bits v 2 0
def finjXreg (v : Nat) : Nat := bits v 5 3
def finjIndex (v : Nat) : Nat := bits v 14 6
def finjBit (v : Nat) : Nat := bits v 20 15
def finjAfter (v : Nat) : Nat := bits v 30 21
def finjAddr (v : Nat) : Nat := bits v 50 32

/-- The FINJ limits checked at the CSRW (R197). -/
def Context.finjOk (k : Context) (v : Nat) : Bool :=
  bit k.cx.partid.toNat 10 &&
  (match finjUnit v with
    | 0 => true
    | 1 => finjAfter v != 0 && finjIndex v ≤ 288
    | 2 | 3 => finjAfter v != 0 && finjAddr v % 8 == 0 && finjAddr v < k.ssize * 1024
    | 4 => finjAfter v != 0 && 1 ≤ finjIndex v && finjIndex v ≤ 63
    | _ => false)

/-- The limits of a written value beyond its reserved bits (R91, R130, R197, R233, R253). -/
def Tile.csrValueOk (t : Tile) (n v : Nat) : Bool :=
  let k := t.ct
  let x := k.cx
  match n with
  | 0x011 => v ≤ 4
  | 0x021 => t.inHandler && v < k.codeEnd
  | 0x050 => bits v 11 7 ≤ 16 && bits v 13 12 != 3 && (bits v 6 0 + 8 * bits v 11 7) * 3072 ≤ k.ssize * 1024
  | 0x070 => v + 32 * dqCap x.dqcap.toNat ≤ k.ssize * 1024
  | 0x071 =>
    dqCap v ≤ 12288 && (if dqCap v = 0 then dqHead v == 0 else dqHead v < dqCap v) &&
      dqCount v + dqHeld v ≤ dqCap v && x.dqbase.toNat + 32 * dqCap v ≤ k.ssize * 1024
  | 0x0F0 => k.finjOk v
  | _ => true

/-- The TVAL of a value that a CSRW may not write: the written value where the CSR's own rule says so (R91, R130); the number
for a reserved bit or code and for the limits of R233 (R191, DEDUCED, log 33); else no rule lays it out (DESIGN CHOICE, log 7). -/
def Tile.csrTval (t : Tile) (n v : Nat) (reserved : Bool) : Nat :=
  if (0x010 ≤ n && n ≤ 0x013) || n == 0x070 || n == 0x071 then v
  else if reserved || n == 0x050 then n
  else t.freeTval

/-- Does a value set a bit outside `m`? -/
def setsOutside (m v : Nat) : Bool := BitVec.ofNat 64 v &&& ~~~(BitVec.ofNat 64 m) != 0

/-- Does a value set a reserved bit or a reserved code of a CSR whose fields lie in `m` (R191, R197, R233, R253)? -/
def csrReserved (n m v : Nat) : Bool :=
  setsOutside (if n = 0x021 then 0x1FFFF else m) v || (n == 0x050 && bits v 13 12 == 3) || (n == 0x0F0 && 5 ≤ finjUnit v)

/-- Does a CSRW of `v` raise ILLEGAL_OP (R191)? The TVAL it takes. -/
def Tile.csrWriteFault (t : Tile) (n v : Nat) : Option Nat :=
  match csrWritable n with
  | none => some n
  | some m =>
    if setsOutside m v || !t.csrValueOk n v then some (t.csrTval n v (csrReserved n m v)) else none

/-- FINJ has fired: UNIT clears (R198). -/
def Context.finjFired (k : Context) : Context :=
  { k with finj := k.finj &&& ~~~7, finjDue := 0, finjGone := k.finjBy.1 :: k.finjGone }

/-- The injection that the last CSRW replaced has fired in the cycle in which that write takes effect (R198). -/
def Context.finjOldFired (k : Context) : Context := { k with finjPrev := none, finjGone := k.finjBy.2 :: k.finjGone }

/-- FINJ is written (R197, R198): armed from this cycle, or disarmed. A write whose injection fired in an earlier attempt of the node
leaves UNIT 0 (R198; DEDUCED, log 68). -/
def Tile.writeFinj (t : Tile) (v : Word) : Tile :=
  let n := t.ct.finjSeen + 1
  let gone := t.ct.finjGone.contains n
  { t with ct := { t.ct with
    finj := if gone then v &&& ~~~7 else v
    finjPrev := some (t.c + 1, t.ct.finj, t.ct.finjDue)
    finjDue := if gone then 0 else if finjUnit v.toNat = 1 then finjAfter v.toNat else t.c + finjAfter v.toNat
    finjSeen := n, finjBy := (n, t.ct.finjBy.1) } }

/-- W1C write of XFLAGS: flags raised in this same cycle stay set (R92). -/
def Context.clearFlags (k : Context) (v : Word) : Context :=
  let keep : Word := if k.flAt = k.now then k.flSet.setWidth 64 else 0
  { k with cx := { k.cx with xflags := k.cx.xflags &&& ~~~(v &&& ~~~keep) } }

/-- W1C write of OOBFLAG: an access out of range in this same cycle leaves FLAG set, with its address (R210). -/
def Context.clearOob (k : Context) (v : Word) : Context :=
  if !v.getLsbD 0 then k
  else
    match k.oor with
    | some (c, vault, a) =>
      if c = k.now && !k.cx.guardMode then
        { k with cx := { k.cx with oobaddr := BitVec.ofNat 64 (a % 2 ^ 48), oobflag := if vault then 3 else 1 } }
      else { k with cx := { k.cx with oobflag := k.cx.oobflag &&& ~~~1 } }
    | none => { k with cx := { k.cx with oobflag := k.cx.oobflag &&& ~~~1 } }

/-- The effect of a CSR write that passed its checks (R191). -/
def Tile.writeCsr (t : Tile) (n : Nat) (v : Word) : Tile :=
  match n with
  | 0x010 => t.onCx ({ · with fmode := v })
  | 0x011 => t.onCx ({ · with dmode := v })
  | 0x012 => t.onCx ({ · with trapen := v })
  | 0x013 => { t with ct := t.ct.clearFlags v }
  | 0x021 => t.onCx ({ · with tpc := v })
  | 0x042 => { t with ct := t.ct.clearOob v }
  | 0x050 => t.onCx ({ · with cimcfg := v })
  | 0x051 => t.onCx ({ · with accmode := v })
  | 0x060 => t.onCx ({ · with pipkeylo := v })
  | 0x061 => t.onCx ({ · with pipkeyhi := v })
  | 0x062 => t.onCx ({ · with piptag := v })
  | 0x063 => t.onCx ({ · with pipmemb := v })
  | 0x070 => t.onCx ({ · with dqbase := v })
  | 0x071 => t.onCx ({ · with dqcap := v })
  | 0x081 => t.onCx ({ · with rotb := v.setWidth 3 })
  | 0x0F0 => t.writeFinj v
  | _ => t

/-- VDEFER's and VDRAIN's update of DQCAP (R132, R133). -/
def dqUpdate (w : Word) (push pull : Nat) : Word :=
  let x := w.toNat
  dqMake (dqCap x) (dqWide x) (if dqCap x = 0 then dqHead x else (dqHead x + pull) % dqCap x)
    (dqCount x + push - pull) (dqHeld x + pull)

/-- The number a CSRW among the changes of a bundle writes. -/
def Post.writes (n : Nat) : Post → Bool
  | .csr m _ => m.toNat == n
  | _ => false

/-- PIPMEMB + n (R233). -/
def pipmembNext (v : Word) (n : Nat) : Word := BitVec.ofNat 64 ((v.toNat + n) % 2 ^ 16)

/-- VDEFER or VDRAIN beside a CSRW of DQCAP: the update waits a cycle, with what waits already (R17). -/
def Context.holdDq (k : Context) (push pull : Nat) : Context :=
  let o := (k.dqLate.map (·.2)).getD (0, 0)
  { k with dqLate := some (k.now + 1, o.1 + push, o.2 + pull) }

/-- MINC beside a CSRW of PIPMEMB: the same (R17, R237). -/
def Context.holdMinc (k : Context) : Context := { k with mincLate := some (k.now + 1, (k.mincLate.map (·.2)).getD 0 + 1) }

/-- A program write of DQCAP or PIPMEMB puts off the updates that wait for this cycle (R17). -/
def Context.putOff (k : Context) (dqw pmw : Bool) : Context :=
  { k with
    dqLate := if dqw then k.dqLate.map fun e => (k.now + 1, e.2) else k.dqLate
    mincLate := if pmw then k.mincLate.map fun e => (k.now + 1, e.2) else k.mincLate }

/-- One change of a committing bundle. `dqw`, `pmw`: the bundle writes DQCAP or PIPMEMB, so the hardware update waits a
cycle (R17). -/
def Tile.commit1 (dqw pmw : Bool) (t : Tile) (p : Post) : Tile :=
  match p with
  | .minc =>
    if pmw then { t with ct := t.ct.holdMinc } else t.onCx fun x => { x with pipmemb := pipmembNext x.pipmemb 1 }
  | .csr n v => t.writeCsr n.toNat v
  | .pipmemb v => t.onCx ({ · with pipmemb := v })
  | .rotZero => t.onCx ({ · with rotb := 0 })
  | .phase sc => t.onCx fun x => { x with
      phase := BitVec.ofNat 64 ((x.phaseNum + 1) % 4096 + sc * 2 ^ 12 + x.bph * 2 ^ 16) }
  | .stream n pos => t.onCx fun x => { x with a := x.a.set n.toNat { x.rdA n with pos := pos } (n.isLt) }
  | .srst n => t.onCx fun x => { x with a := x.a.set n.toNat { x.rdA n with pos := 0 } (n.isLt) }
  | .dqPush n =>
    if dqw then { t with ct := t.ct.holdDq n 0 }
    else t.onCx fun x => { x with dqcap := dqUpdate x.dqcap n 0 }
  | .dqPull n =>
    if dqw then { t with ct := t.ct.holdDq 0 n }
    else t.onCx fun x => { x with dqcap := dqUpdate x.dqcap 0 n }

/-- Does a change write PIPMEMB from the program, by CSRW or PIPM (R191, R244)? -/
def Post.writesMemb : Post → Bool
  | .pipmemb _ => true
  | p => p.writes csrPipmemb

/-- Does a change reset a stream? It replaces the position that a naming of the bundle leaves (R225). -/
def Post.isReset : Post → Bool
  | .srst _ => true
  | _ => false

/-- The commit of a bundle (R31, R111, R191). -/
def Tile.commit (t : Tile) : Tile :=
  let dqw := t.post.any (·.writes csrDqcap)
  let pmw := t.post.any (·.writes csrPipmemb)
  let ps := t.post.filter (!·.isReset) ++ t.post.filter (·.isReset)
  ps.foldl (Tile.commit1 dqw pmw) { t with post := [], ct := t.ct.putOff dqw (t.post.any Post.writesMemb) }

/-- Two writes to one CSR field in one bundle: PIPM beside a CSRW of PIPMEMB (R17, R244). -/
def Tile.csrClash (t : Tile) : Option Nat :=
  let pip := t.post.any fun p => match p with
    | .pipmemb _ => true
    | _ => false
  let csr := t.post.any (·.writes csrPipmemb)
  if pip && csr then some (0b1110 * 2 ^ 60 + csrPipmemb) else none

end Sys2Proof.Machine
end

