-- ==== Sys2Proof/Machine/MemoryOps.lean ====
section
/-!
DEFINITION. Loads and stores of the scratchpad (07 R214-R217).
-/
namespace Sys2Proof.Machine

/-- ALIGNMENT (R214). -/
def alignFault (ea n : Nat) : Option (Cause × Nat) := if ea % n = 0 then none else some (.alignment, ea)

/-- Bytes of the accesses of `n` bytes at these addresses; an access out of range reads zero (R210). -/
def Tile.spSources (t : Tile) (as : List Nat) (n : Nat) : List (Option Nat) :=
  as.flatMap fun a => if t.ct.spOutRange a n then List.replicate n none else (List.range n).map fun i => some (a + i)

/-- Byte enables of a whole destination (R40). -/
def Dest.fullBe : Dest → Word
  | .v _ => BitVec.allOnes 64
  | _ => 0xFF

/-- A load landing at c+3, read then (R215-R217). -/
def Tile.spLoad (t : Tile) (d : Dest) (as : List Nat) (n : Nat) (sx : Option Nat) : Tile :=
  let src : Src := .read .sp (t.spSources as n) sx
  ((t.spNote as n).bookSp (t.c + 3) (t.spReached as n) false false 2).addResult d (t.c + 3) (t.c + 3) src d.fullBe 0 2

/-- The vector register an MM or CH field names, renamed (R156). -/
def Tile.vDest (t : Tile) (f : BitVec 6) : Dest := .v (t.ct.cx.phys (f.setWidth 5))

/-- LD (R215). -/
def execLd (o : MM) (x : Ext) (s : State) : Out :=
  let n := accessSize o.ty
  let ea := s.tile.ea o x n
  checked (fun _ => [alignFault ea n]) 2 (onTile (·.spLoad (.s o.t) [ea] n (accessSext o.ty))) s

/-- ST (R215). -/
def execSt (o : MM) (x : Ext) (s : State) : Out :=
  let n := accessSize o.ty
  let ea := s.tile.ea o x n
  checked (fun _ => [alignFault ea n]) 2 (onTile fun t => t.spStore [(ea, t.sN o.t)] n 3 2) s

/-- The words of a vector access: its lanes are judged one by one, and no bound of R209 lies within a word. -/
def vectorWords (ea : Nat) : List Nat := (List.range 8).map fun i => ea + 8 * i

/-- VLD (R216). -/
def execVld (o : MM) (x : Ext) (s : State) : Out :=
  let ea := s.tile.ea o x 64
  checked (fun _ => [alignFault ea 64]) 2 (onTile fun t => t.spLoad (t.vDest o.t) (vectorWords ea) 8 none) s

/-- VST (R216). -/
def execVst (o : MM) (x : Ext) (s : State) : Out :=
  let ea := s.tile.ea o x 64
  checked (fun _ => [alignFault ea 64]) 2 (onTile fun t => t.spStore ((vectorWords ea).zip (lanes 64 (t.v o.t))) 8 3 2) s

/-- The lane addresses of VGATHER and VSCATTER (R217), for elements of `z` bytes. -/
def Tile.gatherAddrs (t : Tile) (o : MM) (z : Nat) : List Nat :=
  (lanes (8 * z) (t.v (o.off.setWidth 6))).map fun i => (t.sN o.base + i * z) % 2 ^ 64

/-- The lowest lane whose address is misaligned. -/
def gatherFault (as : List Nat) (z : Nat) : Option (Cause × Nat) :=
  (as.find? fun a => a % z != 0).map fun a => (.alignment, a)

/-- VGATHER (R217). -/
def execVgather (o : MM) (s : State) : Out :=
  let z := accessSize o.ty
  let as := s.tile.gatherAddrs o z
  checked (fun _ => [gatherFault as z]) 2 (onTile fun t => t.spLoad (t.vDest o.t) as z none) s

/-- VSCATTER (R217): of lanes that write the same bytes the highest-numbered gives the value. -/
def execVscatter (o : MM) (s : State) : Out :=
  let z := accessSize o.ty
  let as := s.tile.gatherAddrs o z
  checked (fun _ => [gatherFault as z]) 2 (onTile fun t =>
    t.spStore (as.zip (lanes (8 * z) (t.v o.t))) z 3 2) s

end Sys2Proof.Machine
end

