-- ==== Sys2Proof/Machine/Vault.lean ====
section
/-!
DEFINITION. Vault and commons accesses (10 R283-R292; 13 R364): where an address leads, the requests to commons banks, and
LDV, STV, VLDV and VSTV.
-/
namespace Sys2Proof.Machine

/-- Where a vault address leads (R284, R285, R364). -/
inductive VPlace where
  | out
  | share
  | commons (cid : Nat)
  /-- a publish-index register -/
  | index (cid : Nat)
  deriving DecidableEq, Repr

/-- Bytes of a commons bank (R289). -/
def bankBytes : Nat := 131072

/-- First byte of the publish-index registers (R364). -/
def indexBase : Nat := 0xFFFF00

/-- COM of a vault address (R284). -/
def isCom (ea : Nat) : Bool := bit ea 37

/-- Commons id and BYTE of a commons address (R284). -/
def comId (ea : Nat) : Nat := bits ea 31 24
def vByteOf (ea : Nat) : Nat := ea % 2 ^ 24

/-- A commons. -/
def State.common? (s : State) (cid : Nat) : Option Commons := s.commons.find? fun c => c.cid == cid

/-- Change a commons. -/
def State.onCommons (s : State) (cid : Nat) (f : Commons → Commons) : State :=
  { s with commons := updWhere (fun c => c.cid == cid) f s.commons }

/-- Does the partition hold slots of it (R342)? -/
def Commons.granted (c : Commons) (pid : Nat) : Bool := c.cal.any fun e => e.2.2 == pid

/-- Is some byte of the access in storage reserved for a region (R205, R285)? In a commons only guard granules are. -/
def Context.vReserved (k : Context) (ea n : Nat) : Bool :=
  (List.range n).any fun i => k.regions.any fun r =>
    if isCom ea then regionGuards r 1 k.cx.guards (ea + i) else regionReserves r 1 k.cx.guards (ea + i)

/-- Where the `n` bytes at `ea` lie for the tile in focus. -/
def State.vPlace (s : State) (ea n : Nat) : VPlace :=
  match s.myJob with
  | none => .out
  | some j =>
    let k := s.tile.ct
    if 2 ^ 38 ≤ ea || k.vReserved ea n then .out
    else if isCom ea then
      if bits ea 36 32 ≠ 0 then .out
      else
        match s.common? (comId ea) with
        | none => .out
        | some c =>
          if !c.granted k.pid then .out
          else if indexBase ≤ vByteOf ea then .index c.cid
          else if c.banks * bankBytes < vByteOf ea + n then .out
          else .commons c.cid
    else if (vQuad ea).1 < j.width && (vQuad ea).2 < j.height && vByteOf ea + n ≤ j.vshare then .share
    else .out

/-- Hops from the tile in focus to a vault address of its partition (R286). -/
def State.vHops (s : State) (ea : Nat) : Nat :=
  match s.myJob with
  | none => 0
  | some j => hops (s.tile.relQuad j) ea

/-- LCOM (R291). -/
def lcom : Nat := 534

/-- Cycles after issue at which an out-of-range vault access completes (R285). -/
def vOutDelay (ea : Nat) : Nat := if isCom ea then lcom else 10

/-- The group tag under which a tile's staged vault and DRAM lines are kept (R206). -/
def Tile.vTag (t : Tile) : Nat := t.ct.strand.getD 0

/-! ### Commons requests -/

/-- The next granted slot that begins at or after `w` (R290, R291): its first WCYC cycle. -/
def Commons.slotFrom (c : Commons) (pid bank w : Nat) : Option Nat :=
  let k := (w + 3) / 4
  ((List.range 64).find? fun i => c.cal.contains (bank, (k + i) % 64, pid)).map fun i => 4 * (k + i)

/-- The next granted slot from `w` on that no request of the partition to the bank has taken (R291, R372). -/
def Commons.freeSlot (c : Commons) (pid bank : Nat) : Nat → Nat → Option Nat
  | 0, _ => none
  | n + 1, w =>
    match c.slotFrom pid bank w with
    | some a => if c.queue.any fun r => r.pid == pid && r.bank == bank && r.slotAt == some a then c.freeSlot pid bank n (a + 4) else some a
    | none => none

/-- The slot that a request takes (R291): those of earlier requests of the partition to the bank come first. A decrement comes after none
(R372). -/
def Commons.takeSlot (c : Commons) (r : CReq) : Option Nat :=
  let earlier (q : CReq) : Bool := r.kind != 5 && q.kind != 5 && q.pid == r.pid && q.bank == r.bank
  let last := (c.queue.filter earlier).foldl (fun m q => max m ((q.slotAt.map (· + 4)).getD 0)) 0
  c.freeSlot r.pid r.bank (c.queue.length + 1) (max r.arrive last)

/-- A request enters its bank's queue: in the order of issue DCYC, then GRANK, so that those of this cycle from tiles of higher GRANK come
after it (R291). -/
def Commons.enter (c : Commons) (r : CReq) : Commons :=
  let after (q : CReq) : Bool :=
    q.kind != 5 && r.kind != 5 && q.pid == r.pid && q.bank == r.bank && q.issue == r.issue && r.grank < q.grank && !q.served
  ([r] ++ c.queue.filter after).foldl (fun c q => { c with queue := c.queue ++ [{ q with slotAt := c.takeSlot q }] })
    { c with queue := c.queue.filter (!after ·) }

/-- A request of the tile in focus to a commons bank (R291). -/
def State.request (s : State) (cid : Nat) (r : CReq) : State :=
  s.onCommons cid (·.enter { r with arrive := s.wcyc + min 278 (Config.commonsTrip s.tile.ltid cid) })

/-- What every request of the tile in focus carries. -/
def Tile.creq (t : Tile) (ea kind n : Nat) : CReq :=
  { pid := t.ct.pid, ltid := t.ltid, id := t.uid, bank := if indexBase ≤ vByteOf ea then 0 else vByteOf ea / bankBytes
    byte := vByteOf ea, kind := kind, bytes := [], n := n, slotAt := none, issue := t.c, addr := t.ct.sq.pc
    bph := t.ct.cx.bph, grank := t.grank }

/-! ### Loads and stores (R288) -/

/-- ALIGNMENT of a vault access (R288). -/
def vAlignFault (ea n : Nat) : Option (Cause × Nat) := if vByteOf ea % n = 0 then none else some (.alignment, ea)

/-- A vault load. -/
def vaultLoad (d : Dest) (ea n : Nat) (sx : Option Nat) (s : State) : Out :=
  let t := s.tile
  let wait (t : Tile) (lat : Nat) : Tile := t.addResult d (t.c + lat) (t.c + lat) .wait d.fullBe 0 2
  let com (cid : Nat) : Out :=
    let r := { t.creq ea 0 n with x := BitVec.ofNat 64 (sx.getD 0) }
    .next { s.request cid r with tile := wait t lcom }
  match s.vPlace ea n with
  | .out => onTile (fun t => (t.outOfRange true ea).land d 0 d.fullBe 0 (vOutDelay ea) 2) s
  | .share =>
    let lat := 10 + 2 * s.vHops ea
    onTile (fun t =>
      let id := t.uid
      ((wait t lat).bookVault (t.c + lat) ea false false 2).pending (t.c + lat) 2 (.vaultRead id ea n sx)) s
  | .commons cid => com cid
  | .index cid =>
    if n = 8 then com cid
    else onTile (fun t => (t.outOfRange true ea).land d 0 d.fullBe 0 (vOutDelay ea) 2) s

/-- A vault store. -/
def vaultStore (ea n v : Nat) (s : State) : Out :=
  let t := s.tile
  match s.vPlace ea n with
  | .share =>
    let lat := 10 + 2 * s.vHops ea
    onTile (fun t =>
      (t.bookVault (t.c + lat) ea true false 2).pending (t.c + lat) 2 (.vaultWrite (cellsAt ea (bytesOf n v)))) s
  | .commons cid => .next (s.request cid { t.creq ea 1 n with bytes := bytesOf n v })
  | _ => onTile (·.outOfRange true ea) s

/-- LDV (R288). -/
def execLdv (o : MM) (x : Ext) (s : State) : Out :=
  let n := accessSize o.ty
  let ea := s.tile.ea o x n
  checked (fun _ => [vAlignFault ea n]) 2 (vaultLoad (.s o.t) ea n (accessSext o.ty)) s

/-- STV (R288). -/
def execStv (o : MM) (x : Ext) (s : State) : Out :=
  let n := accessSize o.ty
  let ea := s.tile.ea o x n
  checked (fun _ => [vAlignFault ea n]) 2 (fun s => vaultStore ea n (s.tile.sN o.t) s) s

/-- VLDV (R288). -/
def execVldv (o : MM) (x : Ext) (s : State) : Out :=
  let ea := s.tile.ea o x 64
  checked (fun _ => [vAlignFault ea 64]) 2 (vaultLoad (s.tile.vDest o.t) ea 64 none) s

/-- VSTV (R288). -/
def execVstv (o : MM) (x : Ext) (s : State) : Out :=
  let ea := s.tile.ea o x 64
  checked (fun _ => [vAlignFault ea 64]) 2 (fun s => vaultStore ea 64 (s.tile.v o.t).toNat s) s

end Sys2Proof.Machine
end

