-- ==== Sys2Proof/Machine/Atomics.lean ====
section
/-!
DEFINITION. Read-modify-write windows (10 R294, R295; 13 R368), the effect log at issue (09 R259, R296), and the atomics
(10 R293).
-/
namespace Sys2Proof.Machine

/-- An op that holds a window: its space, address, width, log code and operands, the scalar that receives its value, the
effect at W, and the request it makes of a commons. -/
structure WinOp where
  vault : Bool
  ea : Nat
  n : Nat
  code : Nat
  operands : List Word
  dest : Option (BitVec 6)
  /-- EA where TRAPEN.BRK asks for BROKEN_OBJECT (R375) -/
  brk : Option Nat := none
  kind : Nat → MSpace → PendKind
  req : CReq → CReq

/-- Where a window lies. -/
inductive WPlace where
  | out
  | sp
  | share
  | commons (cid : Nat)
  deriving DecidableEq, Repr

/-- Where the window of an op lies. -/
def State.winPlace (s : State) (w : WinOp) : WPlace :=
  if w.vault then
    match s.vPlace w.ea w.n with
    | .share => .share
    | .commons cid => .commons cid
    | _ => .out
  else if s.tile.ct.spOutRange w.ea w.n then .out else .sp

/-- Cycles from issue to the landing of the value: V of R294, or R285 where it is out of range. -/
def State.winDelay (s : State) (w : WinOp) (p : WPlace) : Nat :=
  match p with
  | .out => if w.vault then vOutDelay w.ea else 4
  | .sp => 4
  | .share => 10 + 2 * s.vHops w.ea
  | .commons _ => lcom

/-- Land the value of a window under result number `id`. -/
def Tile.landWindow (t : Tile) (w : WinOp) (id lat : Nat) (v : Option Word) : Tile :=
  match w.dest with
  | none => t
  | some d =>
    let src : Src := match v with
      | some v => .val (v.setWidth 512)
      | none => .wait
    { t with
      uid := t.uid + 1
      ct := { t.ct with inflight := t.ct.inflight ++ [{
        id := id, dest := .s d, due := t.c + lat, rdAt := t.c + lat, src := src, be := 0xFF, fl := 0, issue := t.c, slot := 2
        addr := t.ct.sq.pc, phase := t.ct.cx.phaseNum, brk := w.brk }] } }

/-- The log entry of an outside effect. -/
def WinOp.entry (w : WinOp) (id : Nat) (v : Option Word) : LogEntry :=
  { code := w.code, addr := BitVec.ofNat 64 w.ea, operands := w.operands, value := v, offset := 0, id := id }

/-- The bank uses booked since use number `u` belong to one access. -/
def Tile.oneAccess (t : Tile) (u : Nat) : Tile :=
  let mine (b : BankUse) : Bool := b.issue == t.c && u ≤ b.owner
  { t with banks := updWhere mine (fun b => { b with owner := u }) t.banks }

/-- Hold the banks of a scratchpad window for its three cycles. -/
def Tile.bookWindow (t : Tile) (first ea n : Nat) : Tile :=
  let as := (List.range n).map (ea + ·)
  let u := t.uid
  let t := ((t.bookSp first as false true 2).bookSp (first + 1) as true true 2).bookSp (first + 2) as true true 2
  t.oneAccess u

/-- Hold the bank of a vault window for its three cycles. -/
def Tile.bookVaultWindow (t : Tile) (first ea : Nat) : Tile :=
  let u := t.uid
  let t := ((t.bookVault first ea false true 2).bookVault (first + 1) ea true true 2).bookVault (first + 2) ea true true 2
  t.oneAccess u

/-- Out of range: no bank, and the value zero (R285, R295). -/
def Tile.winOut (t : Tile) (w : WinOp) : Tile := t.outOfRange w.vault w.ea

/-- A scratchpad window that is sent: its result, its banks, and its read at W (R294). -/
def Tile.sendSp (t : Tile) (w : WinOp) (id lat : Nat) : Tile :=
  ((t.landWindow w id lat none).bookWindow (t.c + 1) w.ea w.n).pending (t.c + 1) 2 (w.kind id .sp)

/-- A vault window that is sent. -/
def Tile.sendVault (t : Tile) (w : WinOp) (id lat : Nat) : Tile :=
  ((t.landWindow w id lat none).bookVaultWindow (t.c + lat - 2) w.ea).pending (t.c + lat - 2) 2 (w.kind id .vault)

/-- A window op that is sent: the log gains its entry, and its window is booked (R259, R294). -/
def sendWindow (w : WinOp) (s : State) : Out :=
  let p := s.winPlace w
  let lat := s.winDelay w p
  let id := s.tile.uid
  let t := { s.tile with uid := id + 1 }
  let logged (t : Tile) (v : Option Word) : Tile := { t with ct := t.ct.logged (w.entry id v) }
  match p with
  | .out => .next { s with tile := (logged (t.winOut w) (some 0)).landWindow w id lat (some 0) }
  | .sp => .next { s with tile := (logged t none).sendSp w id lat }
  | .share => .next { s with tile := (logged t none).sendVault w id lat }
  | .commons cid =>
    let s' := s.request cid (w.req (s.tile.creq w.ea 2 w.n))
    .next { s' with tile := (logged t none).landWindow w id lat none }

/-- A window op (R259, R296): sent, or answered from the log in a re-run; an entry that disagrees is a silent error. -/
def runWindow (w : WinOp) (s : State) : Out :=
  match s.tile.ct.replayed with
  | none => sendWindow w s
  | some e =>
    if e.agrees w.code (BitVec.ofNat 64 w.ea) w.operands then
      let p := s.winPlace w
      let lat := s.winDelay w p
      onTile (fun t =>
        let t := if p = .out then t.winOut w else t
        { t with ct := { t.ct with logPos := t.ct.logPos + 1 } }.landWindow w e.id lat e.value) s
    else trapOut .checksum 0 2 s

/-! ### The atomics -/

/-- f(old) of R294, none where ACAS does not write. -/
def AtomOp.apply (op : AtomOp) (n : Nat) (old x y : Nat) : Option Nat :=
  match op with
  | .add => some ((old + x) % 2 ^ (8 * n))
  | .max => some (Nat.max old x)
  | .swap => some x
  | .or => some (old ||| x)
  | .cas => if old = x then some y else none

/-- An atomic (R293, R294). -/
def atomic (code : Nat) (op : AtomOp) (o : MM) (x : Ext) (s : State) : Out :=
  let vault := o.ty.getLsbD 0
  let n := if o.ty.getLsbD 1 then 4 else 8
  let ea := s.tile.ea o x n
  let a := BitVec.ofNat 64 (s.tile.sN o.t % 2 ^ (8 * n))
  let b := BitVec.ofNat 64 (if op = .cas then s.tile.sN (o.t + 1) % 2 ^ (8 * n) else 0)
  checked (fun _ => [if vault then vAlignFault ea n else alignFault ea n]) 2 (runWindow {
    vault := vault, ea := ea, n := n, code := code, operands := [o.ty.setWidth 64, a, b], dest := some o.t
    kind := fun id m => .atomic id m ea n op a b
    req := fun r => { r with atom := op, x := a, y := b } }) s

def execAadd (o : MM) (x : Ext) (s : State) : Out := atomic 0x28 .add o x s
def execAmax (o : MM) (x : Ext) (s : State) : Out := atomic 0x29 .max o x s
def execAswap (o : MM) (x : Ext) (s : State) : Out := atomic 0x2A .swap o x s
def execAcas (o : MM) (x : Ext) (s : State) : Out := atomic 0x2B .cas o x s
def execAor (o : MM) (x : Ext) (s : State) : Out := atomic 0x2C .or o x s

end Sys2Proof.Machine
end

