-- ==== Sys2Proof/Machine/Barrier.lean ====
section
/-!
DEFINITION. Barrier objects (13 R367-R376): the pair, what each op does to it in its window, and BINIT, BARV, BWAIT, BBYTES.
-/
namespace Sys2Proof.Machine

/-! ### The pair (R367) -/

def pairPhase (w0 : Nat) : Nat := bits w0 11 0
def pairRemain (w0 : Nat) : Nat := bits w0 31 12
def pairReload (w0 : Nat) : Nat := bits w0 51 32
def pairBroken (w0 : Nat) : Bool := bit w0 62
def pairValid (w0 : Nat) : Bool := bit w0 63

/-- Word 0 with a new phase and remainder. -/
def pairWith (w0 phase remain : Nat) : Nat := phase + remain * 2 ^ 12 + w0 / 2 ^ 32 * 2 ^ 32

/-- A barrier pair after an update: its words, the status, and whether it advanced. -/
structure PairRes where
  w0 : Nat
  w1 : Nat
  status : Nat := 0
  advanced : Bool := false
  deriving DecidableEq, Repr

/-- The status bits that word 0 gives: PHASE, BROKEN, VALID (R368). -/
def pairStatus (w0 : Nat) : Nat := pairPhase w0 + w0 / 2 ^ 62 * 2 ^ 62

/-- Status bits of R368. -/
def stPassed : Nat := 2 ^ 12
def stOver : Nat := 2 ^ 13
def stTimeout : Nat := 2 ^ 14
def stNoreg : Nat := 2 ^ 15

/-- The advance of R369. -/
def pairAdvance (w0 w1 : Nat) : PairRes :=
  if pairValid w0 && !pairBroken w0 && pairRemain w0 == 0 && toSigned 64 w1 ≤ 0 then
    ⟨pairWith w0 ((pairPhase w0 + 1) % 4096) (pairReload w0), w1, 0, true⟩
  else ⟨w0, w1, 0, false⟩

/-- Is the phase at or past the awaited one (R373)? -/
def pairSatisfied (w0 a : Nat) : Bool := (pairPhase w0 + 4096 - a % 4096) % 4096 < 2048

/-- A signed sum held to 64 bits (R372). -/
def saturate64 (z : Int) : Nat := ofInt 64 (max (-2 ^ 63) (min (2 ^ 63 - 1) z))

/-- BYTES lowered by a signed count, with the advance it may cause (R372). -/
def pairBytes (w0 w1 : Nat) (n : Int) : PairRes :=
  if pairValid w0 && !pairBroken w0 then pairAdvance w0 (saturate64 (toSigned 64 w1 - n)) else ⟨w0, w1, 0, false⟩

/-- What the window of a barrier op does to the pair (R370-R373); for BWAIT the pair is only read, and `status` is what it
returns if it ends here. -/
def pairUpdate (op : BarOp) (w0 w1 x : Nat) : PairRes :=
  match op with
  | .binit => ⟨pairWith (x % 2 ^ 20 * 2 ^ 32 + 2 ^ 63) (if pairValid w0 then pairPhase w0 else 0) (x % 2 ^ 20), 0, 0, false⟩
  | .barv =>
    if !pairValid w0 || pairBroken w0 then ⟨w0, w1, pairStatus w0, false⟩
    else if pairRemain w0 = 0 then ⟨w0, w1, pairStatus w0 + stOver, false⟩
    else
      let r := pairAdvance (pairWith w0 (pairPhase w0) (pairRemain w0 - 1)) w1
      { r with status := pairStatus r.w0 + if r.advanced then stPassed else 0 }
  | .bwait => ⟨w0, w1, pairStatus w0 + if pairValid w0 && !pairBroken w0 && pairSatisfied w0 x then stPassed else 0, false⟩
  | .bbytes => pairBytes w0 w1 (toSigned 64 x)

/-- Does a BWAIT end in its window (R373)? -/
def waitEnds (w0 a : Nat) : Bool := !pairValid w0 || pairBroken w0 || pairSatisfied w0 a

/-! ### The ops -/

/-- EA of a barrier op. -/
def Tile.pairEa (t : Tile) (o : MM) (x : Ext) : Nat := t.ea o x 16

/-- ALIGNMENT of a barrier op: EA a multiple of 16 (R368). -/
def pairFault (ea : Nat) : Option (Cause × Nat) := alignFault ea 16

/-- Registrations per partition (R374). -/
def maxPairs : Nat := 64

/-- Would this op meet the registration limit (R374)? -/
def State.noReg (s : State) (w : WinOp) : Bool :=
  match s.winPlace w, s.myJob with
  | .commons cid, some j => !j.pairs.contains (cid, vByteOf w.ea) && maxPairs ≤ j.pairs.length
  | _, _ => false

/-- Register a commons pair, where there is room (R374). -/
def State.register (s : State) (w : WinOp) : State :=
  match s.winPlace w with
  | .commons cid => s.onJob s.tile.ct.pid fun j =>
      if j.pairs.contains (cid, vByteOf w.ea) || maxPairs ≤ j.pairs.length then j else { j with pairs := j.pairs ++ [(cid, vByteOf w.ea)] }
  | _ => s

/-- An op on a 65th pair is not performed: it counts, and its value is logged and lands as from a commons (R374). -/
def notRegistered (w : WinOp) (s : State) : Out :=
  let v : Word := BitVec.ofNat 64 (stNoreg + 2 ^ 62)
  let drop := w.dest.isNone
  let id := s.tile.uid
  onTile (fun t =>
      let t := { t with uid := id + 1 }
      { t with ct := t.ct.logged (w.entry id (some v)) }.landWindow w id lcom (some v))
    { s with hilum := { s.hilum with errors := { s.hilum.errors with
        noreg := s.hilum.errors.noreg + if drop then 1 else 0 } } }

/-- A barrier op other than BWAIT. -/
def barrierOp (w : WinOp) (s : State) : Out :=
  if s.noReg w && s.tile.ct.replayed.isNone then notRegistered w s else runWindow w (s.register w)

/-- The window op of a barrier op. -/
def barWin (code : Nat) (op : BarOp) (o : MM) (x : Ext) (dest : Bool) (t : Tile) : WinOp :=
  let ea := t.pairEa o x
  let v := t.s o.t
  { vault := o.ty.getLsbD 0, ea := ea, n := 16, code := code, operands := [o.ty.setWidth 64, v]
    dest := if dest then some o.t else none
    brk := if dest && bit t.trapen 17 then some ea else none
    kind := fun id m => .barrier id m ea op v
    req := fun r => { r with kind := 3, bar := op, x := v } }

/-- BINIT (R370). -/
def execBinit (o : MM) (x : Ext) (s : State) : Out :=
  let v := s.tile.sN o.t
  if v = 0 || 2 ^ 20 ≤ v then trapOut .illegalOp v 2 s
  else checked (fun s => [pairFault (s.tile.pairEa o x)]) 2 (barrierOp (barWin 0x30 .binit o x false s.tile)) s

/-- BARV (R371). -/
def execBarv (o : MM) (x : Ext) (s : State) : Out :=
  checked (fun s => [pairFault (s.tile.pairEa o x)]) 2 (barrierOp (barWin 0x31 .barv o x true s.tile)) s

/-- BBYTES (R372). -/
def execBbytes (o : MM) (x : Ext) (s : State) : Out :=
  checked (fun s => [pairFault (s.tile.pairEa o x)]) 2 (barrierOp (barWin 0x33 .bbytes o x false s.tile)) s

/-- Suspend issue in the BWAIT whose result is `id` (R373); its log entry is made when the status lands. -/
def Tile.suspend (t : Tile) (id : Nat) (e : Option LogEntry) : Tile :=
  { t with ct := { t.ct.hold (.bwait id) with waiting := some (id, none), waitLog := e } }

/-- BWAIT with its value known: it lands and issue resumes `lat` cycles after issue. -/
def waitKnown (w : WinOp) (lat : Nat) (v : Word) (logs : Bool) (s : State) : Out :=
  onTile (fun t =>
    let id := t.uid
    ({ t with uid := id + 1 }.landWindow w id lat (some v)).suspend id (if logs then some (w.entry id none) else none)) s

/-- A BWAIT that the log answers (R259): its status lands at the logged offset from node start. Out of range it is recorded again, as the
rewind restored what records it (R285). -/
def waitLogged (w : WinOp) (e : LogEntry) (s : State) : Out :=
  let t := if s.winPlace w = .out then s.tile.winOut w else s.tile
  let k := t.ct
  waitKnown w (k.s0 + e.offset - k.now) (e.value.getD 0) false { s with tile := { t with ct := { k with logPos := k.logPos + 1 } } }

/-- BWAIT (R373): the reserved bits of s[t], ALIGNMENT, then the compare-and-arm window. In a re-run the logged status lands at
the logged offset from node start. -/
def execBwait (o : MM) (x : Ext) (s : State) : Out :=
  let v := s.tile.sN o.t
  let w := barWin 0x32 .bwait o x true s.tile
  if bits v 31 12 ≠ 0 then trapOut .illegalOp v 2 s
  else
    checked (fun _ => [pairFault w.ea]) 2 (fun s =>
      match s.tile.ct.replayed with
      | some e =>
        if e.agrees w.code (BitVec.ofNat 64 w.ea) w.operands then waitLogged w e s else trapOut .checksum 0 2 s
      | none =>
        let p := s.winPlace w
        let lat := s.winDelay w p
        let id := s.tile.uid
        let t := { s.tile with uid := id + 1 }
        let entry := some (w.entry id none)
        match p with
        | .out => waitKnown w lat 0 true { s with tile := s.tile.winOut w }
        | .sp => .next { s with tile := (t.sendSp w id lat).suspend id entry }
        | .share => .next { s with tile := (t.sendVault w id lat).suspend id entry }
        | .commons cid =>
          if s.noReg w then waitKnown w lcom (BitVec.ofNat 64 (stNoreg + 2 ^ 62)) true s
          else
            let s' := (s.register w).request cid (w.req (s.tile.creq w.ea 2 16))
            .next { s' with tile := (t.landWindow w id lat none).suspend id entry }) s

end Sys2Proof.Machine
end

