-- ==== Sys2Proof/Machine/Channel.lean ====
section
/-!
DEFINITION. The channels (10 R272-R282): the paths that route tables give, and DRIVE, TAP, DRIVES and TAPS.
-/
namespace Sys2Proof.Machine

/-- The route table entry of an output: port, lane, beat (R273). -/
def routeEntry (table : List Byte) (o ln bt : Nat) : Nat := (table.getD ((o * 8 + ln) * 2 + bt) 0).toNat

/-- Does the entry carry this input (R273)? -/
def entryFeeds (e port ln bt : Nat) : Bool := bit e 7 && bits e 2 0 == ln && bits e 5 3 == port && bits e 6 6 == bt

/-- The outputs (port, lane, beat) of a table that an input feeds. -/
def fedBy (table : List Byte) (port ln bt : Nat) : List (Nat × Nat × Nat) :=
  (List.range 128).filterMap fun i =>
    if entryFeeds (table.getD i 0).toNat port ln bt then some (i / 16, i / 2 % 8, i % 2) else none

/-- The quad beyond a mesh output: north, east, south, west (R272). -/
def quadBeyond (q dir : Nat) : Nat :=
  match dir with
  | 0 => q + Config.quadCols
  | 1 => q + 1
  | 2 => q - Config.quadCols
  | _ => q - 1

/-- Where a beat goes: delivery tile, its lane, and the mesh outputs crossed. -/
structure Path where
  ltid : Nat
  lane : Nat
  via : List (Nat × Nat)
  deriving DecidableEq, Repr

/-- The deliveries that inputs (quad, port, lane, beat, outputs crossed) reach within `fuel` crossings (R273, R275). -/
def State.paths (s : State) : Nat → List (Nat × Nat × Nat × Nat × List (Nat × Nat)) → List Path
  | 0, _ => []
  | fuel + 1, ins =>
    let outs := ins.flatMap fun i => (fedBy (s.quad i.1).route i.2.1 i.2.2.1 i.2.2.2.1).map fun o => (i.1, o, i.2.2.2.2)
    let here := outs.filterMap fun o =>
      if 4 ≤ o.2.1.1 then some { ltid := 4 * o.1 + (o.2.1.1 - 4), lane := o.2.1.2.1, via := o.2.2 } else none
    let on := outs.filterMap fun o =>
      let dir := o.2.1.1
      if dir < 4 && !o.2.2.any (fun v => v.1 == quadBeyond o.1 dir) then
        some (quadBeyond o.1 dir, (dir + 2) % 4, o.2.1.2.1, o.2.1.2.2, o.2.2 ++ [(o.1, dir)])
      else none
    if on.isEmpty then here else here ++ s.paths fuel on

/-- Crossings of the longest path of a group. -/
def maxCrossings : Nat := Config.quadCols * Config.quadRows

/-- The beats by which the retiming buffer out of a quad in a direction has slipped. -/
def Quad.slipOf (q : Quad) (dir : Nat) : Nat := q.slipped.toList.getD dir 0

/-- Slips of the retiming buffers that a path crosses: each delays a beat past its tag's cycle (R301). -/
def State.slipsOn (s : State) (via : List (Nat × Nat)) : Nat := sumNat (via.map fun v => (s.quad v.1).slipOf v.2)

/-- TVAL of CHANNEL_EMPTY (R278). -/
def channelTval (ln : Nat) (vec noRoute : Bool) : Nat := ln + (if vec then 8 else 0) + (if noRoute then 2 ^ 63 else 0)

/-- Inject a beat (R275, R276): it reaches the landing buffer of each delivery at c + 2 + 2h. -/
def drive (o : CH) (vec : Bool) (data : Vec) (s : State) : Out :=
  let t := s.tile
  let ln := o.lane.toNat
  let port := 4 + t.ltid % 4
  if (fedBy (s.quad t.quadIndex).route port ln 0).isEmpty then trapOut .channelEmpty (channelTval ln vec true) 2 s
  else
    let ps := s.paths maxCrossings [(t.quadIndex, port, ln, 0, [])]
    let send (u : Tile) : Tile :=
      { u with beats := u.beats ++ (ps.filter (·.ltid == u.ltid)).map fun p =>
          let h := p.via.length
          { lane := p.lane, at_ := t.c + 2 + 2 * h + s.slipsOn p.via, data := data
            tag := BitVec.ofNat 4 (s.dcycAt t + 2 + 2 * h), via := p.via } }
    .next (s.mapTiles (fun u => u.sameGroup t) send)

def execDrive (o : CH) (s : State) : Out := drive o false ((s.tile.s o.t).setWidth 512) s
def execDrives (o : CH) (s : State) : Out := drive o true (s.tile.v o.t) s

/-- The landing-buffer entry that a TAP of a lane takes (R277): the lowest A. -/
def Tile.tapEntry (t : Tile) (ln : Nat) : Option (Nat × Nat × Vec) :=
  (t.landing.filter fun e => e.1 == ln && e.2.1 ≤ t.c).foldl (fun m e => match m with
    | none => some e
    | some b => if e.2.1 < b.2.1 then some e else some b) none

/-- Take an entry (R276, R277). -/
def tap (o : CH) (vec : Bool) (d : Dest) (s : State) : Out :=
  match s.tile.tapEntry o.lane.toNat with
  | none => trapOut .channelEmpty (channelTval o.lane.toNat vec false) 2 s
  | some e => onTile (fun t => { t with landing := t.landing.erase e }.land d e.2.2 d.fullBe 0 1 2) s

def execTap (o : CH) (s : State) : Out := tap o false (.s o.t) s
def execTaps (o : CH) (s : State) : Out := tap o true (s.tile.vDest o.t) s

end Sys2Proof.Machine
end

