-- ==== Sys2Proof/Machine/Access.lean ====
section
/-!
DEFINITION. What an access does in its bank cycle beside moving data: race checks and records (07 R212, R213; 13 R376) and
storage errors (09 R269; 10 R283; 13 R349).
-/
namespace Sys2Proof.Machine

/-- Whom an access belongs to: issue cycle, slot and address of its bundle, and the phase number at issue. -/
structure Owner where
  issue : Nat
  slot : Nat
  addr : Nat
  phase : Nat
  deriving DecidableEq, Repr

def Pend.owner (p : Pend) : Owner := ⟨p.issue, p.slot, p.addr, p.phase⟩
def Result.owner (r : Result) : Owner := ⟨r.issue, r.slot, r.addr, r.phase⟩

/-- A scratchpad access of the tile in focus in its bank cycle: the race check, then a bank collision that its op was charged with at
issue (R214), and for a read the storage check. The flag tells whether it goes on. -/
def Tile.touchSp (t : Tile) (as : List Nat) (write : Bool) (o : Owner) : Tile × Bool :=
  match t.spRace as o.phase write, t.owed.find? fun e => e.1 == o.issue && e.2.1 == o.slot with
  | some v, _ => (t.found .race v o.slot o.issue o.addr, false)
  | none, some e => ({ t with owed := t.owed.erase e }.found .landingCollision e.2.2 o.slot o.issue o.addr, false)
  | none, none =>
    let t := t.spRaceMark as o.phase write
    (if write then t else t.spCheck as o.slot o.issue o.addr, true)

/-! ### The vault -/

/-- The race of a vault access by group `g`'s tile with this LTID, and the entries it leaves (R212, R213). -/
def vaultRace (k : Context) (m : Mem) (id : Nat) (as : List Nat) (o : Owner) (write dom : Bool) : Option Nat × Mem :=
  if !k.cx.raceEn then (none, m)
  else
    let es := (wordsTouched as).filterMap fun w => (raceEntry k.regions 1 (8 * w)).map fun e => (w, e)
    match es.findSome? fun e => (raceCheck (memNat m e.2 4) id o.phase write dom true (8 * e.1)).1 with
    | some v => (some v, m)
    | none => (none, es.foldl (fun m e => memPut m e.2 (bytesOf 4 (raceCheck (memNat m e.2 4) id o.phase write dom true (8 * e.1)).2)) m)

/-- Does an uncorrectable error at key `a` replay the node of group `g` (R283)? In a staged line, or one that the attempt wrote and that
is not poisoned. -/
def Job.vReplays (j : Job) (rs : List Region) (g a : Nat) (poison : Bool) : Bool :=
  vStaged rs a || (!poison && j.vaultMarks.contains (lineOf a, g))

/-- A vault word is read through ECC (R283): corrected and counted, UE_REPLAY, or a checkpoint rollback. -/
def State.vCheckWord (s : State) (w : Nat) (o : Owner) : State :=
  let t := s.tile
  match s.myJob.bind fun j => (j.vault.softAt t.vTag (8 * w)).map fun e => (j, e) with
  | none => s
  | some (j, e) =>
    if !e.bad then
      { s with tile := { t with corrected := t.corrected + 1 } }.onJob t.ct.pid fun j =>
        { j with vault := { j.vault with soft := j.vault.soft.erase e } }
    else if j.vReplays t.ct.regions t.vTag (8 * w) e.poison then { s with tile := t.found .ueReplay 0 o.slot o.issue o.addr }
    else { s with tile := { t with rollAsk := true } }

/-- A vault access of the tile in focus in its bank cycle; the flag tells whether it goes on. -/
def State.touchVault (s : State) (as : List Nat) (write : Bool) (o : Owner) : State × Bool :=
  let t := s.tile
  match s.myJob with
  | none => (s, false)
  | some j =>
    let r := vaultRace t.ct j.vault.pub (bits t.ct.cx.tileid.toNat 14 0) as o write false
    match r.1 with
    | some v => ({ s with tile := t.found .race v o.slot o.issue o.addr }, false)
    | none =>
      let s := s.onJob t.ct.pid fun j => { j with vault := { j.vault with pub := r.2 } }
      (if write then s else (wordsTouched as).foldl (fun s w => s.vCheckWord w o) s, true)

/-- A byte of the vault share in the view of the tile in focus, by vault address; zero where there is no job. -/
def State.vByteAt (s : State) (a : Nat) : Byte :=
  match s.myJob with
  | none => 0
  | some j => j.vByte s.tile.vTag a

/-- Write vault bytes for the tile in focus; the errors that this corrects are its own (R283, R387). -/
def State.vPutAt (s : State) (cells : List Host.Cell) : State :=
  let n := match s.myJob with
    | some j => j.vMerged s.tile.ct.regions cells
    | none => 0
  { s with tile := { s.tile with corrected := s.tile.corrected + n } }.onJob s.tile.ct.pid
    (·.vPut s.tile.ct.regions s.tile.vTag cells)

end Sys2Proof.Machine
end

