-- ==== Sys2Proof/Machine/Float.lean ====
section
/-!
DEFINITION. The binary floating formats and their arithmetic (spec 03 R79-R84, R90): every operation forms its exact value
and rounds once. Flags are the bits of TRAPEN.BEN: 0 invalid, 1 divide-by-zero, 2 overflow, 3 underflow, 4 inexact.
-/
namespace Sys2Proof.Machine

/-- A value in some format with the flags it raised. -/
structure FRes where
  val : Nat
  fl : Nat
  deriving DecidableEq, Repr

/-- Bits of the exception flags (R91). -/
def flInvalid : Nat := 1
def flDivZero : Nat := 2
def flOverflow : Nat := 4
def flUnderflow : Nat := 8
def flInexact : Nat := 16

/-- A binary format: exponent field width and fraction width (R79). -/
structure BFmt where
  ew : Nat
  f : Nat
  deriving DecidableEq, Repr

/-- The format of an element-type code 8-11 (R13, R79). -/
def bfmt (code : Nat) : BFmt :=
  match code with
  | 8 => ⟨5, 10⟩
  | 9 => ⟨8, 7⟩
  | 10 => ⟨8, 23⟩
  | _ => ⟨11, 52⟩

def BFmt.width (b : BFmt) : Nat := 1 + b.ew + b.f
def BFmt.bias (b : BFmt) : Nat := 2 ^ (b.ew - 1) - 1
/-- All ones in the exponent field. -/
def BFmt.emax (b : BFmt) : Nat := 2 ^ b.ew - 1
/-- Exponent of the last bit of a subnormal. -/
def BFmt.emin (b : BFmt) : Int := 1 - (b.bias : Int) - b.f

/-- What a word of a binary format denotes (R79). -/
inductive BNum where
  | nan (signalling : Bool)
  | inf (neg : Bool)
  /-- (−1)^neg × m × 2^e -/
  | fin (neg : Bool) (m : Nat) (e : Int)
  deriving DecidableEq, Repr

/-- Read a word (R79). -/
def BFmt.read (b : BFmt) (x : Nat) : BNum :=
  let neg := bit x (b.ew + b.f)
  let e := bits x (b.ew + b.f - 1) b.f
  let fr := x % 2 ^ b.f
  if e = b.emax then if fr = 0 then .inf neg else .nan (!bit x (b.f - 1))
  else if e = 0 then .fin neg fr b.emin
  else .fin neg (fr + 2 ^ b.f) (b.emin + (e - 1 : Nat))

def BFmt.signBit (b : BFmt) (neg : Bool) : Nat := if neg then 2 ^ (b.ew + b.f) else 0
def BFmt.infinity (b : BFmt) (neg : Bool) : Nat := b.signBit neg + b.emax * 2 ^ b.f
def BFmt.largest (b : BFmt) (neg : Bool) : Nat := b.signBit neg + (b.emax - 1) * 2 ^ b.f + (2 ^ b.f - 1)
/-- The canonical quiet NaN (R82). -/
def BFmt.canonNan (b : BFmt) : Nat := b.emax * 2 ^ b.f + 2 ^ (b.f - 1)

/-- The canonical NaN, raising invalid when asked (R82). -/
def BFmt.nan (b : BFmt) (invalid : Bool) : FRes := ⟨b.canonNan, if invalid then flInvalid else 0⟩

/-- Does rounding take the next integer up in magnitude? `odd`: the kept integer is odd; `cmp`: the rest against one
half; `some`: the rest is nonzero. Modes 0 RNE, 1 RTZ, 2 RUP, 3 RDN, 4 ties-away (R91). -/
def roundsUp (rm : Nat) (neg odd : Bool) (cmp : Ordering) (some : Bool) : Bool :=
  match rm with
  | 0 => cmp == .gt || (cmp == .eq && odd)
  | 1 => false
  | 2 => !neg && some
  | 3 => neg && some
  | _ => cmp == .gt || cmp == .eq

/-- Does an overflow in this mode and sign give infinity (R80)? -/
def overflowsToInf (rm : Nat) (neg : Bool) : Bool :=
  match rm with
  | 1 => false
  | 2 => !neg
  | 3 => neg
  | _ => true

/-- The magnitude `n / d` (with more below it when `sticky`) rounded to an integer, and whether it was inexact. -/
def roundDiv (rm : Nat) (neg : Bool) (n d : Nat) (sticky : Bool) : Nat × Bool :=
  let q := n / d
  let r := n % d
  let some := r != 0 || sticky
  let cmp : Ordering :=
    if d = 1 then .lt else if 2 * r < d then .lt else if 2 * r = d && !sticky then .eq else .gt
  (if roundsUp rm neg (q % 2 == 1) cmp some then q + 1 else q, some)

/-- m × 2^e (and more below the last bit of m when `sticky`) as an integer multiple of 2^q. A sticky m is longer than
what is kept. -/
def roundAt (rm : Nat) (neg : Bool) (m : Nat) (e q : Int) (sticky : Bool) : Nat × Bool :=
  if q ≤ e then (m * 2 ^ (e - q).toNat, sticky) else roundDiv rm neg m (2 ^ (q - e).toNat) sticky

/-- Length of a number in bits; 0 for 0. -/
def bitLen (m : Nat) : Nat := if m = 0 then 0 else m.log2 + 1

/-- A magnitude r × 2^q that fits the format's precision, laid out in its fields. -/
def BFmt.pack (b : BFmt) (neg : Bool) (r : Nat) (q : Int) : Nat :=
  if r < 2 ^ b.f then b.signBit neg + r
  else b.signBit neg + (q - b.emin).toNat * 2 ^ b.f + r

/-- Round an exact nonzero magnitude once to the format (R80, R81). -/
def BFmt.round (b : BFmt) (rm : Nat) (neg : Bool) (m : Nat) (e : Int) (sticky : Bool) : FRes :=
  let top : Int := e + bitLen m
  let qFree : Int := top - (b.f + 1 : Nat)
  let free := roundAt rm neg m e qFree sticky
  let tiny := top ≤ b.emin + b.f && free.1 < 2 ^ (b.emin + b.f - qFree).toNat
  let q := max qFree b.emin
  let r := roundAt rm neg m e q sticky
  let carried := r.1 == 2 ^ (b.f + 1)
  let v := if carried then r.1 / 2 else r.1
  let q' := if carried then q + 1 else q
  if v ≥ 2 ^ b.f && q' - b.emin + 1 ≥ b.emax then
    ⟨if overflowsToInf rm neg then b.infinity neg else b.largest neg, flOverflow + flInexact⟩
  else
    ⟨b.pack neg v q', (if r.2 then flInexact else 0) + (if tiny && r.2 then flUnderflow else 0)⟩

/-- Round an exact magnitude, zero included. -/
def BFmt.make (b : BFmt) (rm : Nat) (neg : Bool) (m : Nat) (e : Int) (sticky : Bool) : FRes :=
  if m = 0 && !sticky then ⟨b.signBit neg, 0⟩ else b.round rm neg m e sticky

/-- The exact signed sum of two finite values, over the smaller exponent. -/
def sumFin (n1 : Bool) (m1 : Nat) (e1 : Int) (n2 : Bool) (m2 : Nat) (e2 : Int) : Int × Int :=
  let e := min e1 e2
  let a : Int := (m1 * 2 ^ (e1 - e).toNat : Nat)
  let c : Int := (m2 * 2 ^ (e2 - e).toNat : Nat)
  ((if n1 then -a else a) + (if n2 then -c else c), e)

/-- A sum of two values, each finite or infinite, rounded once; the sign of an exact zero by R80. -/
def BFmt.sum (b : BFmt) (rm : Nat) (x y : BNum) : FRes :=
  match x, y with
  | .nan s, .nan t => b.nan (s || t)
  | .nan s, _ => b.nan s
  | _, .nan t => b.nan t
  | .inf s, .inf t => if s = t then ⟨b.infinity s, 0⟩ else b.nan true
  | .inf s, .fin .. => ⟨b.infinity s, 0⟩
  | .fin .., .inf t => ⟨b.infinity t, 0⟩
  | .fin n1 m1 e1, .fin n2 m2 e2 =>
    let z := sumFin n1 m1 e1 n2 m2 e2
    if z.1 = 0 then ⟨b.signBit (if n1 = n2 then n1 else rm == 3), 0⟩
    else b.round rm (z.1 < 0) z.1.natAbs z.2 false

/-- The exact product of two values; none where it is 0 × ∞. -/
def mulNum (x y : BNum) : Option BNum :=
  match x, y with
  | .nan s, .nan t => some (.nan (s || t))
  | .nan s, _ => some (.nan s)
  | _, .nan t => some (.nan t)
  | .inf s, .inf t => some (.inf (s != t))
  | .inf s, .fin t m _ => if m = 0 then none else some (.inf (s != t))
  | .fin s m _, .inf t => if m = 0 then none else some (.inf (s != t))
  | .fin s m e, .fin t n g => some (.fin (s != t) (m * n) (e + g))

/-- Change the sign of a value. -/
def BNum.flip : BNum → BNum
  | .nan s => .nan s
  | .inf n => .inf (!n)
  | .fin n m e => .fin (!n) m e

def BNum.isNan : BNum → Bool
  | .nan _ => true
  | _ => false

def BNum.isSnan : BNum → Bool
  | .nan s => s
  | _ => false

/-- The exact sum of many values over the smallest exponent. -/
def sumTerms (ts : List (Bool × Nat × Int)) : Int × Int :=
  ts.foldl (fun a t => sumFin (a.1 < 0) a.1.natAbs a.2 t.1 t.2.1 t.2.2) (0, match ts with
    | [] => 0
    | t :: _ => t.2.2)

/-- The finite terms of a sum. -/
def finTerms (ts : List BNum) : List (Bool × Nat × Int) := ts.filterMap fun t => match t with
  | .fin n m e => some (n, m, e)
  | _ => none

/-- Is a value the infinity of this sign? -/
def BNum.isInf (neg : Bool) : BNum → Bool
  | .inf n => n == neg
  | _ => false

/-- An exact sum of many values rounded once with RNE (R104); a term of none is 0 × ∞, and infinities of both signs are
invalid beside a NaN too (R81). -/
def BFmt.sumAll (b : BFmt) (ts : List (Option BNum)) : FRes :=
  let vs := ts.filterMap id
  if vs.length ≠ ts.length then b.nan true
  else if vs.any (·.isNan) then b.nan (vs.any (·.isSnan) || (vs.any (·.isInf false) && vs.any (·.isInf true)))
  else if vs.any (·.isInf false) then (if vs.any (·.isInf true) then b.nan true else ⟨b.infinity false, 0⟩)
  else if vs.any (·.isInf true) then ⟨b.infinity true, 0⟩
  else
    let fs := finTerms vs
    let z := sumTerms fs
    if z.1 = 0 then ⟨b.signBit (!fs.isEmpty && fs.all (·.1)), 0⟩ else b.round 0 (z.1 < 0) z.1.natAbs z.2 false

/-- FADD, VFADD. -/
def fAdd (b : BFmt) (rm x y : Nat) : FRes := b.sum rm (b.read x) (b.read y)

/-- FSUB, VFSUB. -/
def fSub (b : BFmt) (rm x y : Nat) : FRes := b.sum rm (b.read x) (b.read y).flip

/-- FMUL, VFMUL. -/
def fMul (b : BFmt) (rm x y : Nat) : FRes :=
  match mulNum (b.read x) (b.read y) with
  | none => b.nan true
  | some (.nan s) => b.nan s
  | some (.inf n) => ⟨b.infinity n, 0⟩
  | some (.fin n m e) => b.make rm n m e false

/-- FMA, VFMA: x × y + z with one rounding; 0 × ∞ is invalid whatever z is (R81). -/
def fMulAdd (b : BFmt) (rm x y z : Nat) : FRes :=
  match mulNum (b.read x) (b.read y) with
  | none => b.nan true
  | some p => b.sum rm p (b.read z)

/-- FDIV, VFDIV. -/
def fDiv (b : BFmt) (rm x y : Nat) : FRes :=
  match b.read x, b.read y with
  | .nan s, .nan t => b.nan (s || t)
  | .nan s, _ => b.nan s
  | _, .nan t => b.nan t
  | .inf _, .inf _ => b.nan true
  | .inf s, .fin t _ _ => ⟨b.infinity (s != t), 0⟩
  | .fin s _ _, .inf t => ⟨b.signBit (s != t), 0⟩
  | .fin s m e, .fin t n g =>
    if n = 0 then if m = 0 then b.nan true else ⟨b.infinity (s != t), flDivZero⟩
    else
      let k := b.f + 4 + bitLen n
      b.make rm (s != t) (m * 2 ^ k / n) (e - g - k) (m * 2 ^ k % n != 0)

/-- Integer square root, one bit a step: `i` bits of root still to find. -/
def isqrtFrom (n : Nat) : Nat → Nat → Nat
  | 0, r => r
  | i + 1, r => if (r + 2 ^ i) * (r + 2 ^ i) ≤ n then isqrtFrom n i (r + 2 ^ i) else isqrtFrom n i r

/-- ⌊√n⌋. -/
def isqrt (n : Nat) : Nat := isqrtFrom n (bitLen n / 2 + 1) 0

/-- FSQRT, VFSQRT; √−0 = −0 (R177). -/
def fSqrt (b : BFmt) (rm x : Nat) : FRes :=
  match b.read x with
  | .nan s => b.nan s
  | .inf n => if n then b.nan true else ⟨b.infinity false, 0⟩
  | .fin n m e =>
    if m = 0 then ⟨b.signBit n, 0⟩
    else if n then b.nan true
    else
      let k := 2 * (b.f + 4)
      let m' := if e % 2 = 0 then m * 2 ^ k else m * 2 ^ (k + 1)
      let e' := if e % 2 = 0 then e - k else e - k - 1
      let r := isqrt m'
      b.make rm false r (e' / 2) (r * r != m')

/-- Ordering of two finite values by value; −0 = +0. -/
def cmpFin (n1 : Bool) (m1 : Nat) (e1 : Int) (n2 : Bool) (m2 : Nat) (e2 : Int) : Ordering :=
  let z := (sumFin n1 m1 e1 (!n2) m2 e2).1
  if z < 0 then .lt else if z = 0 then .eq else .gt

/-- Ordering of two values; none when unordered (R83). -/
def cmpNum (x y : BNum) : Option Ordering :=
  match x, y with
  | .nan _, _ => none
  | _, .nan _ => none
  | .inf s, .inf t => some (if s = t then .eq else if s then .lt else .gt)
  | .inf s, .fin .. => some (if s then .lt else .gt)
  | .fin .., .inf t => some (if t then .gt else .lt)
  | .fin n1 m1 e1, .fin n2 m2 e2 => some (cmpFin n1 m1 e1 n2 m2 e2)

/-- A floating condition code (R35) on an ordering; NE and UN hold when unordered. -/
def condOrd (code : Nat) (o : Option Ordering) : Bool :=
  match code with
  | 0 => o == some .eq
  | 1 => o != some .eq
  | 2 => o == some .lt
  | 3 => o == some .gt || o == some .eq
  | 4 => o == some .lt || o == some .eq
  | 5 => o == some .gt
  | 6 => o == none
  | _ => o != none

/-- Does the compare raise invalid (R81, R83)? A signalling NaN always; a quiet one under LT, GE, LE, GT. -/
def condInvalid (code : Nat) (nan snan : Bool) : Bool := snan || (2 ≤ code && code ≤ 5 && nan)

/-- FCMP, VFCMP: the condition and its flags. -/
def fCompare (b : BFmt) (code x y : Nat) : Bool × Nat :=
  let u := b.read x
  let v := b.read y
  (condOrd code (cmpNum u v),
    if condInvalid code (u.isNan || v.isNan) (u.isSnan || v.isSnan) then flInvalid else 0)

/-- minimumNumber and maximumNumber (R83); −0 is below +0. -/
def fMinMax (b : BFmt) (isMax : Bool) (x y : Nat) : FRes :=
  let u := b.read x
  let v := b.read y
  let fl := if u.isSnan || v.isSnan then flInvalid else 0
  let below : Bool :=
    match cmpNum u v with
    | some .lt => true
    | some .eq => bit x (b.ew + b.f)
    | _ => false
  if u.isNan then ⟨if v.isNan then b.canonNan else y, fl⟩
  else if v.isNan then ⟨x, fl⟩
  else ⟨if below != isMax then x else y, fl⟩

/-- VFSCALE: x × 2^k (R121). -/
def fScale (b : BFmt) (rm x : Nat) (k : Int) : FRes :=
  match b.read x with
  | .nan s => b.nan s
  | .inf n => ⟨b.infinity n, 0⟩
  | .fin n m e =>
    let lim : Int := 4096
    b.make rm n m (e + max (-lim) (min lim k)) false

/-- VFSGN: the magnitude of x with the sign of y (R121). -/
def fCopySign (b : BFmt) (x y : Nat) : FRes :=
  match b.read x with
  | .nan s => b.nan s
  | _ => ⟨x % 2 ^ (b.ew + b.f) + b.signBit (bit y (b.ew + b.f)), 0⟩

/-- The class word of R90. -/
def fClass (b : BFmt) (x : Nat) : Nat :=
  match b.read x with
  | .nan s => if s then 1 else 2
  | .inf n => if n then 4 else 512
  | .fin n m _ =>
    if m = 0 then if n then 32 else 64
    else if m < 2 ^ b.f then if n then 16 else 128
    else if n then 8 else 256

/-- Smallest and largest value of an integer type code (R77). -/
def intMin (code : Nat) : Int := if code < 4 then -2 ^ (8 * 2 ^ (code % 4) - 1) else 0
def intMax (code : Nat) : Int :=
  if code < 4 then 2 ^ (8 * 2 ^ (code % 4) - 1) - 1 else 2 ^ (8 * 2 ^ (code % 4)) - 1
/-- Width of an integer type code. -/
def intWidth (code : Nat) : Nat := 8 * 2 ^ (code % 4)

/-- An exact value rounded to an integer, then held against the target range (R84). -/
def toIntType (rm code : Nat) (neg : Bool) (n d : Nat) : FRes :=
  let r := roundDiv rm neg n d false
  let z : Int := if neg then -(r.1 : Int) else r.1
  if z < intMin code then ⟨ofInt (intWidth code) (intMin code), flInvalid⟩
  else if z > intMax code then ⟨ofInt (intWidth code) (intMax code), flInvalid⟩
  else ⟨ofInt (intWidth code) z, if r.2 then flInexact else 0⟩

/-- Conversion of a binary value to an integer type (R84). -/
def numToInt (rm code : Nat) (x : BNum) : FRes :=
  match x with
  | .nan _ => ⟨0, flInvalid⟩
  | .inf n => ⟨ofInt (intWidth code) (if n then intMin code else intMax code), flInvalid⟩
  | .fin n m e =>
    if 0 ≤ e then toIntType rm code n (m * 2 ^ e.toNat) 1 else toIntType rm code n m (2 ^ (-e).toNat)

/-- Conversion of a binary value to a binary format (R84). -/
def BFmt.convert (b : BFmt) (rm : Nat) (x : BNum) : FRes :=
  match x with
  | .nan s => b.nan s
  | .inf n => ⟨b.infinity n, 0⟩
  | .fin n m e => b.make rm n m e false

/-- FCVT and VFCVT between type codes 0-11, one of them binary (R84, R122, R179). -/
def fConvert (rm src dst x : Nat) : FRes :=
  if 8 ≤ src then
    let v := (bfmt src).read x
    if 8 ≤ dst then (bfmt dst).convert rm v else numToInt rm dst v
  else
    let z : Int := if src < 4 then toSigned (intWidth src) x else ((x % 2 ^ intWidth src : Nat) : Int)
    (bfmt dst).make rm (z < 0) z.natAbs 0 false

end Sys2Proof.Machine
end

