-- ==== Sys2Proof/Machine/Block.lean ====
section
/-!
DEFINITION. The block formats BQ3, BQ5 and BQ8 (03 R95-R99): forming a block from binary32 values, its scratchpad layout,
and reading it back.
-/
namespace Sys2Proof.Machine

/-- A block of 16 elements: X, the eight micro-exponent bits, and each element's sign and mantissa. -/
structure Block where
  x : Nat
  d : List Bool
  els : List (Bool × Nat)
  deriving DecidableEq, Repr

/-- Mantissa bits by format 0-2. -/
def bqBits (fmt : Nat) : Nat :=
  match fmt with
  | 0 => 2
  | 1 => 4
  | _ => 7

/-- The magnitude of a binary32 value over 2^-149; an infinity is none. -/
def bqMag (v : BNum) : Option Nat :=
  match v with
  | .fin _ m e => some (m * 2 ^ (e + 149).toNat)
  | _ => none

def BNum.neg : BNum → Bool
  | .nan _ => false
  | .inf n => n
  | .fin n _ _ => n

/-- The block exponent of R99 from the largest magnitude. -/
def bqExp (w : Nat) (m : Option Nat) : Nat :=
  match m with
  | none => 254
  | some 0 => 0
  | some m =>
    let x := (bitLen m - 1 + 127) - 149
    let x := if x ≤ 254 && (roundDiv 0 false m (2 ^ (x + 22 - (w - 1))) false).1 == 2 ^ w then x + 1 else x
    min x 254

/-- The larger of two magnitudes, none standing for infinity. -/
def bqMax (a b : Option Nat) : Option Nat :=
  match a, b with
  | some a, some b => some (max a b)
  | _, _ => none

/-- One element of a block: its sign, its mantissa, and the flags it raises. -/
def bqElement (w x : Nat) (d : Bool) (v : BNum) : (Bool × Nat) × Nat :=
  match bqMag v with
  | none => ((v.neg, 2 ^ w - 1), flOverflow ||| flInexact)
  | some a =>
    let r := roundDiv 0 false a (2 ^ (x + 22 - (if d then 1 else 0) - (w - 1))) false
    if r.1 ≥ 2 ^ w then ((v.neg, 2 ^ w - 1), flOverflow ||| flInexact)
    else ((v.neg && r.1 != 0, r.1), if r.2 then flInexact else 0)

/-- Form a block of 16 binary32 words (R99), with the flags raised. -/
def bqForm (w : Nat) (words : List Nat) : Block × Nat :=
  let vs := words.map (bfmt 10).read
  if vs.any (·.isNan) then (⟨255, List.replicate 8 false, List.replicate 16 (false, 0)⟩, 0)
  else
    let ms := vs.map bqMag
    let x := bqExp w (ms.foldl bqMax (some 0))
    let d := (List.range 8).map fun p =>
      match bqMax (ms.getD (2 * p) (some 0)) (ms.getD (2 * p + 1) (some 0)) with
      | none => false
      | some h => h < 2 ^ (x + 21)
    let es := vs.zipIdx.map fun e => bqElement w x (d.getD (e.2 / 2) false) e.1
    (⟨x, d, es.map (·.1)⟩, (es.map (·.2)).foldl (· ||| ·) 0)

/-- The scratchpad byte of an element (R97). -/
def bqByte (w : Nat) (d : Bool) (e : Bool × Nat) : Nat :=
  (if e.1 then 128 else 0) + e.2 * 2 ^ (7 - w) + (if d && w < 7 then 2 ^ (6 - w) else 0)

/-- The element bytes of a block, in element order. -/
def Block.bytes (b : Block) (w : Nat) : List Nat :=
  if b.x = 255 then List.replicate 16 0
  else b.els.zipIdx.map fun e => bqByte w (b.d.getD (e.2 / 2) false) e.1

/-- A block packed at the bit positions of R96, from its number. -/
def bqPacked (w v : Nat) : Block :=
  { x := v % 256
    d := (List.range 8).map fun p => bit v (8 + p)
    els := (List.range 16).map fun i => (bit v (16 + (w + 1) * i + w), bits v (16 + (w + 1) * i + w - 1) (16 + (w + 1) * i)) }

/-- Bytes of a packed block (R96). -/
def bqSize (w : Nat) : Nat := (16 + 16 * (w + 1)) / 8

/-- The element bytes of a block as they stand, whatever X is (R359). -/
def Block.laid (b : Block) (w : Nat) : List Nat := b.els.zipIdx.map fun e => bqByte w (b.d.getD (e.2 / 2) false) e.1

/-- The scale entry of a block (R97). -/
def Block.scale (b : Block) : Nat := b.x + 2 ^ 8 * joinNat 1 (b.d.map fun d => if d then 1 else 0)

/-- Read a block from its 16 element bytes and its scale entry (R97): d from the even element of each pair, for BQ8 from
the entry. -/
def bqRead (w : Nat) (bytes : List Nat) (scale : Nat) : Block :=
  { x := scale % 256
    d := (List.range 8).map fun p => if w < 7 then bit (bytes.getD (2 * p) 0) (6 - w) else bit scale (8 + p)
    els := bytes.map fun b => (bit b 7, bits b 6 (7 - w)) }

/-- An element's value as binary32 (R95): exact; NaN in a NaN block; every zero is +0. -/
def Block.value (b : Block) (w i : Nat) : Nat :=
  let e := b.els.getD i (false, 0)
  if b.x = 255 then (bfmt 10).canonNan
  else if e.2 = 0 then 0
  else ((bfmt 10).make 0 e.1 e.2 ((b.x : Int) - 127 - (if b.d.getD (i / 2) false then 1 else 0) - (w - 1 : Nat)) false).val

end Sys2Proof.Machine
end

