-- ==== Sys2Proof/Machine/VectorInt.lean ====
section
/-!
DEFINITION. The integer lane ops, shifts, compares, selection and the mask ops (spec 04 R107-R120).
-/
namespace Sys2Proof.Machine

/-- Lane width in bits and lane count of an element type (R75). -/
def laneCount (w : Nat) : Nat := 512 / w

/-- Faults of a V op with sources a, and b where it has one, and destination d, in the order of R112. The RACE of an operand's stream read
(R213), which R112 does not list, comes after every stream fault of a, b and d and before the arithmetic traps (DESIGN CHOICE, log 59). -/
def vecFaults (fs : List (BitVec 6)) (d : Option (BitVec 6)) (z : Nat) (s : State) : List (Option (Cause × Nat)) :=
  let t := s.tile
  fs.map (t.vReadFault · z) ++ (d.toList.map (t.vWriteFault · z)) ++ fs.map fun f => t.vReadRace f z (64 / z)

/-- What the reads of a V op do beside their values. -/
def Tile.useAll (t : Tile) (fs : List (BitVec 6)) (z : Nat) : Tile :=
  fs.foldl (fun t f => t.vReadUse f z (64 / z) 1) t

/-- The lanes of an operand at width `w`. -/
def Tile.lanesOf (t : Tile) (f : BitVec 6) (w : Nat) : List Nat := lanes w (t.vRead f (w / 8) (laneCount w))

/-- An integer lane op of two sources (R115): res[i] ← f(a[i], b[i]). -/
def intLanes (lat : Nat) (o : RRR) (x : Ext) (f : Nat → Nat → Nat → Nat) (s : State) : Out :=
  let w := typeWidth o.m.toNat
  checked (vecFaults [o.a, o.b] (some o.d) (w / 8)) 1 (onTile fun t =>
    let r := ofLanes w ((t.lanesOf o.a w).zipWith (f w) (t.lanesOf o.b w))
    (t.useAll [o.a, o.b] (w / 8)).vWrite o.d (w / 8) (laneCount w) r (t.active x) 0 lat 1) s

/-- An integer lane op of one source. -/
def intLanes1 (lat : Nat) (o : RRR) (x : Ext) (f : Nat → Nat → Nat) (s : State) : Out :=
  let w := typeWidth o.m.toNat
  checked (vecFaults [o.a] (some o.d) (w / 8)) 1 (onTile fun t =>
    let r := ofLanes w ((t.lanesOf o.a w).map (f w))
    (t.useAll [o.a] (w / 8)).vWrite o.d (w / 8) (laneCount w) r (t.active x) 0 lat 1) s

/-- A lane as the number its type reads: signed for .i, cardinal for .c (R115). -/
def laneInt (m w x : Nat) : Int := if m < 4 then toSigned w x else (x : Int)

/-- An exact result clamped to the type's range (R77, R115). -/
def clampTo (m : Nat) (w : Nat) (z : Int) : Nat := ofInt w (max (intLo m w) (min (intHi m w) z))
where
  intLo (m w : Nat) : Int := if m < 4 then -2 ^ (w - 1) else 0
  intHi (m w : Nat) : Int := if m < 4 then 2 ^ (w - 1) - 1 else 2 ^ w - 1

def execVadd (o : RRR) (x : Ext) (s : State) : Out := intLanes 2 o x (fun w a b => (a + b) % 2 ^ w) s
def execVsub (o : RRR) (x : Ext) (s : State) : Out := intLanes 2 o x (fun w a b => (a + 2 ^ w - b) % 2 ^ w) s
def execVmul (o : RRR) (x : Ext) (s : State) : Out := intLanes 3 o x (fun w a b => a * b % 2 ^ w) s
/-- VMULH: bits 2n−1:n of the exact product. -/
def execVmulh (o : RRR) (x : Ext) (s : State) : Out :=
  intLanes 3 o x (fun w a b => ofInt w (laneInt o.m.toNat w a * laneInt o.m.toNat w b / 2 ^ w)) s
def execVand (o : RRR) (x : Ext) (s : State) : Out := intLanes 2 o x (fun _ a b => a &&& b) s
def execVor (o : RRR) (x : Ext) (s : State) : Out := intLanes 2 o x (fun _ a b => a ||| b) s
def execVxor (o : RRR) (x : Ext) (s : State) : Out := intLanes 2 o x (fun _ a b => a ^^^ b) s
def execVandn (o : RRR) (x : Ext) (s : State) : Out := intLanes 2 o x (fun w a b => a &&& (b ^^^ (2 ^ w - 1))) s
def execVmin (o : RRR) (x : Ext) (s : State) : Out :=
  intLanes 2 o x (fun w a b => if laneInt o.m.toNat w b < laneInt o.m.toNat w a then b else a) s
def execVmax (o : RRR) (x : Ext) (s : State) : Out :=
  intLanes 2 o x (fun w a b => if laneInt o.m.toNat w a < laneInt o.m.toNat w b then b else a) s
/-- VABS: |a| mod 2^n. -/
def execVabs (o : RRR) (x : Ext) (s : State) : Out := intLanes1 2 o x (fun w a => (toSigned w a).natAbs % 2 ^ w) s
def execVadds (o : RRR) (x : Ext) (s : State) : Out :=
  intLanes 2 o x (fun w a b => clampTo o.m.toNat w (laneInt o.m.toNat w a + laneInt o.m.toNat w b)) s
def execVsubs (o : RRR) (x : Ext) (s : State) : Out :=
  intLanes 2 o x (fun w a b => clampTo o.m.toNat w (laneInt o.m.toNat w a - laneInt o.m.toNat w b)) s
def execVpopc (o : RRR) (x : Ext) (s : State) : Out := intLanes1 2 o x popCount s
def execVclz (o : RRR) (x : Ext) (s : State) : Out := intLanes1 2 o x leadZeros s

/-- Shifts of one lane (R116): an amount of n or more gives 0, or n copies of the sign. -/
def shlLane (w a k : Nat) : Nat := if w ≤ k then 0 else a * 2 ^ k % 2 ^ w
def shrLane (w a k : Nat) : Nat := if w ≤ k then 0 else a / 2 ^ k
def sraLane (w a k : Nat) : Nat := ofInt w (toSigned w a / 2 ^ (min k w))

def execVshl (o : RRR) (x : Ext) (s : State) : Out := intLanes 2 o x shlLane s
def execVshr (o : RRR) (x : Ext) (s : State) : Out := intLanes 2 o x shrLane s
def execVsra (o : RRR) (x : Ext) (s : State) : Out := intLanes 2 o x sraLane s
def execVshli (o : RRR) (x : Ext) (s : State) : Out := intLanes1 2 o x (fun w a => shlLane w a o.b.toNat) s
def execVshri (o : RRR) (x : Ext) (s : State) : Out := intLanes1 2 o x (fun w a => shrLane w a o.b.toNat) s
def execVsrai (o : RRR) (x : Ext) (s : State) : Out := intLanes1 2 o x (fun w a => sraLane w a o.b.toNat) s

/-- VCLMUL (R117): m 3 the low half, m 7 bits 126:64. -/
def execVclmul (o : RRR) (x : Ext) (s : State) : Out :=
  intLanes 2 o x (fun _ a b => if o.m = 3 then clMul 64 a b % 2 ^ 64 else clMul 64 a b / 2 ^ 64) s

/-- A condition code 0-5 on two integers (R35, R118). -/
def laneCond (code : Nat) (a b : Int) : Bool :=
  match code with
  | 0 => a == b
  | 1 => a != b
  | 2 => a < b
  | 3 => b ≤ a
  | 4 => a ≤ b
  | _ => b < a

/-- A mask from lane conditions; inactive lanes give 0 (R109, R118). -/
def maskFrom (active : Nat → Bool) (l : List Bool) : Word :=
  BitVec.ofNat 64 (joinNat 1 (l.zipIdx.map fun e => if e.1 && active e.2 then 1 else 0))

/-- VCMP (R118): d[2:0] the destination mask, d[5:3] the condition code. -/
def execVcmp (o : RRR) (x : Ext) (s : State) : Out :=
  let w := typeWidth o.m.toNat
  checked (vecFaults [o.a, o.b] none (w / 8)) 1 (onTile fun t =>
    let r := (t.lanesOf o.a w).zipWith (fun a b =>
      laneCond (o.d.toNat / 8) (laneInt o.m.toNat w a) (laneInt o.m.toNat w b)) (t.lanesOf o.b w)
    (t.useAll [o.a, o.b] (w / 8)).landK (low3 o.d) (maskFrom (t.active x) r) 0 2) s

/-- VSEL (R119): lane i from a where the selector's bit is 1, else from b. -/
def execVsel (o : RRR) (x : Ext) (s : State) : Out :=
  let w := typeWidth o.m.toNat
  checked (vecFaults [o.a, o.b] (some o.d) (w / 8)) 1 (onTile fun t =>
    let k := t.ct.cx.rdK (x.bits.extractLsb' 3 3)
    let r := ofLanes w (((t.lanesOf o.a w).zip (t.lanesOf o.b w)).zipIdx.map fun e =>
      if k.getLsbD e.2 then e.1.1 else e.1.2)
    (t.useAll [o.a, o.b] (w / 8)).vWrite o.d (w / 8) (laneCount w) r (fun _ => true) 0 2 1) s

/-! ### Mask ops (R120) -/

/-- k[d] ← f(k[a], k[b]), L = 2. -/
def maskOp (o : RRR) (f : Word → Word → Word) (s : State) : Out :=
  onTile (fun t => t.landK (low3 o.d) (f (t.ct.cx.rdK (low3 o.a)) (t.ct.cx.rdK (low3 o.b))) 0 2) s

def execKand (o : RRR) (s : State) : Out := maskOp o (· &&& ·) s
def execKor (o : RRR) (s : State) : Out := maskOp o (· ||| ·) s
def execKxor (o : RRR) (s : State) : Out := maskOp o (· ^^^ ·) s
def execKnot (o : RRR) (s : State) : Out := maskOp o (fun a _ => ~~~a) s

/-- KPOPC (R120). -/
def execKpopc (o : RRR) (s : State) : Out :=
  onTile (fun t => t.landS o.d (BitVec.ofNat 64 (popCount 64 (t.ct.cx.rdK (low3 o.a)).toNat)) 2 1) s

/-- KMOV (R120): m 0 scalar to mask, 1 mask to scalar, 2 mask to mask. -/
def execKmov (o : RRR) (s : State) : Out :=
  onTile (fun t =>
    match o.m.toNat with
    | 0 => t.landK (low3 o.d) (t.s o.a) 0 2
    | 1 => t.landS o.d (t.ct.cx.rdK (low3 o.a)) 2 1
    | _ => t.landK (low3 o.d) (t.ct.cx.rdK (low3 o.a)) 0 2) s

end Sys2Proof.Machine
end

