-- ==== Sys2Proof/Machine/Pip.lean ====
section
/-!
DEFINITION. The Pip generator (08 R240-R244): the block function, the Gaussian value, and the ops that use them.
-/
namespace Sys2Proof.Machine

/-- Left rotation of a 32-bit word (R241). -/
def rotl32 (x r : Nat) : Nat := (x * 2 ^ r + x / 2 ^ (32 - r)) % 2 ^ 32

/-- The rotations of R241. -/
def rhoA : List Nat := [13, 15, 26, 17, 11, 24, 9, 21, 5, 28]
def rhoB : List Nat := [16, 23, 6, 29, 19, 7, 27, 14, 18, 12]

/-- The four words of the block function's state. -/
structure PipState where
  h0 : Nat
  h1 : Nat
  h2 : Nat
  h3 : Nat
  deriving DecidableEq, Repr

/-- 32-bit word `i` of the 128-bit key (R241). -/
def keyWord (key i : Nat) : Nat := bits key (32 * (i % 4) + 31) (32 * (i % 4))

/-- Sum modulo 2^32. -/
def add32 (a b : Nat) : Nat := (a + b) % 2 ^ 32

/-- Round `r` of the block function (R241). -/
def pipRound (key : Nat) (h : PipState) (r : Nat) : PipState :=
  let h0 := add32 h.h0 h.h1
  let h1 := rotl32 h.h1 (rhoA.getD r 0) ^^^ h0
  let h2 := add32 h.h2 h.h3
  let h3 := rotl32 h.h3 (rhoB.getD r 0) ^^^ h2
  if r % 2 = 0 then ⟨h0, h3, h2, h1⟩
  else
    let m := (r + 1) / 2
    ⟨add32 h0 (keyWord key m), add32 h3 (keyWord key (1 + m)), add32 h2 (keyWord key (2 + m)),
      add32 (add32 h1 (keyWord key (3 + m))) m⟩

/-- block(C) under a key (R241). -/
def pipBlock (key ctr : Nat) : Nat :=
  let w (i : Nat) : Nat := add32 (keyWord ctr i) (keyWord key i)
  let h := (List.range 10).foldl (pipRound key) ⟨w 0, w 1, w 2, w 3⟩
  h.h0 + 2 ^ 32 * h.h1 + 2 ^ 64 * h.h2 + 2 ^ 96 * h.h3

/-- 2^10 × ε(C) (R242). -/
def pipGauss (key ctr : Nat) : Int :=
  let b := pipBlock key (ctr % 2 ^ 128)
  ((sumNat ((List.range 12).map fun j => bits b (10 * j + 9) (10 * j)) : Nat) : Int) - 6138

/-- ε(C) as binary32, exact (R242). -/
def pipGaussF32 (key ctr : Nat) : Nat :=
  let z := pipGauss key ctr
  ((bfmt 10).make 0 (z < 0) z.natAbs (-10) false).val

/-- The key of a context (R240). -/
def Ctx.pipKey (x : Ctx) : Nat := x.pipkeylo.toNat + 2 ^ 64 * x.pipkeyhi.toNat

/-- TVAL of an engine that is occupied (R229). -/
def engineTval (engine : Nat) : Nat := 0b1001 * 2 ^ 60 + engine

/-- Occupy the Pip generator for `n` cycles (R229). -/
def Tile.takePip (t : Tile) (n slot : Nat) : Tile :=
  { (t.collide (t.c < t.pipBusy) (engineTval 2) slot) with pipBusy := t.c + n }

/-- The counter s[a+1] ‖ s[a] (R243). -/
def Tile.pipCounter (t : Tile) (a : BitVec 6) : Nat := t.sN a + 2 ^ 64 * t.sN (a + 1)

/-- VRNG (R243): four blocks, 128 bits each. -/
def execVrng (o : RRR) (s : State) : Out :=
  checked (vecFaults [] (some o.d) 8) 1 (onTile fun t =>
    let bs := (List.range 4).map fun i => pipBlock t.ct.cx.pipKey ((t.pipCounter o.a + i) % 2 ^ 128)
    (t.takePip 1 1).vWrite o.d 8 8 (ofLanes 128 bs) (fun _ => true) 0 6 1) s

/-- VGAUSS (R243): sixteen Gaussian values as .f32. -/
def execVgauss (o : RRR) (s : State) : Out :=
  checked (vecFaults [] (some o.d) 4) 1 (onTile fun t =>
    let vs := (List.range 16).map fun i => pipGaussF32 t.ct.cx.pipKey (t.pipCounter o.a + i)
    (t.takePip 1 1).vWrite o.d 4 16 (ofLanes 32 vs) (fun _ => true) 0 6 1) s

/-- PIPM (R244): MEMB ← ext[5:0] ‖ cnt, for ops issued from c+1. -/
def execPipm (o : XM) (x : Ext) (s : State) : Out :=
  onTile (·.later (.pipmemb (BitVec.ofNat 64 (immCard 10 o.cnt.toNat x % 2 ^ 16)))) s

end Sys2Proof.Machine
end

