-- ==== Sys2Proof/Decode.lean ====
section
/-!
DEFINITION. Decoding op words and bundles, and the encoder (spec 01 R22-R34, R41-R44, R52, R53). Total on any words:
what is no instruction is rejected by name. Reserved values of a decoded op are `Instr.wf`'s.
-/
namespace Sys2Proof

/-! ### Fields of an op word (R22, R32) -/

def OpWord.s (w : OpWord) : Bool := w.getMsbD 0
def OpWord.slot (w : OpWord) : BitVec 2 := w.extractLsb' 29 2
def OpWord.op (w : OpWord) : BitVec 7 := w.extractLsb' 22 7
def OpWord.operands (w : OpWord) : BitVec 22 := w.extractLsb' 0 22

def OpWord.rrr (w : OpWord) : RRR :=
  ⟨w.extractLsb' 16 6, w.extractLsb' 10 6, w.extractLsb' 4 6, w.extractLsb' 0 4⟩
def OpWord.ri (w : OpWord) : RI := ⟨w.extractLsb' 16 6, w.extractLsb' 10 6, w.extractLsb' 0 10⟩
def OpWord.i16 (w : OpWord) : I16 := ⟨w.extractLsb' 16 6, w.extractLsb' 0 16⟩
def OpWord.bp (w : OpWord) : BP := ⟨w.extractLsb' 19 3, w.extractLsb' 0 19⟩
def OpWord.bx (w : OpWord) : BX := ⟨w.extractLsb' 19 3, w.extractLsb' 16 3, w.extractLsb' 12 4⟩
def OpWord.lp (w : OpWord) : LP := ⟨w.extractLsb' 16 6, w.extractLsb' 12 4, w.extractLsb' 0 12⟩
def OpWord.mm (w : OpWord) : MM :=
  ⟨w.extractLsb' 16 6, w.extractLsb' 10 6, w.extractLsb' 7 3, w.extractLsb' 0 7⟩
def OpWord.ch (w : OpWord) : CH := ⟨w.extractLsb' 16 6, w.extractLsb' 13 3⟩
def OpWord.xm (w : OpWord) : XM :=
  ⟨w.extractLsb' 18 4, w.extractLsb' 14 4, w.extractLsb' 10 4, w.extractLsb' 0 10⟩

def RRR.word (o : RRR) : BitVec 22 := o.d ++ o.a ++ o.b ++ o.m
def RI.word (o : RI) : BitVec 22 := o.d ++ o.a ++ o.imm
def I16.word (o : I16) : BitVec 22 := o.d ++ o.imm
def BP.word (o : BP) : BitVec 22 := o.b ++ o.disp
def BX.word (o : BX) : BitVec 22 := o.b ++ o.q ++ o.f ++ (0 : BitVec 12)
def LP.word (o : LP) : BitVec 22 := o.s ++ o.f ++ o.e
def MM.word (o : MM) : BitVec 22 := o.t ++ o.base ++ o.ty ++ o.off
def CH.word (o : CH) : BitVec 22 := o.t ++ o.lane ++ (0 : BitVec 13)
def XM.word (o : XM) : BitVec 22 := o.dst ++ o.sa ++ o.sb ++ o.cnt

/-- Why a word or bundle is no instruction (R52, R53 orders 1-4). -/
inductive Malformed where
  /-- a zero word (R30) -/
  | zeroWord
  /-- a word out of slot order, a duplicated slot, a fifth word or a misplaced header (R24) -/
  | slotOrder
  /-- an op number absent from its slot's table -/
  | undefinedOp
  /-- a bit that is zero by the format or the map is set -/
  | mustBeZero
  /-- extension bits received by an op that uses none (R27) -/
  | extension
  /-- a header with bit 0 or an ext field for an absent word set (R25) -/
  | header
  deriving DecidableEq, Repr

/-- The bits of `mask` must be zero. -/
def zeros (w : OpWord) (mask : BitVec 22) (i : Instr) : Except Malformed Instr :=
  if w.operands &&& mask = 0 then .ok i else .error .mustBeZero

/-- The bits of `mask` have the one value the map gives them (the element type of the decimal lane ops). -/
def fixed (w : OpWord) (mask v : BitVec 22) (i : Instr) : Except Malformed Instr :=
  if w.operands &&& mask = v then .ok i else .error .mustBeZero

/-- The op uses no extension bits: it received none or zero (R27). -/
def noExt (x : Ext) (r : Except Malformed Instr) : Except Malformed Instr :=
  if x.bits = 0 then r else .error .extension

/-- Slot C: the op words of R41. -/
def decodeC (w : OpWord) (x : Ext) : Except Malformed Instr :=
  match w.op.toNat with
  | 0x00 => noExt x (zeros w 0x3fffff .nop)
  | 0x01 => noExt x (.ok (.bprep w.bp))
  | 0x02 => noExt x (zeros w 0x3803ff (.bprepr w.rrr))
  | 0x03 => noExt x (zeros w 0xefff (.bt w.bx))
  | 0x04 => noExt x (zeros w 0xefff (.bf w.bx))
  | 0x05 => noExt x (zeros w 0x7efff (.ba w.bx))
  | 0x06 => noExt x (zeros w 0x7efff (.call w.bx))
  | 0x07 => noExt x (zeros w 0x3fffff (.ret w.bx))
  | 0x08 => noExt x (zeros w 0x7efff (.binv w.bx))
  | 0x09 => zeros w 0x3000 (.loop w.lp x)
  | 0x0a => zeros w 0x3000 (.loopi w.lp x)
  | 0x0b => .ok (.loopp w.lp x)
  | 0x0c => noExt x (zeros w 0x38efff (.lexit w.bx))
  | 0x0d => noExt x (zeros w 0xfc00 (.lidx w.ri))
  | 0x0e => zeros w 0x3f0000 (.seg w.i16 x)
  | 0x0f => noExt x (zeros w 0x3fffff .nodeend)
  | 0x10 => noExt x (zeros w 0x3f03ff (.condw w.rrr))
  | 0x11 => noExt x (zeros w 0x3ffff8 (.phase w.i16))
  | 0x12 => zeros w 0x3f0000 (.waitc w.ri x)
  | 0x13 => noExt x (zeros w 0xfc00 (.rdcyc w.ri))
  | 0x14 => noExt x (zeros w 0x3ffff8 (.calign w.i16))
  | 0x15 => noExt x (zeros w 0x3ffff8 (.fence w.i16))
  | 0x16 => zeros w 0x3f0000 (.trap w.i16 x)
  | 0x17 => noExt x (zeros w 0x3fffff .tret)
  | 0x18 => .ok (.rep w.i16 x)
  | 0x19 => noExt x (zeros w 0x380008 (.cmp w.rrr))
  | 0x1a => .ok (.cmpi w.ri x)
  | 0x1b => noExt x (zeros w 0x38e380 (.qop w.rrr))
  | 0x1c => noExt x (zeros w 0x3f0 (.qmov w.rrr))
  | 0x1d => noExt x (zeros w 0x3f000f (.schk w.rrr))
  | 0x1e => noExt x (zeros w 0xf000 (.csrr w.i16))
  | 0x1f => noExt x (zeros w 0xf000 (.csrw w.i16))
  | 0x20 => noExt x (zeros w 0xf (.add w.rrr))
  | 0x21 => noExt x (zeros w 0xf (.sub w.rrr))
  | 0x22 => noExt x (zeros w 0xf (.and w.rrr))
  | 0x23 => noExt x (zeros w 0xf (.or w.rrr))
  | 0x24 => noExt x (zeros w 0xf (.xor w.rrr))
  | 0x25 => noExt x (zeros w 0xf (.andn w.rrr))
  | 0x26 => noExt x (zeros w 0xf (.shl w.rrr))
  | 0x27 => noExt x (zeros w 0xf (.shr w.rrr))
  | 0x28 => noExt x (zeros w 0xf (.sra w.rrr))
  | 0x29 => noExt x (zeros w 0xf (.rol w.rrr))
  | 0x2a => noExt x (zeros w 0xf (.mul w.rrr))
  | 0x2b => noExt x (.ok (.mulh w.rrr))
  | 0x2c => noExt x (.ok (.div w.rrr))
  | 0x2d => noExt x (.ok (.rem w.rrr))
  | 0x2e => noExt x (.ok (.min w.rrr))
  | 0x2f => noExt x (.ok (.max w.rrr))
  | 0x30 => noExt x (zeros w 0x3ff (.clz w.rrr))
  | 0x31 => noExt x (zeros w 0x3ff (.ctz w.rrr))
  | 0x32 => noExt x (zeros w 0x3ff (.popc w.rrr))
  | 0x33 => noExt x (zeros w 0x3f0 (.sext w.rrr))
  | 0x34 => noExt x (zeros w 0x3f0 (.zext w.rrr))
  | 0x35 => noExt x (zeros w 0xf (.clmul w.rrr))
  | 0x36 => noExt x (zeros w 0xf (.clmulh w.rrr))
  | 0x37 => .ok (.sel w.rrr x)
  | 0x38 => .ok (.addi w.ri x)
  | 0x39 => .ok (.andi w.ri x)
  | 0x3a => .ok (.ori w.ri x)
  | 0x3b => .ok (.xori w.ri x)
  | 0x3c => noExt x (zeros w 0x3c0 (.shli w.ri))
  | 0x3d => noExt x (zeros w 0x3c0 (.shri w.ri))
  | 0x3e => noExt x (zeros w 0x3c0 (.srai w.ri))
  | 0x3f => .ok (.limm w.i16 x)
  | 0x40 => .ok (.lins w.i16 x)
  | 0x41 => noExt x (zeros w 0xf (.fadd w.rrr))
  | 0x42 => noExt x (zeros w 0xf (.fsub w.rrr))
  | 0x43 => noExt x (zeros w 0xf (.fmul w.rrr))
  | 0x44 => noExt x (zeros w 0xf (.fdiv w.rrr))
  | 0x45 => noExt x (zeros w 0x3ff (.fsqrt w.rrr))
  | 0x46 => zeros w 0xf (.fma w.rrr x)
  | 0x47 => noExt x (zeros w 0xf (.fmin w.rrr))
  | 0x48 => noExt x (zeros w 0xf (.fmax w.rrr))
  | 0x49 => noExt x (zeros w 0x380008 (.fcmp w.rrr))
  | 0x4a => noExt x (zeros w 0x300 (.fcvt w.rrr))
  | 0x4b => noExt x (zeros w 0x3ff (.fclass w.rrr))
  | 0x50 => noExt x (zeros w 0xf (.dadd w.rrr))
  | 0x51 => noExt x (zeros w 0xf (.dsub w.rrr))
  | 0x52 => noExt x (zeros w 0xf (.dmul w.rrr))
  | 0x53 => noExt x (zeros w 0xf (.ddiv w.rrr))
  | 0x54 => zeros w 0xf (.dfma w.rrr x)
  | 0x55 => noExt x (zeros w 0xf (.dquant w.rrr))
  | 0x56 => noExt x (zeros w 0x3f0 (.drint w.rrr))
  | 0x57 => noExt x (zeros w 0x380008 (.dcmp w.rrr))
  | 0x58 => noExt x (zeros w 0x300 (.dcvt w.rrr))
  | 0x59 => noExt x (zeros w 0x3ff (.dclass w.rrr))
  | 0x5a => noExt x (zeros w 0xc3f0 (.mfy w.rrr))
  | 0x5b => noExt x (zeros w 0x3003f0 (.mty w.rrr))
  | 0x5c => noExt x (if w.rrr.m = 1 then zeros w 0x3f03f0 (.rstkPush w.rrr) else zeros w 0xffff (.rstk w.rrr))
  | _ => .error .undefinedOp

/-- Slot V: the op words of R42. -/
def decodeV (w : OpWord) (x : Ext) : Except Malformed Instr :=
  match w.op.toNat with
  | 0x00 => .ok (.vadd w.rrr x)
  | 0x01 => .ok (.vsub w.rrr x)
  | 0x02 => .ok (.vmul w.rrr x)
  | 0x03 => .ok (.vmulh w.rrr x)
  | 0x04 => .ok (.vand w.rrr x)
  | 0x05 => .ok (.vor w.rrr x)
  | 0x06 => .ok (.vxor w.rrr x)
  | 0x07 => .ok (.vandn w.rrr x)
  | 0x08 => .ok (.vshl w.rrr x)
  | 0x09 => .ok (.vshr w.rrr x)
  | 0x0a => .ok (.vsra w.rrr x)
  | 0x0b => .ok (.vmin w.rrr x)
  | 0x0c => .ok (.vmax w.rrr x)
  | 0x0d => zeros w 0x3fc (.vabs w.rrr x)
  | 0x0e => .ok (.vadds w.rrr x)
  | 0x0f => .ok (.vsubs w.rrr x)
  | 0x10 => .ok (.vcmp w.rrr x)
  | 0x11 => .ok (.vsel w.rrr x)
  | 0x12 => .ok (.vclmul w.rrr x)
  | 0x13 => zeros w 0x3f0 (.vpopc w.rrr x)
  | 0x14 => zeros w 0x3f0 (.vclz w.rrr x)
  | 0x15 => .ok (.vshli w.rrr x)
  | 0x16 => .ok (.vshri w.rrr x)
  | 0x17 => .ok (.vsrai w.rrr x)
  | 0x20 => .ok (.vfadd w.rrr x)
  | 0x21 => .ok (.vfsub w.rrr x)
  | 0x22 => .ok (.vfmul w.rrr x)
  | 0x23 => .ok (.vfma w.rrr x)
  | 0x24 => .ok (.vfdiv w.rrr x)
  | 0x25 => zeros w 0x3f0 (.vfsqrt w.rrr x)
  | 0x26 => .ok (.vfmin w.rrr x)
  | 0x27 => .ok (.vfmax w.rrr x)
  | 0x28 => .ok (.vfcmp w.rrr x)
  | 0x29 => zeros w 0x300 (.vfcvt w.rrr x)
  | 0x2a => .ok (.vfscale w.rrr x)
  | 0x2b => .ok (.vfsgn w.rrr x)
  | 0x30 => fixed w 0xf 0xc (.vdadd w.rrr x)
  | 0x31 => fixed w 0xf 0xc (.vdsub w.rrr x)
  | 0x32 => fixed w 0xf 0xc (.vdmul w.rrr x)
  | 0x33 => fixed w 0xf 0xc (.vdfma w.rrr x)
  | 0x34 => fixed w 0xf 0xc (.vdquant w.rrr x)
  | 0x35 => fixed w 0xf 0xc (.vdcmp w.rrr x)
  | 0x38 => zeros w 0x3f0 (.vradd w.rrr x)
  | 0x39 => zeros w 0x3f0 (.vrmax w.rrr x)
  | 0x3a => zeros w 0x3f0 (.vrmin w.rrr x)
  | 0x40 => zeros w 0x3f0 (.vbcast w.rrr x)
  | 0x41 => noExt x (.ok (.vext w.rrr))
  | 0x42 => .ok (.vins w.rrr x)
  | 0x43 => .ok (.vperm w.rrr x)
  | 0x44 => .ok (.vslide w.rrr x)
  | 0x45 => zeros w 0x380 (.vcompress w.rrr x)
  | 0x46 => zeros w 0xe3f0 (.viota w.rrr x)
  | 0x50 => noExt x (zeros w 0x38e38f (.kand w.rrr))
  | 0x51 => noExt x (zeros w 0x38e38f (.kor w.rrr))
  | 0x52 => noExt x (zeros w 0x38e38f (.kxor w.rrr))
  | 0x53 => noExt x (zeros w 0x38e3ff (.knot w.rrr))
  | 0x54 => noExt x (zeros w 0xe3ff (.kpopc w.rrr))
  | 0x55 => noExt x (zeros w 0x3f0 (.kmov w.rrr))
  | 0x58 => zeros w 0xc (.vdefer w.rrr x)
  | 0x59 => zeros w 0xc (.vdrain w.rrr x)
  | 0x5a => noExt x (zeros w 0xffff (.dqcnt w.rrr))
  | 0x60 => noExt x (zeros w 0x7ff (.vrng w.rrr))
  | 0x61 => noExt x (zeros w 0x7ff (.vgauss w.rrr))
  | 0x68 => zeros w 0x3f000f (.vchk w.rrr x)
  | 0x70 => zeros w 0xc (.vbqpack w.rrr x)
  | 0x71 => zeros w 0xc (.vbqunpk w.rrr x)
  | _ => .error .undefinedOp

/-- Slot M: the op words of R43. -/
def decodeM (w : OpWord) (x : Ext) : Except Malformed Instr :=
  match w.op.toNat with
  | 0x00 => .ok (.ld w.mm x)
  | 0x01 => .ok (.st w.mm x)
  | 0x02 => zeros w 0x200380 (.vld w.mm x)
  | 0x03 => zeros w 0x200380 (.vst w.mm x)
  | 0x04 => noExt x (zeros w 0x200260 (.vgather w.mm))
  | 0x05 => noExt x (zeros w 0x200260 (.vscatter w.mm))
  | 0x10 => zeros w 0x300380 (.sets w.mm x)
  | 0x11 => noExt x (zeros w 0xc07f (.srd w.mm))
  | 0x12 => noExt x (zeros w 0xc07f (.swr w.mm))
  | 0x13 => noExt x (zeros w 0x30ffff (.srst w.mm))
  | 0x14 => noExt x (zeros w 0xc3f8 (.sget w.mm))
  | 0x18 => .ok (.ldv w.mm x)
  | 0x19 => .ok (.stv w.mm x)
  | 0x1a => zeros w 0x200380 (.vldv w.mm x)
  | 0x1b => zeros w 0x200380 (.vstv w.mm x)
  | 0x20 => noExt x (zeros w 0x1fff (.drive w.ch))
  | 0x21 => noExt x (zeros w 0x1fff (.tap w.ch))
  | 0x22 => noExt x (zeros w 0x201fff (.drives w.ch))
  | 0x23 => noExt x (zeros w 0x201fff (.taps w.ch))
  | 0x28 => zeros w 0x200 (.aadd w.mm x)
  | 0x29 => zeros w 0x200 (.amax w.mm x)
  | 0x2a => zeros w 0x200 (.aswap w.mm x)
  | 0x2b => zeros w 0x10200 (.acas w.mm x)
  | 0x2c => zeros w 0x200 (.aor w.mm x)
  | 0x30 => zeros w 0x300 (.binit w.mm x)
  | 0x31 => zeros w 0x300 (.barv w.mm x)
  | 0x32 => zeros w 0x300 (.bwait w.mm x)
  | 0x33 => zeros w 0x300 (.bbytes w.mm x)
  | 0x38 => zeros w 0x380 (.stage w.mm x)
  | 0x39 => zeros w 0x380 (.stagew w.mm x)
  | 0x3a => noExt x (zeros w 0x3f03ff (.pubs w.mm))
  | 0x3b => noExt x (zeros w 0x3f8 (.hqry w.mm))
  | 0x40 => zeros w 0x380 (.pubidx w.mm x)
  | _ => .error .undefinedOp

/-- Slot X: the op words of R44. -/
def decodeX (w : OpWord) (x : Ext) : Except Malformed Instr :=
  match w.op.toNat with
  | 0x00 => noExt x (zeros w 0x3c00 (.cloadb w.xm))
  | 0x01 => noExt x (zeros w 0x3c00 (.cloadbq w.xm))
  | 0x02 => noExt x (zeros w 0x3800 (.cmm w.xm))
  | 0x03 => noExt x (zeros w 0x3800 (.cmmq w.xm))
  | 0x04 => noExt x (zeros w 0x3fc00 (.caccz w.xm))
  | 0x05 => noExt x (zeros w 0x3f800 (.caccrd w.xm))
  | 0x06 => noExt x (zeros w 0x3c00 (.caccst w.xm))
  | 0x10 => zeros w 0x3ffc00 (.pipm w.xm x)
  | 0x20 => noExt x (zeros w 0x2003f0 (.dmma w.xm))
  | 0x21 => noExt x (zeros w 0x23ffff (.dxz w.xm))
  | 0x22 => noExt x (zeros w 0x203fff (.dxld w.xm))
  | 0x23 => noExt x (zeros w 0x203fff (.dxst w.xm))
  | 0x24 => noExt x (zeros w 0x2003c0 (.dchk w.xm))
  | 0x25 => noExt x (zeros w 0x2003ff (.dxfix w.xm))
  | 0x26 => noExt x (zeros w 0x203c00 (.dxrd w.xm))
  | _ => .error .undefinedOp

/-- An op word with the extension bits it received (R22, R23). -/
def decodeOp (w : OpWord) (x : Ext) : Except Malformed Instr :=
  match w.slot.toNat with
  | 0 => decodeC w x
  | 1 => decodeV w x
  | 2 => decodeM w x
  | _ => decodeX w x

/-- A header word: slot 00, op 0x7F (R24). -/
def OpWord.isHeader (w : OpWord) : Bool := w.slot == 0 && w.op == 0x7f
/-- The pad word (R29). -/
def padWord : OpWord := 0xffc00000
/-- The one-word NOP bundle (R30). -/
def nopWord : OpWord := 0x80000000
/-- ext2, ext3, ext4 of a header (R25). -/
def OpWord.ext2 (w : OpWord) : BitVec 7 := w.extractLsb' 15 7
def OpWord.ext3 (w : OpWord) : BitVec 7 := w.extractLsb' 8 7
def OpWord.ext4 (w : OpWord) : BitVec 7 := w.extractLsb' 1 7

/-- Slots strictly rise, no header after the first word, at most four words (R24, R53 order 3). -/
def slotsRise : List OpWord → Bool
  | [] => true
  | [_] => true
  | w :: v :: r => w.slot.toNat < v.slot.toNat && slotsRise (v :: r)

/-- The words of one bundle with the extension bits each receives: a header lends to the words after it, and a
prefix bundle before this one lends `pfx` to a C op in first place (R25-R27). -/
def lend (ws : List OpWord) (pfx : Ext) : List (OpWord × Ext) :=
  match ws with
  | [] => []
  | h :: r =>
    if h.isHeader then r.zip [some h.ext2, some h.ext3, some h.ext4]
    else (h, pfx) :: r.map (·, none)

/-- A header's own rules: bit 0 zero, and no ext field for an absent word; alone it is a prefix bundle (R25, R26). -/
def headerOk (h : OpWord) (n : Nat) : Bool :=
  !h.getLsbD 0 && (3 ≤ n || h.ext4 == 0) && (2 ≤ n || h.ext3 == 0)

/-- Decode every op, first word first. -/
def decodeOps : List (OpWord × Ext) → Except Malformed (List Instr)
  | [] => .ok []
  | (w, x) :: r => do
    let i ← decodeOp w x
    let is ← decodeOps r
    return i :: is

/-- The ops of one bundle (R53 orders 1, 3 and the structural part of 4). A header alone is the prefix bundle. -/
def decodeBundle (ws : List OpWord) (pfx : Ext) : Except Malformed (List Instr) :=
  if ws.any (· == 0) then .error .zeroWord
  else if 4 < ws.length || !slotsRise ws then .error .slotOrder
  else match ws with
    | [] => .ok []
    | h :: r =>
      if h.isHeader then
        if pfx.isSome || !headerOk h r.length then .error .header
        else if r.isEmpty then .ok [.prefixBundle h.ext2]
        else decodeOps (lend ws none)
      else if h.slot ≠ 0 ∧ pfx.isSome then .error .header
      else decodeOps (lend ws pfx)

/-- What the decoder reads from one word of the opcode table standing alone: a header is the prefix bundle. -/
def decodeTableWord (nbits w : Nat) : Option Instr :=
  if nbits ≠ 32 then none
  else
    let v : OpWord := BitVec.ofNat 32 w
    if v.isHeader then if headerOk v 0 then some (.prefixBundle v.ext2) else none
    else (decodeOp v none).toOption

/-! ### The encoder -/

/-- The bundle of an op word from its slot, op number and operands (R22). -/
def packWord (first : Bool) (slot : BitVec 2) (op : BitVec 7) (o : BitVec 22) : OpWord :=
  BitVec.ofBool first ++ slot ++ op ++ o

/-- Slot and op number of an op (R41-R44); none for an event. -/
def Instr.opNumber : Instr → Option (BitVec 2 × BitVec 7)
  | .nop => some (0, 0x00)
  | .bprep _ => some (0, 0x01)
  | .bprepr _ => some (0, 0x02)
  | .bt _ => some (0, 0x03)
  | .bf _ => some (0, 0x04)
  | .ba _ => some (0, 0x05)
  | .call _ => some (0, 0x06)
  | .ret _ => some (0, 0x07)
  | .binv _ => some (0, 0x08)
  | .loop _ _ => some (0, 0x09)
  | .loopi _ _ => some (0, 0x0a)
  | .loopp _ _ => some (0, 0x0b)
  | .lexit _ => some (0, 0x0c)
  | .lidx _ => some (0, 0x0d)
  | .seg _ _ => some (0, 0x0e)
  | .nodeend => some (0, 0x0f)
  | .condw _ => some (0, 0x10)
  | .phase _ => some (0, 0x11)
  | .waitc _ _ => some (0, 0x12)
  | .rdcyc _ => some (0, 0x13)
  | .calign _ => some (0, 0x14)
  | .fence _ => some (0, 0x15)
  | .trap _ _ => some (0, 0x16)
  | .tret => some (0, 0x17)
  | .rep _ _ => some (0, 0x18)
  | .cmp _ => some (0, 0x19)
  | .cmpi _ _ => some (0, 0x1a)
  | .qop _ => some (0, 0x1b)
  | .qmov _ => some (0, 0x1c)
  | .schk _ => some (0, 0x1d)
  | .csrr _ => some (0, 0x1e)
  | .csrw _ => some (0, 0x1f)
  | .add _ => some (0, 0x20)
  | .sub _ => some (0, 0x21)
  | .and _ => some (0, 0x22)
  | .or _ => some (0, 0x23)
  | .xor _ => some (0, 0x24)
  | .andn _ => some (0, 0x25)
  | .shl _ => some (0, 0x26)
  | .shr _ => some (0, 0x27)
  | .sra _ => some (0, 0x28)
  | .rol _ => some (0, 0x29)
  | .mul _ => some (0, 0x2a)
  | .mulh _ => some (0, 0x2b)
  | .div _ => some (0, 0x2c)
  | .rem _ => some (0, 0x2d)
  | .min _ => some (0, 0x2e)
  | .max _ => some (0, 0x2f)
  | .clz _ => some (0, 0x30)
  | .ctz _ => some (0, 0x31)
  | .popc _ => some (0, 0x32)
  | .sext _ => some (0, 0x33)
  | .zext _ => some (0, 0x34)
  | .clmul _ => some (0, 0x35)
  | .clmulh _ => some (0, 0x36)
  | .sel _ _ => some (0, 0x37)
  | .addi _ _ => some (0, 0x38)
  | .andi _ _ => some (0, 0x39)
  | .ori _ _ => some (0, 0x3a)
  | .xori _ _ => some (0, 0x3b)
  | .shli _ => some (0, 0x3c)
  | .shri _ => some (0, 0x3d)
  | .srai _ => some (0, 0x3e)
  | .limm _ _ => some (0, 0x3f)
  | .lins _ _ => some (0, 0x40)
  | .fadd _ => some (0, 0x41)
  | .fsub _ => some (0, 0x42)
  | .fmul _ => some (0, 0x43)
  | .fdiv _ => some (0, 0x44)
  | .fsqrt _ => some (0, 0x45)
  | .fma _ _ => some (0, 0x46)
  | .fmin _ => some (0, 0x47)
  | .fmax _ => some (0, 0x48)
  | .fcmp _ => some (0, 0x49)
  | .fcvt _ => some (0, 0x4a)
  | .fclass _ => some (0, 0x4b)
  | .dadd _ => some (0, 0x50)
  | .dsub _ => some (0, 0x51)
  | .dmul _ => some (0, 0x52)
  | .ddiv _ => some (0, 0x53)
  | .dfma _ _ => some (0, 0x54)
  | .dquant _ => some (0, 0x55)
  | .drint _ => some (0, 0x56)
  | .dcmp _ => some (0, 0x57)
  | .dcvt _ => some (0, 0x58)
  | .dclass _ => some (0, 0x59)
  | .mfy _ => some (0, 0x5a)
  | .mty _ => some (0, 0x5b)
  | .rstk _ => some (0, 0x5c)
  | .rstkPush _ => some (0, 0x5c)
  | .prefixBundle _ => some (0, 0x7f)
  | .vadd _ _ => some (1, 0x00)
  | .vsub _ _ => some (1, 0x01)
  | .vmul _ _ => some (1, 0x02)
  | .vmulh _ _ => some (1, 0x03)
  | .vand _ _ => some (1, 0x04)
  | .vor _ _ => some (1, 0x05)
  | .vxor _ _ => some (1, 0x06)
  | .vandn _ _ => some (1, 0x07)
  | .vshl _ _ => some (1, 0x08)
  | .vshr _ _ => some (1, 0x09)
  | .vsra _ _ => some (1, 0x0a)
  | .vmin _ _ => some (1, 0x0b)
  | .vmax _ _ => some (1, 0x0c)
  | .vabs _ _ => some (1, 0x0d)
  | .vadds _ _ => some (1, 0x0e)
  | .vsubs _ _ => some (1, 0x0f)
  | .vcmp _ _ => some (1, 0x10)
  | .vsel _ _ => some (1, 0x11)
  | .vclmul _ _ => some (1, 0x12)
  | .vpopc _ _ => some (1, 0x13)
  | .vclz _ _ => some (1, 0x14)
  | .vshli _ _ => some (1, 0x15)
  | .vshri _ _ => some (1, 0x16)
  | .vsrai _ _ => some (1, 0x17)
  | .vfadd _ _ => some (1, 0x20)
  | .vfsub _ _ => some (1, 0x21)
  | .vfmul _ _ => some (1, 0x22)
  | .vfma _ _ => some (1, 0x23)
  | .vfdiv _ _ => some (1, 0x24)
  | .vfsqrt _ _ => some (1, 0x25)
  | .vfmin _ _ => some (1, 0x26)
  | .vfmax _ _ => some (1, 0x27)
  | .vfcmp _ _ => some (1, 0x28)
  | .vfcvt _ _ => some (1, 0x29)
  | .vfscale _ _ => some (1, 0x2a)
  | .vfsgn _ _ => some (1, 0x2b)
  | .vdadd _ _ => some (1, 0x30)
  | .vdsub _ _ => some (1, 0x31)
  | .vdmul _ _ => some (1, 0x32)
  | .vdfma _ _ => some (1, 0x33)
  | .vdquant _ _ => some (1, 0x34)
  | .vdcmp _ _ => some (1, 0x35)
  | .vradd _ _ => some (1, 0x38)
  | .vrmax _ _ => some (1, 0x39)
  | .vrmin _ _ => some (1, 0x3a)
  | .vbcast _ _ => some (1, 0x40)
  | .vext _ => some (1, 0x41)
  | .vins _ _ => some (1, 0x42)
  | .vperm _ _ => some (1, 0x43)
  | .vslide _ _ => some (1, 0x44)
  | .vcompress _ _ => some (1, 0x45)
  | .viota _ _ => some (1, 0x46)
  | .kand _ => some (1, 0x50)
  | .kor _ => some (1, 0x51)
  | .kxor _ => some (1, 0x52)
  | .knot _ => some (1, 0x53)
  | .kpopc _ => some (1, 0x54)
  | .kmov _ => some (1, 0x55)
  | .vdefer _ _ => some (1, 0x58)
  | .vdrain _ _ => some (1, 0x59)
  | .dqcnt _ => some (1, 0x5a)
  | .vrng _ => some (1, 0x60)
  | .vgauss _ => some (1, 0x61)
  | .vchk _ _ => some (1, 0x68)
  | .vbqpack _ _ => some (1, 0x70)
  | .vbqunpk _ _ => some (1, 0x71)
  | .ld _ _ => some (2, 0x00)
  | .st _ _ => some (2, 0x01)
  | .vld _ _ => some (2, 0x02)
  | .vst _ _ => some (2, 0x03)
  | .vgather _ => some (2, 0x04)
  | .vscatter _ => some (2, 0x05)
  | .sets _ _ => some (2, 0x10)
  | .srd _ => some (2, 0x11)
  | .swr _ => some (2, 0x12)
  | .srst _ => some (2, 0x13)
  | .sget _ => some (2, 0x14)
  | .ldv _ _ => some (2, 0x18)
  | .stv _ _ => some (2, 0x19)
  | .vldv _ _ => some (2, 0x1a)
  | .vstv _ _ => some (2, 0x1b)
  | .drive _ => some (2, 0x20)
  | .tap _ => some (2, 0x21)
  | .drives _ => some (2, 0x22)
  | .taps _ => some (2, 0x23)
  | .aadd _ _ => some (2, 0x28)
  | .amax _ _ => some (2, 0x29)
  | .aswap _ _ => some (2, 0x2a)
  | .acas _ _ => some (2, 0x2b)
  | .aor _ _ => some (2, 0x2c)
  | .binit _ _ => some (2, 0x30)
  | .barv _ _ => some (2, 0x31)
  | .bwait _ _ => some (2, 0x32)
  | .bbytes _ _ => some (2, 0x33)
  | .stage _ _ => some (2, 0x38)
  | .stagew _ _ => some (2, 0x39)
  | .pubs _ => some (2, 0x3a)
  | .hqry _ => some (2, 0x3b)
  | .pubidx _ _ => some (2, 0x40)
  | .cloadb _ => some (3, 0x00)
  | .cloadbq _ => some (3, 0x01)
  | .cmm _ => some (3, 0x02)
  | .cmmq _ => some (3, 0x03)
  | .caccz _ => some (3, 0x04)
  | .caccrd _ => some (3, 0x05)
  | .caccst _ => some (3, 0x06)
  | .pipm _ _ => some (3, 0x10)
  | .dmma _ => some (3, 0x20)
  | .dxz _ => some (3, 0x21)
  | .dxld _ => some (3, 0x22)
  | .dxst _ => some (3, 0x23)
  | .dchk _ => some (3, 0x24)
  | .dxfix _ => some (3, 0x25)
  | .dxrd _ => some (3, 0x26)
  | .segmentCountLimit | .bTargetReady _ | .returnEntryReady | .repReissue | .loopBufferIssue | .waitcResume
  | .stagewResume | .fenceResume | .resultLanding | .memoryWriteLanding | .vaultBankAccess | .atomicWindow
  | .barrierWindow | .bwaitWake | .bwaitTimeout | .barrierBreak _ | .commonsSlotService | .missedPromise
  | .channelArrival | .channelEntryDrop | .cimPlaneWrite | .cimAccumulateAdd | .dmmaLanding | .xRegisterLanding
  | .checksum | .engineStreamAccess | .finjWrite _ | .finjFire | .imemShareReload | .groupHalt
  | .nodeRerunStart | .trapStop | .handlerEntry | .contextResume | .handlerFaultEnd | .silentErrorKill
  | .preemptDelivery _ | .contextSwitch | .contextSwitchIn | .contextStreamOut | .contextStreamIn | .partitionSwitchIn _
  | .nodeEnd _ _ | .checkpointComplete _ | .walkerCodeStart _ _ | .walkerBranch _ _ | .walkerWhile _ _ | .walkerCollect _ _
  | .walkerFinish _ _ | .jobStart _ | .dualCompare _ | .beacon | .beaconArrival _ _ | .drift
  | .powerDecision _ _ | .thermalPause | .thermalResume | .thermalTimeout | .carrierTrip | .unitRetirement _
  | .jobReplacement _ | .checkpointRollback _ | .rollbackRestart _ | .huskWindowSwapin _ _ | .translation | .huskLocalLineWrite
  | .huskSourceRead | .huskPromiseMiss _ _ | .huskBarrierDecrement | .portLinkDown _ | .linkDownTimeout | .handoverTimeout
  | .stailWrite _ _ | .cheadWrite _ _ | .mcringWrite _ _ | .barRegisterWrite _ _ _ | .submissionConsume _ _ _ | .badSeq _
  | .completionEntryWrite _ | .identify _ | .attest _ | .claim _ | .handover _ | .accept _
  | .release _ | .queryJob _ | .queryMap _ | .readDigest _ | .readUtil _ | .readErrors _
  | .loadImage _ | .verifyImage _ | .admitJob _ | .launch _ | .cancel _ | .preempt _
  | .migrateOut _ | .checkpoint _ | .restore _ | .retireUnit _ | .copyIn _ | .copyOut _
  | .setTime _ | .powerGood | .moduleReset | .bootComplete | .podJoin _ | .tickEdge
  | .ptpMessage _ | .grandmasterLoss | .podJobStart _ _ | .fabricSlotSend _ | .fabricBatchPublish _ _ | .fabricBeacon _ _ _
  | .fabricLaneFail _ _ | .fabricPortFail _ | .podMemberLost _ | .portLinkUp _ | .retimingBufferSlip _ _ | .softError _ _
  | .counterCopyFault _ _ _ | .thermalAdmissionResume => none

/-- The operand bits 21:0 of an op (R32). A prefix bundle's bits 21:15 are its ext2 (R25). -/
def Instr.operandBits : Instr → BitVec 22
  | .nop => 0
  | .bprep o => o.word
  | .bprepr o => o.word
  | .bt o => o.word
  | .bf o => o.word
  | .ba o => o.word
  | .call o => o.word
  | .ret o => o.word
  | .binv o => o.word
  | .loop o _ => o.word
  | .loopi o _ => o.word
  | .loopp o _ => o.word
  | .lexit o => o.word
  | .lidx o => o.word
  | .seg o _ => o.word
  | .nodeend => 0
  | .condw o => o.word
  | .phase o => o.word
  | .waitc o _ => o.word
  | .rdcyc o => o.word
  | .calign o => o.word
  | .fence o => o.word
  | .trap o _ => o.word
  | .tret => 0
  | .rep o _ => o.word
  | .cmp o => o.word
  | .cmpi o _ => o.word
  | .qop o => o.word
  | .qmov o => o.word
  | .schk o => o.word
  | .csrr o => o.word
  | .csrw o => o.word
  | .add o => o.word
  | .sub o => o.word
  | .and o => o.word
  | .or o => o.word
  | .xor o => o.word
  | .andn o => o.word
  | .shl o => o.word
  | .shr o => o.word
  | .sra o => o.word
  | .rol o => o.word
  | .mul o => o.word
  | .mulh o => o.word
  | .div o => o.word
  | .rem o => o.word
  | .min o => o.word
  | .max o => o.word
  | .clz o => o.word
  | .ctz o => o.word
  | .popc o => o.word
  | .sext o => o.word
  | .zext o => o.word
  | .clmul o => o.word
  | .clmulh o => o.word
  | .sel o _ => o.word
  | .addi o _ => o.word
  | .andi o _ => o.word
  | .ori o _ => o.word
  | .xori o _ => o.word
  | .shli o => o.word
  | .shri o => o.word
  | .srai o => o.word
  | .limm o _ => o.word
  | .lins o _ => o.word
  | .fadd o => o.word
  | .fsub o => o.word
  | .fmul o => o.word
  | .fdiv o => o.word
  | .fsqrt o => o.word
  | .fma o _ => o.word
  | .fmin o => o.word
  | .fmax o => o.word
  | .fcmp o => o.word
  | .fcvt o => o.word
  | .fclass o => o.word
  | .dadd o => o.word
  | .dsub o => o.word
  | .dmul o => o.word
  | .ddiv o => o.word
  | .dfma o _ => o.word
  | .dquant o => o.word
  | .drint o => o.word
  | .dcmp o => o.word
  | .dcvt o => o.word
  | .dclass o => o.word
  | .mfy o => o.word
  | .mty o => o.word
  | .rstk o => o.word
  | .rstkPush o => o.word
  | .prefixBundle e => e ++ (0 : BitVec 15)
  | .vadd o _ => o.word
  | .vsub o _ => o.word
  | .vmul o _ => o.word
  | .vmulh o _ => o.word
  | .vand o _ => o.word
  | .vor o _ => o.word
  | .vxor o _ => o.word
  | .vandn o _ => o.word
  | .vshl o _ => o.word
  | .vshr o _ => o.word
  | .vsra o _ => o.word
  | .vmin o _ => o.word
  | .vmax o _ => o.word
  | .vabs o _ => o.word
  | .vadds o _ => o.word
  | .vsubs o _ => o.word
  | .vcmp o _ => o.word
  | .vsel o _ => o.word
  | .vclmul o _ => o.word
  | .vpopc o _ => o.word
  | .vclz o _ => o.word
  | .vshli o _ => o.word
  | .vshri o _ => o.word
  | .vsrai o _ => o.word
  | .vfadd o _ => o.word
  | .vfsub o _ => o.word
  | .vfmul o _ => o.word
  | .vfma o _ => o.word
  | .vfdiv o _ => o.word
  | .vfsqrt o _ => o.word
  | .vfmin o _ => o.word
  | .vfmax o _ => o.word
  | .vfcmp o _ => o.word
  | .vfcvt o _ => o.word
  | .vfscale o _ => o.word
  | .vfsgn o _ => o.word
  | .vdadd o _ => o.word
  | .vdsub o _ => o.word
  | .vdmul o _ => o.word
  | .vdfma o _ => o.word
  | .vdquant o _ => o.word
  | .vdcmp o _ => o.word
  | .vradd o _ => o.word
  | .vrmax o _ => o.word
  | .vrmin o _ => o.word
  | .vbcast o _ => o.word
  | .vext o => o.word
  | .vins o _ => o.word
  | .vperm o _ => o.word
  | .vslide o _ => o.word
  | .vcompress o _ => o.word
  | .viota o _ => o.word
  | .kand o => o.word
  | .kor o => o.word
  | .kxor o => o.word
  | .knot o => o.word
  | .kpopc o => o.word
  | .kmov o => o.word
  | .vdefer o _ => o.word
  | .vdrain o _ => o.word
  | .dqcnt o => o.word
  | .vrng o => o.word
  | .vgauss o => o.word
  | .vchk o _ => o.word
  | .vbqpack o _ => o.word
  | .vbqunpk o _ => o.word
  | .ld o _ => o.word
  | .st o _ => o.word
  | .vld o _ => o.word
  | .vst o _ => o.word
  | .vgather o => o.word
  | .vscatter o => o.word
  | .sets o _ => o.word
  | .srd o => o.word
  | .swr o => o.word
  | .srst o => o.word
  | .sget o => o.word
  | .ldv o _ => o.word
  | .stv o _ => o.word
  | .vldv o _ => o.word
  | .vstv o _ => o.word
  | .drive o => o.word
  | .tap o => o.word
  | .drives o => o.word
  | .taps o => o.word
  | .aadd o _ => o.word
  | .amax o _ => o.word
  | .aswap o _ => o.word
  | .acas o _ => o.word
  | .aor o _ => o.word
  | .binit o _ => o.word
  | .barv o _ => o.word
  | .bwait o _ => o.word
  | .bbytes o _ => o.word
  | .stage o _ => o.word
  | .stagew o _ => o.word
  | .pubs o => o.word
  | .hqry o => o.word
  | .pubidx o _ => o.word
  | .cloadb o => o.word
  | .cloadbq o => o.word
  | .cmm o => o.word
  | .cmmq o => o.word
  | .caccz o => o.word
  | .caccrd o => o.word
  | .caccst o => o.word
  | .pipm o _ => o.word
  | .dmma o => o.word
  | .dxz o => o.word
  | .dxld o => o.word
  | .dxst o => o.word
  | .dchk o => o.word
  | .dxfix o => o.word
  | .dxrd o => o.word
  | .segmentCountLimit | .bTargetReady _ | .returnEntryReady | .repReissue | .loopBufferIssue | .waitcResume
  | .stagewResume | .fenceResume | .resultLanding | .memoryWriteLanding | .vaultBankAccess | .atomicWindow
  | .barrierWindow | .bwaitWake | .bwaitTimeout | .barrierBreak _ | .commonsSlotService | .missedPromise
  | .channelArrival | .channelEntryDrop | .cimPlaneWrite | .cimAccumulateAdd | .dmmaLanding | .xRegisterLanding
  | .checksum | .engineStreamAccess | .finjWrite _ | .finjFire | .imemShareReload | .groupHalt
  | .nodeRerunStart | .trapStop | .handlerEntry | .contextResume | .handlerFaultEnd | .silentErrorKill
  | .preemptDelivery _ | .contextSwitch | .contextSwitchIn | .contextStreamOut | .contextStreamIn | .partitionSwitchIn _
  | .nodeEnd _ _ | .checkpointComplete _ | .walkerCodeStart _ _ | .walkerBranch _ _ | .walkerWhile _ _ | .walkerCollect _ _
  | .walkerFinish _ _ | .jobStart _ | .dualCompare _ | .beacon | .beaconArrival _ _ | .drift
  | .powerDecision _ _ | .thermalPause | .thermalResume | .thermalTimeout | .carrierTrip | .unitRetirement _
  | .jobReplacement _ | .checkpointRollback _ | .rollbackRestart _ | .huskWindowSwapin _ _ | .translation | .huskLocalLineWrite
  | .huskSourceRead | .huskPromiseMiss _ _ | .huskBarrierDecrement | .portLinkDown _ | .linkDownTimeout | .handoverTimeout
  | .stailWrite _ _ | .cheadWrite _ _ | .mcringWrite _ _ | .barRegisterWrite _ _ _ | .submissionConsume _ _ _ | .badSeq _
  | .completionEntryWrite _ | .identify _ | .attest _ | .claim _ | .handover _ | .accept _
  | .release _ | .queryJob _ | .queryMap _ | .readDigest _ | .readUtil _ | .readErrors _
  | .loadImage _ | .verifyImage _ | .admitJob _ | .launch _ | .cancel _ | .preempt _
  | .migrateOut _ | .checkpoint _ | .restore _ | .retireUnit _ | .copyIn _ | .copyOut _
  | .setTime _ | .powerGood | .moduleReset | .bootComplete | .podJoin _ | .tickEdge
  | .ptpMessage _ | .grandmasterLoss | .podJobStart _ _ | .fabricSlotSend _ | .fabricBatchPublish _ _ | .fabricBeacon _ _ _
  | .fabricLaneFail _ _ | .fabricPortFail _ | .podMemberLost _ | .portLinkUp _ | .retimingBufferSlip _ _ | .softError _ _
  | .counterCopyFault _ _ _ | .thermalAdmissionResume => 0

/-- The extension bits an op carries (R27). -/
def Instr.extBits : Instr → Ext
  | .loop _ x | .loopi _ x | .loopp _ x | .seg _ x | .waitc _ x | .trap _ x | .rep _ x | .cmpi _ x
  | .sel _ x | .addi _ x | .andi _ x | .ori _ x | .xori _ x | .limm _ x | .lins _ x | .fma _ x
  | .dfma _ x | .vadd _ x | .vsub _ x | .vmul _ x | .vmulh _ x | .vand _ x | .vor _ x | .vxor _ x
  | .vandn _ x | .vshl _ x | .vshr _ x | .vsra _ x | .vmin _ x | .vmax _ x | .vabs _ x | .vadds _ x
  | .vsubs _ x | .vcmp _ x | .vsel _ x | .vclmul _ x | .vpopc _ x | .vclz _ x | .vshli _ x | .vshri _ x
  | .vsrai _ x | .vfadd _ x | .vfsub _ x | .vfmul _ x | .vfma _ x | .vfdiv _ x | .vfsqrt _ x | .vfmin _ x
  | .vfmax _ x | .vfcmp _ x | .vfcvt _ x | .vfscale _ x | .vfsgn _ x | .vdadd _ x | .vdsub _ x | .vdmul _ x
  | .vdfma _ x | .vdquant _ x | .vdcmp _ x | .vradd _ x | .vrmax _ x | .vrmin _ x | .vbcast _ x | .vins _ x
  | .vperm _ x | .vslide _ x | .vcompress _ x | .viota _ x | .vdefer _ x | .vdrain _ x | .vchk _ x | .vbqpack _ x
  | .vbqunpk _ x | .ld _ x | .st _ x | .vld _ x | .vst _ x | .sets _ x | .ldv _ x | .stv _ x
  | .vldv _ x | .vstv _ x | .aadd _ x | .amax _ x | .aswap _ x | .acas _ x | .aor _ x | .binit _ x
  | .barv _ x | .bwait _ x | .bbytes _ x | .stage _ x | .stagew _ x | .pubidx _ x | .pipm _ x => x
  | .nop | .bprep _ | .bprepr _ | .bt _ | .bf _ | .ba _ | .call _ | .ret _
  | .binv _ | .lexit _ | .lidx _ | .nodeend | .condw _ | .phase _ | .rdcyc _ | .calign _
  | .fence _ | .tret | .cmp _ | .qop _ | .qmov _ | .schk _ | .csrr _ | .csrw _
  | .add _ | .sub _ | .and _ | .or _ | .xor _ | .andn _ | .shl _ | .shr _
  | .sra _ | .rol _ | .mul _ | .mulh _ | .div _ | .rem _ | .min _ | .max _
  | .clz _ | .ctz _ | .popc _ | .sext _ | .zext _ | .clmul _ | .clmulh _ | .shli _
  | .shri _ | .srai _ | .fadd _ | .fsub _ | .fmul _ | .fdiv _ | .fsqrt _ | .fmin _
  | .fmax _ | .fcmp _ | .fcvt _ | .fclass _ | .dadd _ | .dsub _ | .dmul _ | .ddiv _
  | .dquant _ | .drint _ | .dcmp _ | .dcvt _ | .dclass _ | .mfy _ | .mty _ | .rstk _
  | .rstkPush _ | .prefixBundle _ | .vext _ | .kand _ | .kor _ | .kxor _ | .knot _ | .kpopc _
  | .kmov _ | .dqcnt _ | .vrng _ | .vgauss _ | .vgather _ | .vscatter _ | .srd _ | .swr _
  | .srst _ | .sget _ | .drive _ | .tap _ | .drives _ | .taps _ | .pubs _ | .hqry _
  | .cloadb _ | .cloadbq _ | .cmm _ | .cmmq _ | .caccz _ | .caccrd _ | .caccst _ | .dmma _
  | .dxz _ | .dxld _ | .dxst _ | .dchk _ | .dxfix _ | .dxrd _
  | .segmentCountLimit | .bTargetReady _ | .returnEntryReady | .repReissue | .loopBufferIssue | .waitcResume
  | .stagewResume | .fenceResume | .resultLanding | .memoryWriteLanding | .vaultBankAccess | .atomicWindow
  | .barrierWindow | .bwaitWake | .bwaitTimeout | .barrierBreak _ | .commonsSlotService | .missedPromise
  | .channelArrival | .channelEntryDrop | .cimPlaneWrite | .cimAccumulateAdd | .dmmaLanding | .xRegisterLanding
  | .checksum | .engineStreamAccess | .finjWrite _ | .finjFire | .imemShareReload | .groupHalt
  | .nodeRerunStart | .trapStop | .handlerEntry | .contextResume | .handlerFaultEnd | .silentErrorKill
  | .preemptDelivery _ | .contextSwitch | .contextSwitchIn | .contextStreamOut | .contextStreamIn | .partitionSwitchIn _
  | .nodeEnd _ _ | .checkpointComplete _ | .walkerCodeStart _ _ | .walkerBranch _ _ | .walkerWhile _ _ | .walkerCollect _ _
  | .walkerFinish _ _ | .jobStart _ | .dualCompare _ | .beacon | .beaconArrival _ _ | .drift
  | .powerDecision _ _ | .thermalPause | .thermalResume | .thermalTimeout | .carrierTrip | .unitRetirement _
  | .jobReplacement _ | .checkpointRollback _ | .rollbackRestart _ | .huskWindowSwapin _ _ | .translation | .huskLocalLineWrite
  | .huskSourceRead | .huskPromiseMiss _ _ | .huskBarrierDecrement | .portLinkDown _ | .linkDownTimeout | .handoverTimeout
  | .stailWrite _ _ | .cheadWrite _ _ | .mcringWrite _ _ | .barRegisterWrite _ _ _ | .submissionConsume _ _ _ | .badSeq _
  | .completionEntryWrite _ | .identify _ | .attest _ | .claim _ | .handover _ | .accept _
  | .release _ | .queryJob _ | .queryMap _ | .readDigest _ | .readUtil _ | .readErrors _
  | .loadImage _ | .verifyImage _ | .admitJob _ | .launch _ | .cancel _ | .preempt _
  | .migrateOut _ | .checkpoint _ | .restore _ | .retireUnit _ | .copyIn _ | .copyOut _
  | .setTime _ | .powerGood | .moduleReset | .bootComplete | .podJoin _ | .tickEdge
  | .ptpMessage _ | .grandmasterLoss | .podJobStart _ _ | .fabricSlotSend _ | .fabricBatchPublish _ _ | .fabricBeacon _ _ _
  | .fabricLaneFail _ _ | .fabricPortFail _ | .podMemberLost _ | .portLinkUp _ | .retimingBufferSlip _ _ | .softError _ _
  | .counterCopyFault _ _ _ | .thermalAdmissionResume => none

/-- The word of an op, first in its bundle or not, with the extension bits it must be lent; none for an event. -/
def encode (first : Bool) (i : Instr) : Option (OpWord × Ext) :=
  i.opNumber.map fun n => (packWord first n.1 n.2 i.operandBits, i.extBits)

end Sys2Proof
end

