-- ==== Sys2Proof/Machine/Seq.lean ====
section
/-!
DEFINITION. The sequencer's shared operations (05 R139-R169, 01 R24-R31, R45-R49): fetch, the words of the bundle now issuing,
transfers, loops, stage predicates, segments.
-/
namespace Sys2Proof.Machine

/-! ### Fetch -/

/-- The sequential bundle at or after code address `a`: a pad word sends fetch to the next packet (R29); none beyond the code
part (R31). `fuel` bounds the packets passed. -/
def Tile.seqNext (t : Tile) : Nat → Nat → Option Nat
  | 0, _ => none
  | k + 1, a =>
    if t.ct.codeEnd ≤ a then none
    else if t.word a == padWord then t.seqNext k (a / 32 * 32 + 32)
    else some a

/-- Packets of the largest share. -/
def packetCount : Nat := 4097

/-- The bundle that begins at code address `a` of a packet (R24): it ends only at a word with S = 1 or with the packet, so where the
code part ends inside the packet, words of the segment table with S = 0 are taken in (DEDUCED, log 59). -/
def bundleIn (pkt : List OpWord) (a : Nat) : List OpWord :=
  match pkt.drop (a / 4 % 8) with
  | [] => []
  | w :: r => w :: r.takeWhile fun v => !v.s

/-- Code address of the bundle to issue next, before any issue: sequential fetch passes pads (R29). -/
def Tile.nextAddr (t : Tile) : Option Nat :=
  let q := t.ct.sq
  if q.sequential then t.seqNext packetCount q.pc else some q.pc

/-- The words of the bundle at the code address now issuing: from the loop buffer, from the copy a transfer left (R143), or
from IMEM as it stands. -/
def Tile.curWords (t : Tile) : List OpWord :=
  let q := t.ct.sq
  match q.buffer with
  | some b => b.2
  | none =>
    match q.fetchCopy with
    | some copy => bundleIn copy q.pc
    | none => bundleIn (t.packet q.pc) q.pc

/-- Code address just after the bundle now issuing. -/
def Tile.afterAddr (t : Tile) : Nat := t.ct.sq.pc + 4 * t.curWords.length

/-- The next sequential bundle after the one now issuing (R29). -/
def Tile.follow (t : Tile) : Option Nat := t.seqNext packetCount t.afterAddr

/-! ### Arrivals -/

/-- The checks of an arrival at `a` other than the next sequential bundle (R54, R142): S = 0, then the pad word. -/
def arrivalFault (copy : List OpWord) (a : Nat) : Option (Cause × Nat) :=
  if !(copyWord copy a).s then some (.misalignedTarget, a)
  else if copyWord copy a == padWord then some (.illegalOp, a)
  else none

/-- A b register. -/
def Seq.rdB (q : Seq) (n : BitVec 3) : BReg := q.b[n.toNat]'(n.isLt)

/-- Write a b register. -/
def Seq.wrB (q : Seq) (n : BitVec 3) (b : BReg) : Seq := { q with b := q.b.set n.toNat b (n.isLt) }

/-- The checks of a transfer through a b register, in their order (R142). -/
def bFault (b : BReg) (n c : Nat) : Option (Cause × Nat) :=
  match b.state with
  | .empty => some (.unpreparedTarget, n)
  | .pending => some (.prematureTransfer, b.ready - c)
  | .stale => some (.staleTarget, b.target)
  | .ready => arrivalFault b.copy b.target

/-- Take a transfer: the next bundle is the one at `a`, from the copy (R143). -/
def Seq.goTo (q : Seq) (a : Nat) (copy : List OpWord) : Seq := { q with target := some (a, copy) }

/-! ### Loops -/

/-- Is the bundle at `a`, followed sequentially by `nxt`, the last of the entry's body (R152)? -/
def LoopEntry.lastBundle (e : LoopEntry) (a : Nat) (nxt : Option Nat) : Bool :=
  e.start ≤ a && a < e.stop && nxt == some e.stop

/-- Is the bundle now issuing the last bundle of the top loop body? -/
def Tile.isLast (t : Tile) : Bool :=
  match t.ct.sq.loops with
  | [] => false
  | e :: _ => e.lastBundle t.ct.sq.pc t.follow

/-- Land the stage predicates of a LOOPP iteration, visible from the next cycle (R155). -/
def Tile.landStages (t : Tile) (e : LoopEntry) : Tile :=
  (List.range (e.stages + 1)).foldl (fun t j =>
    t.landQ (BitVec.ofNat 3 (4 + j)) (j ≤ e.index && e.index - j < e.n) 1) t

/-- The start packet of an entry: its copy, or IMEM as it stands in the cycle in which the copy is read (R151). -/
def Tile.startCopy (t : Tile) (e : LoopEntry) : List OpWord :=
  if e.startAt.isSome then t.packet e.start else e.startCopy

/-- The entry that goes on at the end of its body, when the bundle at `a` issues (R152): exhausted ones that end here give way. -/
def goesOn (a : Nat) (nxt : Option Nat) : List LoopEntry → Option LoopEntry
  | [] => none
  | e :: es => if !e.lastBundle a nxt then none else if e.index + 1 < e.total then some e else goesOn a nxt es

/-- The entry of the next iteration. -/
def LoopEntry.next (e : LoopEntry) : LoopEntry := { e with index := e.index + 1 }

/-- The loop-back of the last bundle of a body (R152): exhausted entries that end here are popped, and the first that goes
on branches to its start. Through a Stale start copy there is no next bundle: its bundle faulted (R153, R256). -/
def Tile.loopBack (t : Tile) (a : Nat) (nxt : Option Nat) : List LoopEntry → Tile
  | [] => t.onSq ({ · with loops := [] })
  | e :: es =>
    if !e.lastBundle a nxt then t.onSq ({ · with loops := e :: es })
    else if e.index + 1 < e.total then
      if e.startStale then { t with lost := true }
      else
        let e' := e.next
        let t := t.onSq fun q =>
          { q with loops := e' :: es, prePoint := if e.pre then some (t.c + 1) else none }.goTo e.start (t.startCopy e)
        let t := if e.rot then t.onCx fun x => { x with rotb := x.rotb + 7 } else t
        if e.pipelined then t.landStages e' else t
    else t.loopBack a nxt es

/-! ### Segments -/

/-- The generator of the segment signature, less its top term (R47). -/
def segPoly : BitVec 44 := 0x2B71C4DA063

/-- The signature over bits 31:22 of one op word, bit 31 first (R47). -/
def segWord (sig : BitVec 44) (w : OpWord) : BitVec 44 :=
  (List.range 10).foldl (fun sig j =>
    let fb := sig.getLsbD 43 != w.getLsbD (31 - j)
    let s := sig <<< 1
    if fb then s ^^^ segPoly else s) sig

/-- Segment table entry `i` (R48, R164). -/
def Tile.segEntry (t : Tile) (i : Nat) : Nat :=
  memNat t.imem (t.ct.ibase * 1024 + t.ct.codeEnd + 8 * i) 8

/-- TVAL of SEG_MISMATCH (R49). -/
def segTval (index reason : Nat) : Nat := index % 2 ^ 23 + reason * 2 ^ 60

/-- The REASON with which an open segment fails its entry, none when it agrees (R49). -/
def Tile.segReason (t : Tile) (g : Seg) : Option Nat :=
  let e := t.segEntry g.index
  let n := g.count != bits e 63 44
  let s := g.sig.toNat != bits e 43 0
  if n && s then some 3 else if s then some 2 else if n then some 1 else none

/-- Close the open segment, if one is open, comparing it with its entry (R49). -/
def Tile.closeSeg (t : Tile) (slot : Nat) : Tile :=
  match t.ct.sq.seg with
  | none => t
  | some g =>
    let t' := t.onSq ({ · with seg := none })
    match t.segReason g with
    | none => t'
    | some r => t'.raise .segMismatch (segTval g.index r) slot

/-- Open segment `i` (R45, R47). -/
def Tile.openSeg (t : Tile) (i : Nat) : Tile :=
  let t := t.closeSeg 0
  if t.ct.segn ≤ i then t.raise .segMismatch (segTval i 5) 0
  else t.onSq ({ · with seg := some ⟨i, 0, BitVec.allOnes 44⟩, lastSeg := some i, mustSeg := false })

/-- Count one issue and its words into the open segment (R46, R47). -/
def Tile.countSeg (t : Tile) (cycles : Nat) (ws : List OpWord) : Tile :=
  match t.ct.sq.seg with
  | none => t
  | some g => t.onSq ({ · with seg := some { g with count := g.count + cycles, sig := ws.foldl segWord g.sig } })

/-- Ops whose issue closes the open segment (R45), apart from SEG. -/
def opCloses : Instr → Bool
  | .nodeend | .tret | .waitc .. | .bwait .. | .stagew .. | .bt _ | .bf _ | .ba _ | .call _ | .ret _ | .lexit _
  | .loop .. | .loopi .. | .loopp .. => true
  | _ => false

/-- Ops after which the next bundle need not hold SEG (R45). -/
def opEndsStream : Instr → Bool
  | .nodeend | .tret => true
  | _ => false

/-- C ops that steer fetch, issue or the segment: what they do to them holds for the bundles after theirs even when their bundle
faults for another op (R256, DEDUCED, log 9). -/
def opSteers (i : Instr) : Bool :=
  match i with
  | .bwait .. | .stagew .. => false
  | .seg .. | .rep .. | .fence _ => true
  | _ => opCloses i

/-- Is a cause of this op a fault of fetch, which leaves the tile no next bundle (R256, DEDUCED, log 9)? Not where a LOOP does not
transfer: its END and its zero trip count do. -/
def fetchFault (i : Instr) (d : Det) : Bool :=
  match i with
  | .bt _ | .bf _ | .ba _ | .call _ | .ret _ | .lexit _ | .nodeend | .tret => true
  | .loop .. | .loopi .. | .loopp .. => d.cause == .misalignedTarget || (d.cause == .illegalOp && d.tval.toNat < 2 ^ 32)
  | _ => false

/-- Ops excluded from the last bundle of a loop body (R146). -/
def opNotLast : Instr → Bool
  | .bt _ | .bf _ | .ba _ | .call _ | .ret _ | .loop .. | .loopi .. | .loopp .. | .rep .. | .bprepr _
  | .prefixBundle _ => true
  | _ => false

/-- Ops excluded from the loop buffer (R162): X ops, and those that move, hold or mark the stream. -/
def opNotBuffered (i : Instr) : Bool :=
  (match i with
    | .seg .. | .rep .. | .prefixBundle _ => true
    | _ => opCloses i) || i.opNumber.any fun n => n.1 == 3

/-- The slot class of an op; 4 for the bundle as a whole (R53). -/
def opSlot (i : Instr) : Nat := match i.opNumber with
  | some n => n.1.toNat
  | none => 4

/-- Is it an X op? -/
def opIsX (i : Instr) : Bool := opSlot i == 3

end Sys2Proof.Machine
end

