-- ==== Sys2Proof/Machine/Sequencer.lean ====
section
/-!
DEFINITION. The sequencer's ops (spec 05 R140-R163, R165, R167): branch targets, transfers, conditions, loops, the return stack,
REP, segments, node end and the rejoin wait. A C op is the first word of its bundle, so its address is the bundle's.
-/
namespace Sys2Proof.Machine

/-- NOP does nothing (R182). -/
def execNop (s : State) : Out := .next s

/-- A prefix bundle issues as a no-op; its bits reach the next bundle at its commit (R26). -/
def execPrefixBundle (_ext2 : BitVec 7) (s : State) : Out := .next s

/-! ### Branch targets -/

/-- Prepare a b register (R141, R147): Pending, Ready from c+3, its packet read at c+2; the target lies in the code part. -/
def prepare (n : BitVec 3) (target : Nat) (ok : Bool) (s : State) : Out :=
  if ok && target < s.tile.ct.codeEnd then
    onTile (fun t => t.onSq fun q =>
      q.wrB n { target := target, state := .pending, ready := t.c + 3, copy := [], copyAt := some (t.c + 2) }) s
  else trapOut .illegalOp target 0 s

/-- BPREP (R147): the first word of this bundle plus 4 × disp. -/
def execBprep (o : BP) (s : State) : Out :=
  let z : Int := s.tile.ct.sq.pc + 4 * o.disp.toInt
  prepare o.b (ofInt 64 z) (0 ≤ z) s

/-- BPREPR (R147): the target in a scalar, its bits 63:17 and 1:0 zero. -/
def execBprepr (o : RRR) (s : State) : Out :=
  let v := s.tile.sN o.a
  prepare (low3 o.d) v (v < 2 ^ 17 && v % 4 == 0) s

/-- A transfer through a b register (R142, R143, R145): checked whether taken or not; f[0] empties the register when taken. -/
def transfer (o : BX) (taken : State → Bool) (also : Tile → Tile) (s : State) : Out :=
  let t := s.tile
  let b := t.ct.sq.rdB o.b
  match bFault b o.b.toNat t.c with
  | some (c, v) => trapOut c v 0 s
  | none =>
    if taken s then
      onTile (fun t => (also t).onSq fun q =>
        let q := q.goTo b.target b.copy
        if o.f.getLsbD 0 then q.wrB o.b {} else q) s
    else .next s

/-- BT: taken when q[q] = 1. -/
def execBt (o : BX) (s : State) : Out := transfer o (fun s => s.tile.ct.cx.q.getLsbD o.q.toNat) id s
/-- BF: taken when q[q] = 0. -/
def execBf (o : BX) (s : State) : Out := transfer o (fun s => !s.tile.ct.cx.q.getLsbD o.q.toNat) id s
/-- BA: always taken. -/
def execBa (o : BX) (s : State) : Out := transfer o (fun _ => true) id s

/-- Entries of the return stack (R158). -/
def retDepth : Nat := 8

/-- Push the address of the next sequential bundle with its packet as it stands at t; Ready from t+1 (R158). Where the code part holds no
further bundle, the address after this one is pushed (DESIGN CHOICE, log 59). -/
def Tile.pushReturn (t : Tile) : Tile :=
  let a := t.follow.getD t.afterAddr
  t.onSq fun q => { q with rets := { addr := a, copy := t.packet a, state := .pending, ready := t.c + 1 } :: q.rets }

/-- CALL (R158): the checks of R142, then a ninth entry overflows. -/
def execCall (o : BX) (s : State) : Out :=
  let t := s.tile
  match bFault (t.ct.sq.rdB o.b) o.b.toNat t.c with
  | some (c, v) => trapOut c v 0 s
  | none =>
    if retDepth ≤ t.ct.sq.rets.length then trapOut .rstackOverflow 8 0 s
    else transfer o (fun _ => true) Tile.pushReturn s

/-- The checks of RET (R158). -/
def retFault (q : Seq) (c : Nat) : Option (Cause × Nat) :=
  match q.rets with
  | [] => some (.rstackUnderflow, 0)
  | r :: _ =>
    match r.state with
    | .pending | .empty => some (.prematureTransfer, r.ready - c)
    | .stale => some (.staleTarget, r.addr)
    | .ready => arrivalFault r.copy r.addr

/-- RET (R158). -/
def execRet (_o : BX) (s : State) : Out :=
  match retFault s.tile.ct.sq s.tile.c with
  | some (c, v) => trapOut c v 0 s
  | none =>
    onTile (fun t => t.onSq fun q =>
      match q.rets with
      | [] => q
      | r :: rs => { q with rets := rs }.goTo r.addr r.copy) s

/-- BINV (R148): one register, or all with f[0] = 1. -/
def execBinv (o : BX) (s : State) : Out :=
  onTile (fun t => t.onSq fun q =>
    if o.f.getLsbD 0 then { q with b := Vector.replicate 8 {} } else q.wrB o.b {}) s

/-- RSTK (R159): pop the top entry into s[d]. -/
def execRstk (o : RRR) (s : State) : Out :=
  match s.tile.ct.sq.rets with
  | [] => trapOut .rstackUnderflow 0 0 s
  | r :: rs => onTile (fun t => (t.onSq ({ · with rets := rs })).landS o.d (BitVec.ofNat 64 r.addr) 1 0) s

/-- RSTK.push (R159): push s[a], Pending until c+3, its packet read at c+2. -/
def execRstkPush (o : RRR) (s : State) : Out :=
  let v := s.tile.sN o.a
  if 2 ^ 17 ≤ v || v % 4 != 0 || s.tile.ct.codeEnd ≤ v then trapOut .illegalOp v 0 s
  else if retDepth ≤ s.tile.ct.sq.rets.length then trapOut .rstackOverflow 8 0 s
  else
    onTile (fun t => t.onSq fun q => { q with rets := {
      addr := v, copy := [], state := .pending, ready := t.c + 3, copyAt := some (t.c + 2) } :: q.rets }) s

/-! ### Conditions -/

/-- An integer condition code (R35): LT, GE, LE, GT signed; LTU, GEU cardinal. -/
def intCond (code : Nat) (a b : Word) : Bool :=
  match code with
  | 0 => a == b
  | 1 => a != b
  | 2 => a.toInt < b.toInt
  | 3 => b.toInt ≤ a.toInt
  | 4 => a.toInt ≤ b.toInt
  | 5 => b.toInt < a.toInt
  | 6 => a.toNat < b.toNat
  | _ => b.toNat ≤ a.toNat

/-- CMP (R149). -/
def execCmp (o : RRR) (s : State) : Out :=
  onTile (fun t => t.landQ (low3 o.d) (intCond o.m.toNat (t.s o.a) (t.s o.b)) 1) s

/-- CMPI (R149): d[2:0] the q bit, d[5:3] the condition code. -/
def execCmpi (o : RI) (x : Ext) (s : State) : Out :=
  onTile (fun t => t.landQ (low3 o.d) (intCond (o.d.toNat / 8) (t.s o.a) (wordOf (riImm o x))) 1) s

/-- A q bit. -/
def Tile.q (t : Tile) (n : BitVec 3) : Bool := t.ct.cx.q.getLsbD n.toNat

/-- QOP: q[d] ← m[2 × q[a] + q[b]] (R149). -/
def execQop (o : RRR) (s : State) : Out :=
  onTile (fun t =>
    let i := (if t.q (low3 o.a) then 2 else 0) + (if t.q (low3 o.b) then 1 else 0)
    t.landQ (low3 o.d) (o.m.getLsbD i) 1) s

/-- QMOV (R41, R149): q to a scalar, a scalar to q, any and all of a mask. -/
def execQmov (o : RRR) (s : State) : Out :=
  onTile (fun t =>
    match o.m.toNat with
    | 0 => t.landS o.d (t.ct.cx.q.setWidth 64) 1 0
    | 1 => t.land .qAll ((t.s o.a).setWidth 512) 1 0 1 0
    | 2 => t.landQ (low3 o.d) (t.ct.cx.rdK (low3 o.a) != 0) 1
    | _ => t.landQ (low3 o.d) (t.ct.cx.rdK (low3 o.a) == BitVec.allOnes 64) 1) s

/-! ### Loops -/

/-- Entries of the loop stack (R150). -/
def loopDepth : Nat := 6

/-- The effect of an LP op with trip count `n` and `stages` = S (R151). END is the whole sum: one beyond the 17 bits of its field names
no bundle of any share (DESIGN CHOICE, log 59). -/
def enterLoop (o : LP) (x : Ext) (n stages : Nat) (pipelined : Bool) (s : State) : Out :=
  let t := s.tile
  let e := t.ct.sq.pc + 4 * o.endWords x
  let exit := t.packet e
  if 0xFFFF_FFFC < n then trapOut .illegalOp n 0 s
  else if n = 0 then
    match (if t.ct.codeEnd ≤ e then some (Cause.illegalOp, e) else arrivalFault exit e) with
    | some (c, v) => trapOut c v 0 s
    | none => onTile (fun t => t.onSq (·.goTo e exit)) s
  else if loopDepth ≤ t.ct.sq.loops.length then trapOut .loopOverflow 6 0 s
  else
    let entry : LoopEntry := {
      index := 0, total := n + stages - 1, start := t.follow.getD t.afterAddr, stop := e
      pre := o.f.getLsbD 3, rot := o.f.getLsbD 2, stages := stages - 1, n := n, pipelined := pipelined
      startCopy := [], exitCopy := exit, startAt := some (t.c + 1) }
    onTile (fun t =>
      let t := t.onSq fun q => { q with loops := entry :: q.loops }
      let t := if entry.rot then t.later .rotZero else t
      if pipelined then t.landStages entry else t) s

/-- LOOP: N = s[s]. -/
def execLoop (o : LP) (x : Ext) (s : State) : Out := enterLoop o x (s.tile.sN o.s) 1 false s
/-- LOOPI: N is the s field. -/
def execLoopi (o : LP) (x : Ext) (s : State) : Out := enterLoop o x o.s.toNat 1 false s
/-- LOOPP: S = f[1:0] + 1 stages. -/
def execLoopp (o : LP) (x : Ext) (s : State) : Out := enterLoop o x (s.tile.sN o.s) (o.f.toNat % 4 + 1) true s

/-- The checks of LEXIT, made whether it is taken or not (R153). An END beyond the code part is arrived at like any other, from the exit copy
(DESIGN CHOICE, log 59). -/
def exitFault (q : Seq) : Option (Cause × Nat) :=
  match q.loops with
  | [] => some (.illegalOp, 0)
  | e :: _ => if e.exitStale then some (.staleTarget, e.stop) else arrivalFault e.exitCopy e.stop

/-- LEXIT (R153): always with f[0] = 0, else when q[q] = 1. -/
def execLexit (o : BX) (s : State) : Out :=
  match exitFault s.tile.ct.sq with
  | some (c, v) => trapOut c v 0 s
  | none =>
    if !o.f.getLsbD 0 || s.tile.q o.q then
      onTile (fun t => t.onSq fun q =>
        match q.loops with
        | [] => q
        | e :: es => { q with loops := es }.goTo e.stop e.exitCopy) s
    else .next s

/-- LIDX (R154): INDEX at a level, all ones beyond the depth. -/
def execLidx (o : RI) (s : State) : Out :=
  onTile (fun t => t.landS o.d
    (match t.ct.sq.loops[o.imm.toNat]? with
      | some e => BitVec.ofNat 64 e.index
      | none => BitVec.allOnes 64) 1 0) s

/-! ### REP -/

/-- FMT of a stream named by an X op. -/
def Tile.fmtOf (t : Tile) (n : BitVec 4) : Nat := recFmt (t.ct.cx.rdA n).record

/-- Mantissa bits w of a block format by FMT 13-15 (R95). -/
def blockBits (fmt : Nat) : Nat :=
  match fmt with
  | 13 => 2
  | 14 => 4
  | _ => 7

/-- CIMCFG.PLANES and AFMT (R233). -/
def Tile.planes (t : Tile) : Nat := bits t.ct.cx.cimcfg.toNat 11 7
def Tile.afmt (t : Tile) : Nat := bits t.ct.cx.cimcfg.toNat 13 12

/-- w_a and W of a CMM or CMMQ (R236). -/
def Tile.cmmWa (t : Tile) (o : XM) : Nat := if o.sb.getLsbD 0 then blockBits (13 + t.afmt) else blockBits (t.fmtOf o.sa)
def Tile.cmmW (t : Tile) (o : XM) : Nat := if o.sb.getLsbD 0 then max (t.cmmWa o) 4 else t.cmmWa o

/-- Groups of a DXLD or DXST: 16 for F32 contents, 8 for F64; by the stream where x is EMPTY (R229, R247). -/
def Tile.dxGroups (t : Tile) (o : XM) (store : Bool) : Nat :=
  match (t.ct.cx.x[o.dst.toNat % 8]'(Nat.mod_lt _ (by decide))).kind, store with
  | .f32, true => 16
  | .f64, true => 8
  | _, _ => if t.fmtOf o.sa = 10 then 16 else 8

/-- The issue interval O of an X op, as its operands stand (R229). -/
def Tile.interval (t : Tile) (i : Instr) : Nat :=
  match i with
  | .cloadb o => 384 * o.cnt.toNat
  | .cloadbq o => 384 * o.cnt.toNat + 9
  | .cmm o => t.planes * t.cmmW o * o.cnt.toNat
  | .cmmq o => t.planes * t.cmmW o * ((o.cnt.toNat + 3) / 4)
  | .caccst o => if t.fmtOf o.sa = 10 then 24 * o.cnt.toNat else 48 * o.cnt.toNat
  | .dmma _ | .dchk _ | .dxfix _ => 4
  | .dxld o => t.dxGroups o false
  | .dxst o => t.dxGroups o true
  | _ => 1

/-- The X op that stands in the bundle now issuing, if there is one. -/
def Tile.xOp (t : Tile) : Option Instr :=
  t.curWords.findSome? fun w => if w.slot == 3 then (decodeOp w none).toOption else none

/-- The `m` bundles from code address `a` on, with the address after each (R161): none where the share ends. -/
def Tile.bundlesFrom (t : Tile) : Nat → Nat → Option (List (Nat × List OpWord))
  | 0, _ => some []
  | m + 1, a =>
    match t.seqNext packetCount a with
    | none => none
    | some b =>
      let ws := bundleIn (t.packet b) b
      (t.bundlesFrom m (b + 4 * ws.length)).map fun r => (b, ws) :: r

/-- Is one of these bundles the last of the top loop body (R162)? -/
def Tile.anyLast (t : Tile) (bs : List (Nat × List OpWord)) : Bool :=
  match t.ct.sq.loops with
  | [] => false
  | e :: _ => bs.any fun b => e.lastBundle b.1 (t.seqNext packetCount (b.1 + 4 * b.2.length))

/-- REP (R161, R162): m bundles enter the loop buffer, read as IMEM stands at the REP's issue and kept with the repeat state, and the
bundle's X op is reissued. Where m bundles run past the code part the REP itself raises ILLEGAL_OP (DESIGN CHOICE, log 59). -/
def execRep (o : I16) (x : Ext) (s : State) : Out :=
  let t := s.tile
  let n := i16Card o x
  let m := o.d.toNat
  match t.xOp, t.bundlesFrom m t.afterAddr with
  | some op, some body =>
    let r := t.interval op
    if n = 0 || n * r ≤ m || t.anyLast body then trapOut .illegalOp t.freeTval 0 s
    else
      let after := match body.getLast? with
        | some b => b.1 + 4 * b.2.length
        | none => t.afterAddr
      onTile (fun t => t.onSq ({ · with rep := some {
        op := op, interval := r, count := n, start := t.c, body := body, after := after
        staged := t.c, reissued := t.c } })) s
  | _, _ => trapOut .illegalOp t.freeTval 0 s

/-! ### Segments and node end -/

/-- SEG opens a segment (R163). -/
def execSeg (o : I16) (x : Ext) (s : State) : Out := onTile (·.openSeg (i16Card o x)) s

/-- Raise a pending guard fault (R211). -/
def guardOr (f : State → Out) (s : State) : Out :=
  match s.tile.ct.guard with
  | some v => trapOut .guardGranule v.toNat 0 s
  | none => f s

/-- NODEEND (R165): no bundle issues after it; the drain begins. -/
def execNodeend (s : State) : Out := guardOr (onTile fun t => { t with ct := { t.ct with run := .drain } }) s

/-- WAITC (R167): the next bundle issues when the DCYC copy reads T + 1. -/
def execWaitc (o : RI) (x : Ext) (s : State) : Out :=
  let t := s.tile
  let target := (t.s o.a + wordOf (riImm o x)).toNat
  let now := s.dcycAt t
  if target < now then trapOut .rejoinLate (now - target) 0 s
  else onTile (fun t => { t with ct := { t.ct with run := .wait (t.c + (target - now) + 1) .waitc } }) s

end Sys2Proof.Machine
end

