-- ==== Sys2Proof/Machine/Cim.lean ====
section
/-!
DEFINITION. The compute-in-memory engine (08 R228-R239; 03 R100-R102, R105, R106): CLOADB, CLOADBQ, CMM, CMMQ, CACCZ, CACCRD and
CACCST, and what each of their later cycles does.
-/
namespace Sys2Proof.Machine

/-! ### Checks shared by the X ops (R230, R231) -/

/-- SHAPE_FAULT of a matrix engine. -/
def shapeIf (bad : Bool) (reason : Nat) (n : BitVec 4) : Option (Cause × Nat) :=
  if bad then some (.shapeFault, shapeTval reason n.toNat 0) else none

/-- The stream faults of an X op's naming. -/
def Tile.xNaming (t : Tile) (n : BitVec 4) (write : Bool) (z : Nat) : Option (Cause × Nat) :=
  streamFault (t.ct.cx.rdA n) n.toNat write z

/-- Occupy the CIM engine for `n` cycles (R229). -/
def Tile.takeCim (t : Tile) (n : Nat) : Tile :=
  { (t.collide (t.c < t.cimBusy) (engineTval 0) 3) with cimBusy := t.c + n }

/-- POS advances by G at commit (R230). -/
def Tile.advance (t : Tile) (n : BitVec 4) (g : Nat) : Tile := t.later (.stream n (streamNext (t.ct.cx.rdA n) g))

/-- The addresses of elements `j` to `j + n - 1` of a walk; none beyond its end (R221). -/
def walk (st : Stream) (j n : Nat) : List (Option Nat) :=
  (List.range n).map fun i => if j + i < recN st.record then some (recAddr st.record (j + i)) else none

/-! ### Scratchpad reads of an engine in its bank cycle -/

/-- An engine's access out of range is noted, to be recorded after those of the ops of its cycle (R210). -/
def Tile.engineOut (t : Tile) (vault : Bool) (a : Nat) : Tile :=
  if t.engineOor.isSome then t else { t with engineOor := some (vault, a) }

/-- Note the first engine access of `n` bytes out of range among these. -/
def Tile.engineNote (t : Tile) (as : List Nat) (n : Nat) : Tile :=
  match as.find? fun a => t.ct.spOutRange a n with
  | some a => t.engineOut false a
  | none => t

/-- The bytes and accesses of engine reads of `n` bytes in this cycle: range, banks, races, storage (R201, R209, R213). -/
def State.engineRead (s : State) (as : List (Option Nat)) (n : Nat) (o : Owner) : State :=
  let l := as.filterMap id
  let t := s.tile.engineNote l n
  let reach := t.spReached l n
  let r := t.touchSp reach false o
  { s with tile := r.1 }.bookNow (t.spUses reach false o.issue o.slot o.addr false)

/-- The values of engine reads: absent and out-of-range ones are zero. -/
def Tile.engineVals (t : Tile) (as : List (Option Nat)) (n : Nat) : List Nat :=
  as.map fun a => match a with
    | some a => t.spRead a n
    | none => 0

/-! ### Planes (R234, R235) -/

/-- CIMCFG fields of a latched value (R233). -/
def cfgBase (cfg : Nat) : Nat := bits cfg 6 0
def cfgPlanes (cfg : Nat) : Nat := bits cfg 11 7
def cfgVwin (cfg : Nat) : Nat := bits cfg 20 16

/-- Byte address of element (k, n) of plane p (R234). -/
def planeByte (base p k n : Nat) : Nat := ((base + 8 * p + k / 8) * 384 + n) * 8 + k % 8

/-- Index of a plane scale entry (R228). -/
def scaleIndex (p n b : Nat) : Nat := (p * 384 + n) * 4 + b

/-- Where element `e` of a load into planes from `dst` on goes (R235). -/
def loadByte (base dst e : Nat) : Nat :=
  planeByte base (dst + e / 24576) (8 * (e / 3072 % 8) + e % 8) (e / 8 % 384)

/-- Index of scale entry `m` of a load (R235). -/
def loadScale (dst m : Nat) : Nat := scaleIndex (dst + m / 1536) (m % 1536 / 4) (m % 4)

/-- The faults of CLOADB and CLOADBQ (R231, R235). -/
def Tile.loadFaults (t : Tile) (o : XM) : List (Option (Cause × Nat)) :=
  [t.xNaming o.sa false 1, shapeIf (t.fmtOf o.sa < 13) 10 o.sa, shapeIf (t.planes < o.dst.toNat + o.cnt.toNat) 12 o.sa]

/-- CLOADB (R235). -/
def execCloadb (o : XM) (s : State) : Out :=
  checked (fun s => s.tile.loadFaults o) 3 (onTile fun t =>
    ((t.takeCim (384 * o.cnt.toNat)).advance o.sa (24576 * o.cnt.toNat)).pending (t.c + 1) 3
      (.planeRead false o.dst.toNat o.cnt.toNat 0 (t.ct.cx.rdA o.sa) t.ct.cx.cimcfg.toNat)) s

/-- Is this the pending read of a CLOADBQ of TQ 0 issued at `c`? -/
def Pend.isLoadOf (p : Pend) (c dst cnt : Nat) : Bool :=
  match p.kind with
  | .planeRead true d n _ _ _ => p.issue == c && d == dst && n == cnt
  | _ => false

/-- Does TQ 0 of the quad issue the same CLOADBQ in this cycle (R235)? -/
def State.loadLed (s : State) (o : XM) : Bool :=
  let t := s.tile
  t.ltid % 4 == 0 || s.others.any fun u =>
    u.ltid == t.ltid / 4 * 4 && u.sameGroup t && u.pend.any (·.isLoadOf t.c o.dst.toNat o.cnt.toNat)

/-- CLOADBQ (R235): TQ 0 reads the quad's vault, and every tile of the quad that issues it writes its own planes. -/
def execCloadbq (o : XM) (s : State) : Out :=
  checked (fun s => s.tile.loadFaults o ++ [if s.loadLed o then none else some (.channelEmpty, 0)]) 3 (onTile fun t =>
    let n := 384 * o.cnt.toNat + 9
    let cfg := t.ct.cx.cimcfg.toNat
    let t := (t.takeCim n).advance o.sa (24576 * o.cnt.toNat)
    if t.ltid % 4 = 0 then t.pending (t.c + 1) 3 (.planeRead true o.dst.toNat o.cnt.toNat 0 (t.ct.cx.rdA o.sa) cfg)
    else t.pending (t.c + n) 3 (.planeJoin o.dst.toNat o.cnt.toNat cfg)) s

/-- The vault address of a byte of the tile's own quad: the window and the offset (R284). -/
def State.quadVault (s : State) (b : Nat) : Nat :=
  match s.myJob with
  | none => b % 2 ^ 24
  | some j => let q := s.tile.relQuad j; b % 2 ^ 24 + q.1 * 2 ^ 24 + q.2 * 2 ^ 31

/-- Is byte `b` of the window in the tile's own vault share in range (R285)? -/
def State.quadVaultOk (s : State) (b n : Nat) : Bool := b + n ≤ 2 ^ 24 && s.vPlace (s.quadVault b) n == .share

/-- The values of vault reads of `n` bytes by an engine, by BYTE of the tile's own quad. -/
def State.quadVaultVals (s : State) (as : List (Option Nat)) (n : Nat) : List Nat :=
  as.map fun a => match a with
    | some b => if s.quadVaultOk b n then ofBytes ((List.range n).map fun i => s.vByteAt (s.quadVault b + i)) else 0
    | none => 0

/-- The vault accesses of an engine in this cycle (R285, R287, R213). -/
def State.quadVaultRead (s : State) (as : List (Option Nat)) (n : Nat) (o : Owner) : State :=
  let l := as.filterMap id
  let ok := l.filter fun b => s.quadVaultOk b n
  let s := match l.find? fun b => !s.quadVaultOk b n with
    | some b => { s with tile := s.tile.engineOut true (s.quadVault b) }
    | none => s
  let bytes := ok.flatMap fun b => (List.range n).map (s.quadVault b + ·)
  let lines := uniq (bytes.map fun a => 64 * lineOf a)
  (s.touchVault bytes false o).1.bookNow (s.tile.vaultUses lines false o.issue o.slot o.addr false)

/-- Addresses of the four scale entries of group `g` of a load (R235). -/
def loadScales (st : Stream) (off g : Nat) : List (Option Nat) :=
  (List.range 4).map fun i =>
    if st.pos + 64 * g < recN st.record then some (ofInt 64 ((off + recSbase st.record : Nat) + ((4 * g + i : Nat) : Int) * recSstride st.record))
    else none

/-- Group `g` of a plane load is read (R235): it reaches the planes one cycle later, or nine for CLOADBQ. Under CLOADBQ the tag and the absent
elements of every tile's planes are those of the stream of TQ 0 (DESIGN CHOICE, log 59). -/
def State.planeRead (s : State) (p : Pend) (vault : Bool) (dst cnt g : Nat) (st : Stream) (cfg : Nat) : State :=
  let off := if vault then cfgVwin cfg * 2 ^ 19 else 0
  let as := (walk st (st.pos + 64 * g) 64).map (·.map (off + ·))
  let ss := loadScales st off g
  let vals := if vault then s.quadVaultVals as 1 else s.tile.engineVals as 1
  let scs := if vault then s.quadVaultVals ss 2 else s.tile.engineVals ss 2
  let s := if vault then (s.quadVaultRead as 1 p.owner).quadVaultRead ss 2 p.owner
    else (s.engineRead as 1 p.owner).engineRead ss 2 p.owner
  let t := s.tile
  let tag : BitVec 2 := BitVec.ofNat 2 (recFmt st.record - 13)
  let write (cfg : Nat) : PendKind := .planeWrite dst g cfg tag (vals.map (BitVec.ofNat 8)) (scs.map (BitVec.ofNat 16))
  let add (due : Nat) (k : PendKind) (u : Tile) : Tile := { u with pend := u.pend ++ [{ p with due := due, kind := k }] }
  let lead (u : Tile) : Tile :=
    let u := add (t.c + if vault then 9 else 1) (write cfg) u
    if g + 1 < 384 * cnt then add (t.c + 1) (.planeRead vault dst cnt (g + 1) st cfg) u else u
  let join (u : Tile) : Tile :=
    match u.pend.findSome? fun q => match q.kind with
      | .planeJoin d n c => if q.issue = p.issue && d = dst && n = cnt then some (q, c) else none
      | _ => none with
    | some (q, c) => { u with pend := u.pend ++ [{ q with due := t.c + 9, kind := write c }] }
    | none => u
  { s with
    tile := lead t
    others := if vault then updWhere (fun u => u.ltid / 4 == t.ltid / 4 && u.sameGroup t) join s.others else s.others }

/-- A group reaches the planes: eight words of one row, its scale entries and the plane's format tag (R235). Bytes out of range are not
written (R210), and nothing is written to words that a multiply uses (R234): of a write that both races and meets such a word the collision is
raised (DESIGN CHOICE, log 59). -/
def State.planeWrite (s : State) (p : Pend) (dst g cfg : Nat) (tag : BitVec 2) (bytes : List Byte) (scales : List (BitVec 16)) : State :=
  let cells : List Host.Cell := bytes.zipIdx.map fun e => (loadByte (cfgBase cfg) dst (64 * g + e.2), e.1)
  let t0 := s.tile.engineNote (cells.map fun c => c.1) 1
  let cells : List Host.Cell := cells.filter fun c => !s.tile.ct.spOut c.1
  let as := cells.map (·.1)
  let s := { s with tile := t0 }
  let pl := dst + 64 * g / 24576
  let s := s.bookNow (s.tile.spUses as true p.issue p.slot p.addr false)
  let r := s.tile.touchSp as true p.owner
  let t := match s.tile.lockedWord as with
    | some v => s.tile.found .landingCollision v p.slot p.issue p.addr
    | none => if r.2 then r.1.spPut cells else r.1
  { s with tile := { t with
      scales := scales.zipIdx.foldl (fun m e => memSet m (loadScale dst (4 * g + e.2)) e.1) t.scales
      tags := if h : pl < 16 then t.tags.set pl tag h else t.tags } }

/-! ### Multiplication (R236-R238, R105, R106) -/

/-- The rows of A that a tile of place `q` takes of M rows in CMMQ (R238). -/
def cmmqRows (q m : Nat) : List Nat := (List.range ((m + 3) / 4)).filterMap fun i => if 4 * i + q < m then some (4 * i + q) else none

/-- The faults of CMM and CMMQ in the order of R230. -/
def Tile.cmmFaults (t : Tile) (o : XM) : List (Option (Cause × Nat)) :=
  let pip := o.sb.getLsbD 0
  [t.xNaming o.sa false (if pip then 4 else 1),
   shapeIf (if pip then t.fmtOf o.sa != 6 else t.fmtOf o.sa < 13) 10 o.sa,
   shapeIf (t.planes == 0) 12 o.sa,
   shapeIf (!pip && !recShuf (t.ct.cx.rdA o.sa).record) 13 o.sa]

/-- The counter of element 0 of the walk (R237). -/
def Ctx.cmmCounter (x : Ctx) : Nat := x.pipmemb.toNat % 2 ^ 16 * 2 ^ 112 + x.piptag.toNat % 2 ^ 32 * 2 ^ 80

/-- A multiply of `rows` with an A operand of `m` rows, occupying the engine for `n` cycles (R236). -/
def multiply (o : XM) (rows : Tile → List Nat) (m : Nat) (n : Tile → Nat) (s : State) : Out :=
  checked (fun s => s.tile.cmmFaults o) 3 (onTile fun t =>
    let pip := o.sb.getLsbD 0
    let len := n t
    let cfg := t.ct.cx.cimcfg.toNat
    let run : CimRun := {
      row0 := 4 * o.dst.toNat, rows := rows t, wa := t.cmmWa o, w := t.cmmW o, planes := t.planes, pip := pip
      strm := t.ct.cx.rdA o.sa, baseRow := cfgBase cfg, accmode := t.ct.cx.accmode, key := t.ct.cx.pipKey
      ctr := t.ct.cx.cmmCounter }
    let t := (t.takeCim len).advance o.sa (m * 64 * t.planes)
    let t := if pip then { (t.collide (t.c < t.pipBusy) (engineTval 2) 3) with pipBusy := t.c + len } else t
    let t := if pip && bit cfg 14 then t.later .minc else t
    let t := t.pending (t.c + len) 3 (.cimLock (cfgBase cfg) (cfgBase cfg + 8 * t.planes))
    let t := t.pending (t.c + len + 4) 3 (.cimEnd t.ct.cx.trapen (List.replicate 48 0) none)
    if run.rows.isEmpty then t else t.pending (t.c + 1) 3 (.cimSlice run 0 0 [])) s

/-- CMM (R236, R238). -/
def execCmm (o : XM) (s : State) : Out :=
  multiply o (fun _ => List.range o.cnt.toNat) o.cnt.toNat (fun t => t.planes * t.cmmW o * o.cnt.toNat) s

/-- CMMQ (R238): the tile takes the rows of its place in the quad. -/
def execCmmq (o : XM) (s : State) : Out :=
  multiply o (fun t => cmmqRows (t.ltid % 4) o.cnt.toNat) o.cnt.toNat (fun t => t.planes * t.cmmW o * ((o.cnt.toNat + 3) / 4)) s

/-- First element of slice `sl` of a run (R236). -/
def CimRun.first (r : CimRun) (sl : Nat) : Nat :=
  r.strm.pos + r.rows.getD (sl / r.planes) 0 * (64 * r.planes) + 64 * (sl % r.planes)

/-- σ of λ (R101) as a value: T[j] has significand 128 + its fraction at 2^-7. -/
def sigmaTable : List Nat := [128, 134, 140, 146, 152, 159, 166, 173, 181, 189, 197, 206, 215, 225, 235, 245]

/-- A weight pair perturbed by the Gaussian of counter `ctr` (R100-R102), as binary32. -/
def perturbed (key ctr pair : Nat) : Nat :=
  let mu := (bfmt 9).read (bits pair 31 16)
  let lam := toSigned 8 (bits pair 15 8)
  let z := pipGauss key ctr
  let noise : BNum := .fin (z < 0) (sigmaTable.getD (lam % 16).toNat 128 * z.natAbs) (lam / 16 - 17)
  ((bfmt 10).sum 0 mu noise).val

/-- The four A blocks of a slice from its element words (R236, R237, R98). -/
def CimRun.blocks (r : CimRun) (vals scs : List Nat) (first : Nat) : List Block :=
  (List.range 4).map fun k =>
    let els := (vals.drop (16 * k)).take 16
    if r.pip then
      (bqForm r.wa (els.zipIdx.map fun e =>
        let j := first + 16 * k + e.2
        if j < recN r.strm.record then perturbed r.key (r.ctr + j) e.1 else 0)).1
    else bqRead r.wa els (scs.getD k 0)

/-- Block `b` of column `n` of plane `p` as it stands (R234). -/
def Tile.planeBlock (t : Tile) (base p n b : Nat) : Nat × Block :=
  let w := bqBits (t.tags.toList.getD p 0).toNat
  let bytes := (List.range 16).map fun i => let a := planeByte base p (16 * b + i) n; if t.ct.spOut a then 0 else (t.spByte a).toNat
  (w, bqRead w bytes (memGet t.scales (scaleIndex p n b)).toNat)

/-- One signed element product times 2^(2 − da − db) (R105). -/
def blockTerm (x y : Block) (i : Nat) : Int :=
  let a := x.els.getD i (false, 0)
  let b := y.els.getD i (false, 0)
  let sh := 2 - (if x.d.getD (i / 2) false then 1 else 0) - (if y.d.getD (i / 2) false then 1 else 0)
  let m : Int := (a.2 * b.2 * 2 ^ sh : Nat)
  if a.1 != b.1 then -m else m

/-- A block partial and its exponent; none for a NaN block (R105). -/
def blockPartial (wa wb : Nat) (x y : Block) : Option (Int × Int) :=
  if x.x = 255 || y.x = 255 then none
  else some ((List.range 16).foldl (fun z i => z + blockTerm x y i) 0,
    ((x.x : Int) - 127 - (wa - 1 : Nat)) + ((y.x : Int) - 127 - (wb - 1 : Nat)) - 2)

/-- The four partials of every column of a slice. -/
def Tile.slicePartials (t : Tile) (r : CimRun) (p : Nat) (xs : List Block) : List (List (Option (Int × Int))) :=
  (List.range 384).map fun n => xs.zipIdx.map fun x =>
    let y := t.planeBlock r.baseRow p n x.2
    blockPartial r.wa y.1 x.1 y.2

/-- Read `part` of slice `sl` of a multiply (R236): without .pip one group of 64, with .pip four groups of 16 words; after the
last, the partials are formed, their add is set for its cycle, and the next slice follows W cycles after this one began. The add
at cycle t is visible from t+1, so it is entered at t+1, before that cycle's reads. -/
def State.cimSlice (s : State) (p : Pend) (r : CimRun) (sl part : Nat) (got : List Nat) : State :=
  let first := r.first sl
  let n := if r.pip then 4 else 1
  let as := if r.pip then walk r.strm (first + 16 * part) 16 else walk r.strm first 64
  let ss := if r.pip then [] else (List.range 4).map fun k =>
    if first + 16 * k < recN r.strm.record then some (recScale r.strm.record (first + 16 * k)) else none
  let got := got ++ s.tile.engineVals as n
  let scs := s.tile.engineVals ss 2
  let s := (s.engineRead as n p.owner).engineRead ss 2 p.owner
  let t := s.tile
  let add (due : Nat) (k : PendKind) (u : Tile) : Tile := { u with pend := u.pend ++ [{ p with due := due, kind := k }] }
  if r.pip && part < 3 then { s with tile := add (t.c + 1) (.cimSlice r sl (part + 1) got) t }
  else
    let start := if r.pip then t.c - 3 else t.c
    let parts := t.slicePartials r (sl % r.planes) (r.blocks got scs first)
    let t := add (start + r.w + 3) (.cimAdd (r.row0 + sl / r.planes) r.accmode parts) t
    { s with tile := if sl + 1 < r.rows.length * r.planes then add (start + r.w) (.cimSlice r (sl + 1) 0 []) t else t }

/-- What adding partials does to a cell: its new contents, the flags raised, and whether it saturated. -/
structure CellAdd where
  cell : BitVec 48
  fl : Nat := 0
  sat : Bool := false
  deriving DecidableEq, Repr

/-- One add of a partial (R105, R106, R236). -/
def addPartial (accmode : Nat) (a : CellAdd) (p : Option (Int × Int)) : CellAdd :=
  let fixed := bit accmode 0
  let frac := bits accmode 6 1
  match p with
  | none =>
    if fixed then { a with fl := a.fl ||| flInvalid } else { a with cell := BitVec.ofNat 48 (bfmt 10).canonNan }
  | some (m, e) =>
    if fixed then
      let e : Int := e + frac
      let r := roundAt 0 (m < 0) m.natAbs e 0 false
      let z : Int := toSigned 48 a.cell.toNat + (if m < 0 then -(r.1 : Int) else r.1)
      let lo : Int := -2 ^ 47
      let hi : Int := 2 ^ 47 - 1
      { cell := BitVec.ofInt 48 (max lo (min hi z)), fl := a.fl ||| (if r.2 then flInexact else 0), sat := a.sat || z < lo || hi < z }
    else
      let r := (bfmt 10).sum 0 ((bfmt 10).read (a.cell.toNat % 2 ^ 32)) (.fin (m < 0) m.natAbs e)
      { a with cell := BitVec.ofNat 48 r.val, fl := a.fl ||| r.fl }

/-- Index of an accumulator cell in row-major order. -/
def accIndex (row col : Nat) : Nat := row * 384 + col

/-- The adds of one slice into one accumulator row; what they raise is kept for the end of the command (R236). -/
def Tile.cimAdd (t : Tile) (p : Pend) (row : Nat) (accmode : Word) (parts : List (List (Option (Int × Int)))) : Tile :=
  let rs := parts.zipIdx.map fun c =>
    (c.2, c.1.foldl (addPartial accmode.toNat) { cell := memGet t.acc (accIndex row c.2) })
  let fl := rs.foldl (fun f r => f ||| r.2.fl) 0
  let sat : Option (Nat × Nat) := (rs.find? fun r => r.2.sat).map fun r => (row, r.1)
  let low (a b : Option (Nat × Nat)) : Option (Nat × Nat) := match a, b with
    | some x, some y => if accIndex x.1 x.2 ≤ accIndex y.1 y.2 then some x else some y
    | some x, none => some x
    | none, y => y
  { t with
    acc := rs.foldl (fun m r => memSet m (accIndex row r.1) r.2.cell) t.acc
    pend := t.pend.map fun q => match q.kind with
      | .cimEnd te fs st =>
        if q.issue = p.issue then { q with kind := .cimEnd te (fs.set row (fs.getD row 0 ||| fl)) (low st sat) } else q
      | _ => q }

/-- The end of a multiply at c+O+4 (R236): a trap, or its flags. ACC_SAT ranks after the binary exceptions (R106). -/
def Tile.cimEnd (t : Tile) (p : Pend) (trapen : Nat) (fl : List Nat) (sat : Option (Nat × Nat)) : Tile :=
  match arithTrap trapen (fl.map bFlags), sat, bit trapen 13 with
  | some (c, v), _, _ => t.found c v p.slot p.issue p.addr
  | none, some (r, c), true => t.found .accSat (r + c * 2 ^ 6) p.slot p.issue p.addr
  | none, _, _ =>
    { t with ct := t.ct.setFlags (BitVec.ofNat 14 (bFlags (fl.foldl (· ||| ·) 0) ||| (if sat.isSome then satFlag else 0))) }

/-! ### The accumulator (R239) -/

/-- CACCZ (R239): every cell of the rows is 0 for ops issued from c+1. -/
def execCaccz (o : XM) (s : State) : Out :=
  onTile (fun t =>
    let t := t.takeCim 1
    { t with acc := memClear t.acc (accIndex (4 * o.dst.toNat) 0) (accIndex (4 * o.dst.toNat + o.cnt.toNat) 0) }) s

/-- read(cell) under an ACCMODE (R239). -/
def readCell (accmode : Nat) (cell : BitVec 48) : FRes :=
  if bit accmode 0 then
    let z := toSigned 48 cell.toNat
    let r := (bfmt 10).make 0 (z < 0) z.natAbs (-(bits accmode 6 1 : Nat)) false
    ⟨r.val, r.fl⟩
  else ⟨cell.toNat % 2 ^ 32, 0⟩

/-- Does a running multiply still add to this row, at this cycle or later (R238)? An add entered at t+1 is the add of t. -/
def Tile.rowBusy (t : Tile) (row : Nat) : Bool :=
  t.pend.any fun p => match p.kind with
    | .cimAdd r _ _ => r == row
    | .cimSlice r sl _ _ => r.row0 + sl / r.planes ≤ row && row < r.row0 + r.rows.length
    | _ => false

/-- CACCRD (R238, R239). -/
def execCaccrd (o : XM) (s : State) : Out :=
  let row := o.cnt.toNat % 64
  let g := o.cnt.toNat / 64 + (if o.sb.getLsbD 0 then 16 else 0)
  onTile (fun t =>
    let rs := (List.range 16).map fun i => readCell t.ct.cx.accmode.toNat (memGet t.acc (accIndex row (16 * g + i)))
    let t := t.collide (t.rowBusy row) (engineTval 0) 3
    t.arith (rs.map fun r => bFlags r.fl) 3 3 fun t fl =>
      t.land (.v (t.ct.cx.phys (o.dst.setWidth 5))) (ofLanes 32 (rs.map (·.val))) (BitVec.allOnes 64) fl 3 3) s

/-- The faults of CACCST (R231, R239). -/
def Tile.caccstFaults (t : Tile) (o : XM) : List (Option (Cause × Nat)) :=
  let f := t.fmtOf o.sa
  [t.xNaming o.sa true (recZ (t.ct.cx.rdA o.sa).record), shapeIf (f != 10 && f != 3) 10 o.sa,
   shapeIf (f == 3 && !bit t.ct.cx.accmode.toNat 0) 14 o.sa]

/-- CACCST (R239). -/
def execCaccst (o : XM) (s : State) : Out :=
  checked (fun s => s.tile.caccstFaults o) 3 (onTile fun t =>
    let n := if t.fmtOf o.sa = 10 then 24 * o.cnt.toNat else 48 * o.cnt.toNat
    ((t.takeCim n).advance o.sa (384 * o.cnt.toNat)).pending (t.c + 1) 3
      (.accStore (4 * o.dst.toNat) o.cnt.toNat 0 (t.ct.cx.rdA o.sa) t.ct.cx.accmode t.ct.cx.trapen)) s

/-- Stores of an engine that land two cycles from now (R239, R247): range, banks, and the write. The first out of range is recorded in that
cycle, the cycle of its access (R210, R211). -/
def State.engineStore (s : State) (els : List (Option Nat × Nat)) (z : Nat) (p : Pend) : State :=
  let all := els.filterMap fun e => e.1.map fun a => (a, e.2)
  let ok := all.filter fun a => !s.tile.ct.spOutRange a.1 z
  let cells := ok.flatMap fun a => cellsAt a.1 (bytesOf z a.2)
  let out := (all.find? fun a => s.tile.ct.spOutRange a.1 z).map fun a => { p with due := s.tile.c + 2, kind := .engineOut a.1 }
  let t := { s.tile with pend := s.tile.pend ++ out.toList }
  let us := (t.spUses (cells.map (·.1)) true p.issue p.slot p.addr false).map fun u => { u with due := t.c + 2 }
  if cells.isEmpty then { s with tile := t }
  else { s with tile := { t with pend := t.pend ++ [{ p with due := t.c + 2, kind := .spWrite cells }] } }.bookNow us

/-- Group `g` of CACCST is read from the array (R239). Its exceptions are those of the cycle in which it lands (R255); the lane of a trap
is the element's place in its group (DESIGN CHOICE, log 60). -/
def State.accStore (s : State) (p : Pend) (row0 rows g : Nat) (st : Stream) (accmode trapen : Word) : State :=
  let single := recFmt st.record == 10
  let n := if single then 16 else 8
  let cells := (List.range n).map fun i => memGet s.tile.acc (accIndex row0 (n * g + i))
  let rs : List FRes := cells.map fun c => if single then readCell accmode.toNat c else ⟨ofInt 64 (toSigned 48 c.toNat), 0⟩
  let t := s.tile
  let s := if (g + 1) * n < 384 * rows then
      { s with tile := { t with pend := t.pend ++ [{ p with due := t.c + 1, kind := .accStore row0 rows (g + 1) st accmode trapen }] } }
    else s
  let fl := rs.foldl (fun f r => f ||| bFlags r.fl) 0
  let trap := arithTrap trapen.toNat (rs.map fun r => bFlags r.fl)
  let s := if fl = 0 then s
    else { s with tile := { s.tile with pend := s.tile.pend ++ [{ p with due := t.c + 2, kind := .accFlags fl trap }] } }
  if trap.isSome then s else s.engineStore ((walk st (st.pos + n * g) n).zip (rs.map (·.val))) (recZ st.record) p

end Sys2Proof.Machine
end

