-- ==== Sys2Proof/Machine/Dense.lean ====
section
/-!
DEFINITION. The dense engine (08 R245-R250; 03 R104): DMMA, DXZ, DXLD, DXST, DCHK, DXFIX and DXRD, and what lands on the x
registers.
-/
namespace Sys2Proof.Machine

/-! ### x registers (R245) -/

/-- An x register. -/
def Ctx.rdX (x : Ctx) (n : BitVec 3) : XReg := x.x[n.toNat]'(n.isLt)

/-- Write an x register. -/
def Ctx.wrX (x : Ctx) (n : BitVec 3) (r : XReg) : Ctx := { x with x := x.x.set n.toNat r (n.isLt) }

/-- Data rows and columns N of a kind. -/
def XKind.n (k : XKind) : Nat := match k with
  | .f64 => 8
  | _ => 16

/-- The binary format of the cells. -/
def XKind.fmt (k : XKind) : BFmt := match k with
  | .f64 => bfmt 11
  | _ => bfmt 10

/-- Index of cell (i, j). -/
def XKind.index (k : XKind) (i j : Nat) : Nat := i * (k.n + 1) + j

/-- A cell. -/
def XReg.cell (r : XReg) (k : XKind) (i j : Nat) : Nat := (memGet r.cells (k.index i j)).toNat

/-- The x register that an X op names. -/
def xOf (o : XM) : BitVec 3 := o.dst.setWidth 3

/-- Occupy the dense engine for `n` cycles (R229). -/
def Tile.takeDense (t : Tile) (n : Nat) : Tile :=
  { (t.collide (t.c < t.denseBusy) (engineTval 1) 3) with denseBusy := t.c + n }

/-- The x register that a pending effect lands on, and whether it is a DXFIX. -/
def PendKind.onX : PendKind → Option (BitVec 3 × Bool)
  | .dmma x _ _ _ _ => some (x, false)
  | .xZero x => some (x, false)
  | .xLoad x _ _ => some (x, false)
  | .xFix x _ => some (x, true)
  | _ => none

/-- Does a landing on x at cycle `at_` meet another, or a DXFIX window (R249, R250)? `fix`: it is a DXFIX itself. -/
def Tile.xClash (t : Tile) (x : BitVec 3) (at_ : Nat) (fix : Bool) : Bool :=
  t.pend.any fun p => match p.kind.onX with
    | none => false
    | some (y, f) => x == y && (p.due == at_ || (f && p.issue < at_ && at_ ≤ p.due) || (fix && t.c < p.due && p.due ≤ at_))

/-- Set a landing on x for cycle `at_`. -/
def Tile.landX (t : Tile) (x : BitVec 3) (at_ : Nat) (fix : Bool) (k : PendKind) : Tile :=
  (t.collide (t.xClash x at_ fix) (0b1101 * 2 ^ 60 + x.toNat) 3).pending at_ 3 k

/-! ### DMMA (R246) -/

/-- KIND that a DMMA type gives. -/
def dmmaKind (ty : Nat) : XKind := if ty = 11 then .f64 else .f32

/-- Does the KIND of x disagree with the type (R231 REASON 11)? -/
def kindClash (k : XKind) (ty : Nat) : Bool := (k == .f32 && ty == 11) || (k == .f64 && ty != 11)

/-- The faults of DMMA (R230, R231). REASON 11, a fault of the x register, names the stream sa in TVAL (DESIGN CHOICE, log 59). -/
def Tile.dmmaFaults (t : Tile) (o : XM) : List (Option (Cause × Nat)) :=
  let ty := o.cnt.toNat % 16
  let z := typeWidth ty / 8
  let group (n : BitVec 4) : List Nat := (walk (t.ct.cx.rdA n) (t.ct.cx.rdA n).pos (64 / z)).filterMap id
  [t.xNaming o.sa false z, t.xNaming o.sb false z, shapeIf (t.fmtOf o.sa != ty) 10 o.sa, shapeIf (t.fmtOf o.sb != ty) 10 o.sb,
   (if kindClash (t.ct.cx.rdX (xOf o)).kind ty then some (.shapeFault, shapeTval 11 o.sa.toNat 0) else none),
   t.spRaceNow (group o.sa) z, t.spRaceNow (group o.sb) z]

/-- A 64-byte group of a stream, read now: its value, with its accesses made. -/
def Tile.groupNow (t : Tile) (n : BitVec 4) (z : Nat) : Vec × Tile :=
  let st := t.ct.cx.rdA n
  let as := walk st st.pos (64 / z)
  (ofLanes (8 * z) (t.engineVals as z), (t.spUseNow (as.filterMap id) z 3).advance n (64 / z))

/-- DMMA (R246). -/
def execDmma (o : XM) (s : State) : Out :=
  checked (fun s => s.tile.dmmaFaults o) 3 (onTile fun t =>
    let ty := o.cnt.toNat % 16
    let z := typeWidth ty / 8
    let a := t.groupNow o.sa z
    let b := a.2.groupNow o.sb z
    (b.2.takeDense 4).landX (xOf o) (t.c + 8) false (.dmma (xOf o) ty a.1 b.1 t.ct.cx.trapen)) s

/-- Elements of the A and B groups: a_(i,q) and b_(q,j). -/
def dmmaA (ty : Nat) (v : Vec) (i q : Nat) : Nat := if ty < 10 then lane 16 (2 * i + q) v else lane (typeWidth ty) i v
def dmmaB (ty : Nat) (v : Vec) (q j : Nat) : Nat := if ty < 10 then lane 16 (16 * q + j) v else lane (typeWidth ty) j v

/-- Rank of a type's product. -/
def dmmaRank (ty : Nat) : Nat := if ty < 10 then 2 else 1

/-- rne_x of an exact sum of values of some binary format. -/
def sumWords (f src : BFmt) (l : List Nat) : Nat := (f.sumAll (l.map fun x => some (src.read x))).val

/-- One cell updated: rne_x(cell + Σ_q x_q × y_q) (R104). -/
def updateCell (f fx fy : BFmt) (cell : Nat) (xs ys : List Nat) : FRes :=
  f.sumAll (some (f.read cell) :: (xs.zip ys).map fun e => mulNum (fx.read e.1) (fy.read e.2))

/-- The cells of x after a DMMA, with the flags that the data cells of each row raised. -/
def dmmaUpdate (r : XReg) (ty : Nat) (a b : Vec) : Store 64 × List Nat :=
  let k := dmmaKind ty
  let n := k.n
  let f := k.fmt
  let ft := bfmt ty
  let qs := List.range (dmmaRank ty)
  let row (i : Nat) : List Nat := qs.map (dmmaA ty a i)
  let col (j : Nat) : List Nat := qs.map (dmmaB ty b · j)
  let sA := qs.map fun q => sumWords f ft ((List.range n).map (dmmaA ty a · q))
  let sB := qs.map fun q => sumWords f ft ((List.range n).map (dmmaB ty b q))
  let cell (i j : Nat) : FRes :=
    let c := r.cell k i j
    if i < n then if j < n then updateCell f ft ft c (row i) (col j) else updateCell f ft f c (row i) sB
    else if j < n then updateCell f f ft c sA (col j) else updateCell f f f c sA sB
  let rows := (List.range (n + 1)).map fun i => (List.range (n + 1)).map (cell i)
  let cells := rows.flatMap fun l => l.map (·.val)
  (memSetAll [] (cells.zipIdx.map fun e => (e.2, BitVec.ofNat 64 e.1)),
   (rows.take n).map fun l => (l.take n).foldl (fun fl c => fl ||| c.fl) 0)

/-- Invert the cell bit that an injection of UNIT 1 names, where it lies in the landing's KIND (R198). -/
def injectCell (k : XKind) (w : Nat) (cells : Store 64) : Store 64 :=
  if (k == .f64 && 80 < finjIndex w) || (k != .f64 && 31 < finjBit w) then cells
  else memSet cells (finjIndex w) (memGet cells (finjIndex w) ^^^ ((1 : BitVec 64) <<< finjBit w))

/-- Does an injection of UNIT 1 name x? -/
def finjOnX (w : Nat) (x : BitVec 3) : Bool := finjUnit w == 1 && finjXreg w == x.toNat

/-- A DMMA landing under FINJ (R198): the count goes down, and the AFTER-th landing inverts a bit; an injection replaced in
this same cycle still fires. -/
def Tile.finjLanding (t : Tile) (x : BitVec 3) (k : XKind) (cells : Store 64) : Tile × Store 64 :=
  let (t, cells) := match t.ct.finjPrev with
    | some (c, w, n) =>
      if c = t.c && finjOnX w.toNat x && n == 1 then ({ t with ct := t.ct.finjOldFired }, injectCell k w.toNat cells) else (t, cells)
    | none => (t, cells)
  if finjOnX t.ct.finj.toNat x then
    if t.ct.finjDue = 1 then ({ t with ct := t.ct.finjFired }, injectCell k t.ct.finj.toNat cells)
    else ({ t with ct := { t.ct with finjDue := t.ct.finjDue - 1 } }, cells)
  else (t, cells)

/-- A DMMA lands (R246): a trap enabled at its issue leaves x as it was. -/
def Tile.landDmma (t : Tile) (p : Pend) (x : BitVec 3) (ty : Nat) (a b : Vec) (trapen : Word) : Tile :=
  let u := dmmaUpdate (t.ct.cx.rdX x) ty a b
  match arithTrap trapen.toNat (u.2.map bFlags) with
  | some (c, v) => t.found c v p.slot p.issue p.addr
  | none =>
    let k := dmmaKind ty
    let r := t.finjLanding x k u.1
    let t := r.1.onCx (·.wrX x { kind := k, cells := r.2 })
    { t with ct := t.ct.setFlags (BitVec.ofNat 14 (bFlags (u.2.foldl (· ||| ·) 0))) }

/-! ### DXZ, DXLD, DXST, DXRD (R247) -/

/-- DXZ. -/
def execDxz (o : XM) (s : State) : Out :=
  onTile (fun t => (t.takeDense 1).landX (xOf o) (t.c + 1) false (.xZero (xOf o))) s

/-- DXLD. -/
def execDxld (o : XM) (s : State) : Out :=
  checked (fun s =>
    let t := s.tile
    let f := t.fmtOf o.sa
    [t.xNaming o.sa false (recZ (t.ct.cx.rdA o.sa).record), shapeIf (f != 10 && f != 11) 10 o.sa]) 3 (onTile fun t =>
    let k : XKind := if t.fmtOf o.sa = 11 then .f64 else .f32
    let n := if k = .f64 then 8 else 16
    let t := (t.takeDense n).landX (xOf o) (t.c + 4 + n) false (.xLoad (xOf o) k [])
    (t.advance o.sa (k.n * k.n)).pending (t.c + 1) 3 (.xRead (xOf o) 0 (t.ct.cx.rdA o.sa))) s

/-- Group `g` of DXLD is read. -/
def State.xRead (s : State) (p : Pend) (x : BitVec 3) (g : Nat) (st : Stream) : State :=
  let z := recZ st.record
  let n := 64 / z
  let as := walk st (st.pos + n * g) n
  let vals := s.tile.engineVals as z
  let s := s.engineRead as z p.owner
  let t := s.tile
  let pend := t.pend.map fun q => match q.kind with
    | .xLoad y k got => if q.issue = p.issue && y = x then { q with kind := .xLoad y k (got ++ vals) } else q
    | _ => q
  let last := if z = 8 then 8 else 16
  { s with tile := { t with
      pend := if g + 1 < last then pend ++ [{ p with due := t.c + 1, kind := .xRead x (g + 1) st }] else pend } }

/-- DXLD lands: the data cells, and every check cell as one rounding of its exact sum. -/
def loadedX (k : XKind) (vals : List Nat) : XReg :=
  let n := k.n
  let d (i j : Nat) : Nat := vals.getD (i * n + j) 0
  let cell (i j : Nat) : Nat :=
    if i < n then if j < n then d i j else sumWords k.fmt k.fmt ((List.range n).map (d i))
    else if j < n then sumWords k.fmt k.fmt ((List.range n).map (d · j)) else sumWords k.fmt k.fmt (vals.take (n * n))
  let cells := (List.range (n + 1)).flatMap fun i => (List.range (n + 1)).map (cell i)
  { kind := k, cells := memSetAll [] (cells.zipIdx.map fun e => (e.2, BitVec.ofNat 64 e.1)) }

/-- The data cells of x, row-major. -/
def XReg.data (r : XReg) (k : XKind) : List Nat :=
  (List.range (k.n * k.n)).map fun e => r.cell k (e / k.n) (e % k.n)

/-- The kind of the stream that a DXST of an EMPTY x asks for, else the kind of x. -/
def Tile.storeKind (t : Tile) (o : XM) : XKind :=
  match (t.ct.cx.rdX (xOf o)).kind with
  | .empty => if t.fmtOf o.sa = 11 then .f64 else .f32
  | k => k

/-- DXST. -/
def execDxst (o : XM) (s : State) : Out :=
  checked (fun s =>
    let t := s.tile
    let f := t.fmtOf o.sa
    [t.xNaming o.sa true (recZ (t.ct.cx.rdA o.sa).record),
     shapeIf (!((f == 10 && t.storeKind o == .f32) || (f == 11 && t.storeKind o == .f64))) 10 o.sa]) 3 (onTile fun t =>
    let k := t.storeKind o
    let t := (t.takeDense (if k = .f64 then 8 else 16)).advance o.sa (k.n * k.n)
    t.pending (t.c + 1) 3 (.xStore 0 (t.ct.cx.rdA o.sa) ((t.ct.cx.rdX (xOf o)).data k))) s

/-- Group `g` of DXST goes out: it lands as a store two cycles on. -/
def State.xStore (s : State) (p : Pend) (g : Nat) (st : Stream) (vals : List Nat) : State :=
  let z := recZ st.record
  let n := 64 / z
  let t := s.tile
  let s := if n < vals.length then
      { s with tile := { t with pend := t.pend ++ [{ p with due := t.c + 1, kind := .xStore (g + 1) st (vals.drop n) }] } }
    else s
  s.engineStore ((walk st (st.pos + n * g) n).zip (vals.take n)) z p

/-- Does DXRD name a cell that F64 contents do not have (R247)? -/
def Tile.noCell (t : Tile) (o : XM) : Bool := (t.ct.cx.rdX (xOf o)).kind == .f64 && 80 < o.cnt.toNat

/-- DXRD. Its bundle is refused for an index of this kind before its ops run, as for the cases of R52 (R230); a reissue of REP is not. -/
def execDxrd (o : XM) (s : State) : Out :=
  let r := s.tile.ct.cx.rdX (xOf o)
  if s.tile.noCell o then trapOut .illegalOp s.tile.freeTval 3 s
  else onTile (fun t => (t.takeDense 1).landS (o.sa.setWidth 6) (memGet r.cells o.cnt.toNat) 2 3) s

/-! ### DCHK and DXFIX (R248, R249) -/

/-- The exact value of a finite word, as a signed term. -/
def finTerm (f : BFmt) (x : Nat) : Option (Bool × Nat × Int) :=
  match f.read x with
  | .fin n m e => some (n, m, e)
  | _ => none

/-- |sum − h| ≤ 2^−t × (Σ|c| + |h|), exactly (R248). -/
def withinTol (f : BFmt) (t : Nat) (sum h : Nat) (cs : List Nat) : Bool :=
  match finTerm f sum, finTerm f h with
  | some a, some b =>
    let d := sumTerms [a, (!b.1, b.2)]
    let m := sumTerms (((h :: cs).filterMap (finTerm f)).map fun x => (false, x.2))
    let e := min d.2 m.2
    d.1.natAbs * 2 ^ (d.2 - e).toNat * 2 ^ t ≤ m.1.natAbs * 2 ^ (m.2 - e).toNat
  | _, _ => false

/-- Does a line of cells agree with its check cell (R248)? -/
def linePasses (f : BFmt) (t : Nat) (cs : List Nat) (h : Nat) : Bool :=
  let sum := match cs with
    | [] => 0
    | c :: r => r.foldl (fun s x => (fAdd f 0 s x).val) c
  let bad := (h :: sum :: cs).any fun x => (f.read x).isNan
  let inf (x : Nat) : Bool := (f.read x).isInf false || (f.read x).isInf true
  if bad then false else if inf sum || inf h then f.read sum == f.read h else withinTol f t sum h cs

/-- The row and column masks of DCHK. -/
def checkMasks (r : XReg) (t : Nat) : Nat × Nat :=
  let k := r.kind
  if k = .empty then (0, 0)
  else
    let idx := List.range (k.n + 1)
    let line (f : Nat → Nat) : List Nat := (List.range k.n).map f
    (joinNat 1 (idx.map fun i => if linePasses k.fmt t (line (r.cell k i)) (r.cell k i k.n) then 0 else 1),
     joinNat 1 (idx.map fun j => if linePasses k.fmt t (line (r.cell k · j)) (r.cell k k.n j) then 0 else 1))

/-- Is a pattern repairable: both masks zero, or one bit in each? -/
def repairable (rows cols : Nat) : Bool :=
  (rows = 0 && cols = 0) || (popCount 17 rows == 1 && popCount 17 cols == 1)

/-- TRAPEN.CHK. -/
def Tile.chkEn (t : Tile) : Bool := bit t.trapen 16

/-- DCHK (R248). -/
def execDchk (o : XM) (s : State) : Out :=
  onTile (fun t =>
    let m := checkMasks (t.ct.cx.rdX (xOf o)) (o.cnt.toNat % 64)
    let t := t.takeDense 4
    if !repairable m.1 m.2 && t.chkEn then t.pending (t.c + 20) 3 (.checksum m.1 m.2)
    else (t.landS (o.sa.setWidth 6) (BitVec.ofNat 64 m.1) 20 3).landS (o.sb.setWidth 6) (BitVec.ofNat 64 m.2) 20 3) s

/-- The cell that DXFIX rewrites, and its value, from x as it stands (R249). -/
def fixedCell (r : XReg) (rows cols : Nat) : Nat × Nat :=
  let k := r.kind
  let n := k.n
  let i := trailZeros 17 rows
  let j := trailZeros 17 cols
  let word (x : Nat) : Option BNum := some (k.fmt.read x)
  if j < n then
    (k.index i j, (k.fmt.sumAll (word (r.cell k i n) ::
      ((List.range n).filter (· != j)).map fun c => some (k.fmt.read (r.cell k i c)).flip)).val)
  else (k.index i n, (k.fmt.sumAll ((List.range n).map fun c => word (r.cell k i c))).val)

/-- DXFIX (R249). -/
def execDxfix (o : XM) (s : State) : Out :=
  onTile (fun t =>
    let r := t.ct.cx.rdX (xOf o)
    let m := 2 ^ (r.kind.n + 1)
    let rows := t.sN (o.sa.setWidth 6) % m
    let cols := t.sN (o.sb.setWidth 6) % m
    let one := popCount 17 rows == 1 && popCount 17 cols == 1
    let t := (t.takeDense 4).landX (xOf o) (t.c + 20) true (.xFix (xOf o) (if one then some (fixedCell r rows cols) else none))
    if !repairable rows cols && t.chkEn then t.pending (t.c + 20) 3 (.checksum rows cols) else t) s

/-- The landings on x other than DMMA (R247, R249). -/
def Tile.landOnX (t : Tile) (k : PendKind) : Tile :=
  match k with
  | .xZero x => t.onCx (·.wrX x {})
  | .xLoad x kind vals => t.onCx (·.wrX x (loadedX kind vals))
  | .xFix x (some (i, v)) => t.onCx fun c => c.wrX x { c.rdX x with cells := memSet (c.rdX x).cells i (BitVec.ofNat 64 v) }
  | _ => t

/-- CHECKSUM of an unrepairable pattern (R248): the row mask in TVAL[16:0], the column mask in TVAL[48:32]. -/
def Tile.raiseChecksum (t : Tile) (p : Pend) (rows cols : Nat) : Tile :=
  t.found .checksum (rows + cols * 2 ^ 32) p.slot p.issue p.addr

end Sys2Proof.Machine
end

