-- ==== Sys2Proof/Machine/Husk.lean ====
section
/-!
DEFINITION. Husk transfers (13 R345-R363) and the publish-index op (13 R364, R365): descriptors, windows and promises, and STAGE,
STAGEW, PUBS, HQRY and PUBIDX.
-/
namespace Sys2Proof.Machine

/-! ### Descriptors (R357) -/

/-- Bits of a descriptor word. -/
def dscField (d : List Word) (w h l : Nat) : Nat := bits (d.getD w 0).toNat h l
def dscKind (d : List Word) : Nat := dscField d 0 1 0
def dscXfmt (d : List Word) : Nat := dscField d 0 3 2
def dscEngine (d : List Word) : Nat := dscField d 0 9 4
def dscVault (d : List Word) : Bool := dscField d 0 10 10 == 1
def dscBar (d : List Word) : Bool := dscField d 0 11 11 == 1
def dscBarVault (d : List Word) : Bool := dscField d 0 12 12 == 1
def dscDva (d : List Word) : Nat := dscField d 1 63 0
def dscLoc (d : List Word) : Nat := dscField d 2 63 0
def dscLen (d : List Word) : Nat := dscField d 3 31 0
def dscScale (d : List Word) : Nat := dscField d 4 63 0
def dscBaddr (d : List Word) : Nat := dscField d 5 63 0

/-- Mantissa bits of the block format that XFMT 1-3 names. -/
def dscBits (d : List Word) : Nat := bqBits (dscXfmt d - 1)

/-- Source bytes: LEN, or the packed blocks (R359, R372). -/
def dscSource (d : List Word) : Nat := if dscXfmt d = 0 then dscLen d else dscLen d * bqSize (dscBits d)

/-- DRAM lines N (R352, R359, R360). -/
def dscN (d : List Word) : Nat := (dscSource d + 63) / 64

/-- Local lines Nd (R352, R359). -/
def dscNd (d : List Word) : Nat :=
  if dscKind d = 2 then 0 else if dscXfmt d = 0 then dscLen d / 64 else dscLen d / 4 + (dscLen d + 31) / 32

/-- The local byte ranges of a transfer: the elements or raw bytes, and the scale entries. -/
def dscRanges (d : List Word) : List (Nat × Nat) :=
  if dscKind d = 2 then []
  else if dscXfmt d = 0 then [(dscLoc d, dscLen d)]
  else [(dscLoc d, 16 * dscLen d), (dscScale d, 2 * dscLen d)]

/-- Do two byte ranges meet? -/
def rangesMeet (a n b m : Nat) : Bool := a < b + m && b < a + n

/-- Does the range touch a region's shadow storage or race carve-out (R358)? -/
def regionHits (r : Region) (space a n : Nat) : Bool :=
  r.space == space && ((r.staged && rangesMeet a n (r.base + r.size) r.size) || (r.race && rangesMeet a n r.rcbase (r.size / 2)))

/-- Does a local range lie in the share, outside shadow storage and race carve-outs? -/
def State.localOk (s : State) (vault : Bool) (a n : Nat) : Bool :=
  let k := s.tile.ct
  !(k.regions.any fun r => regionHits r (if vault then 1 else 0) a n) &&
    (if vault then
      match s.myJob with
      | none => false
      | some j => a < 2 ^ 37 && (vQuad a).1 < j.width && (vQuad a).2 < j.height && vByteOf a + n ≤ j.vshare
     else a + n ≤ k.ssize * 1024)

/-- Does the range lie wholly in one staged region? -/
def stagedRange (rs : List Region) (space a n : Nat) : Bool :=
  rs.any fun r => r.staged && r.space == space && r.base ≤ a && a + n ≤ r.base + r.size

/-- Is a barrier address in range (R209, R285)? -/
def State.baddrOk (s : State) (vault : Bool) (a : Nat) : Bool :=
  if vault then
    match s.vPlace a 16 with
    | .share | .commons _ => true
    | _ => false
  else !s.tile.ct.spOutRange a 16

/-- The first check of R358 that a descriptor fails, as its REASON. -/
def State.dscReason (s : State) (d : List Word) : Option Nat :=
  let kind := dscKind d
  let x := dscXfmt d
  let len := dscLen d
  if dscField d 0 63 13 ≠ 0 || dscField d 3 63 32 ≠ 0 || (x = 0 && dscScale d ≠ 0) || (!dscBar d && dscBaddr d ≠ 0)
      || d.getD 6 0 ≠ 0 || d.getD 7 0 ≠ 0 || kind = 3 || (x ≠ 0 && kind ≠ 0) then some 1
  else if Config.engines ≤ dscEngine d then some 2
  else if (if x = 0 then len % (if kind = 2 then 32 else 64) ≠ 0 || len < 64 || 262144 < len
      else len % 4 ≠ 0 || len < 4 || 16384 < len) then some 3
  else if dscDva d % 64 ≠ 0 || dscLoc d % (if kind = 2 then 32 else 64) ≠ 0 || dscScale d % 64 ≠ 0
      || (dscBar d && (dscBaddr d % 16 ≠ 0 || !s.baddrOk (dscBarVault d) (dscBaddr d)))
      || (dscRanges d).any (fun r => !s.localOk (dscVault d) r.1 r.2) then some 4
  else if (kind = 0 && (dscRanges d).any fun r => !stagedRange s.tile.ct.regions (if dscVault d then 1 else 0) r.1 r.2)
      || (kind = 1 && !stagedRange s.tile.ct.regions 2 (dscDva d) len) then some 5
  else if kind = 2 && s.tile.ct.codeEnd < dscLoc d + len then some 6
  else none

/-! ### Windows and promises (R350-R353) -/

/-- The stream entries of a job's fabric plan, four words each (R416). -/
def planStreams (plan : List Word) : List (List Word) :=
  (List.range ((plan.length - 1) / 4)).map fun i => (plan.drop (1 + 4 * i)).take 4

/-- Fields of a stream entry (R416). -/
def strmField (e : List Word) (w h l : Nat) : Nat := bits (e.getD w 0).toNat h l
def strmSreg (e : List Word) : Nat := strmField e 0 7 0
def strmSpod (e : List Word) : Nat := strmField e 0 13 8
def strmDpod (e : List Word) : Nat := strmField e 0 19 14
def strmDreg (e : List Word) : Nat := strmField e 0 27 20
def strmPort (e : List Word) : Nat := strmField e 0 32 28
def strmAlt (e : List Word) : Nat := strmField e 0 37 33
def strmAltv (e : List Word) : Bool := strmField e 0 38 38 == 1
def strmLines (e : List Word) : Nat := strmField e 1 31 0
def strmSlots (e : List Word) : Nat := strmField e 1 36 32

/-- The port on which the sender of a stream of the job sends: its alternate once its port has been rerouted (R424). -/
def Job.portOf (j : Job) (e : List Word) : Nat := if j.alts.contains (strmPort e) then strmAlt e else strmPort e

/-- Is fabric port `k` of this module one on which the stream would come, from the sender's port `out`? -/
def Pod.carries (p : Pod) (k : Nat) (e : List Word) (out : Nat) : Bool :=
  (strmSpod e == p.id && out == k) || (strmDpod e == p.id && p.ports.any fun q => q.1 == k && q.2.peer == some (strmSpod e, out))

/-- Does the stream send from, or arrive at, this module? -/
def Pod.onStream (p : Pod) (e : List Word) : Bool := strmSpod e == p.id || strmDpod e == p.id

/-- RATE of a partition of `w` × `h` quads (R350). -/
def baseRate (w h : Nat) : Nat := max 1 (400 * w * h / 4608)

/-- RATE of a job's window on an engine, less the slots of its fabric streams there (R350, R418). -/
def Job.rate (j : Job) (p : Pod) (engine : Nat) : Nat :=
  baseRate j.width j.height - sumNat (((planStreams j.plan).filter fun e => p.onStream e && strmPort e == engine).map strmSlots)

/-- L (R352). -/
def promiseLength (rate n nd : Nat) : Nat := 640 + max ((16 * n + rate - 1) / rate) nd

/-- A window with an active transfer whose T has come replaced by its shadow (R353). -/
def Window.settle (w : Window) (c : Nat) : Window :=
  match w.active with
  | some a => if a.t ≤ c then { w with active := w.shadow, shadow := none } else w
  | none => { w with active := w.shadow, shadow := none }

/-- The window of a job on an engine. -/
def Job.window (j : Job) (engine : Nat) : Window :=
  (j.windows.find? fun w => w.engine == engine).getD { engine := engine }

/-- Keep a window. -/
def Job.setWindow (j : Job) (w : Window) : Job :=
  { j with windows := w :: j.windows.filter fun v => v.engine != w.engine }

/-- Take a window at issue cycle `c` for a transfer whose start and end are still open; none for ENGINE_OVERRUN (R353). -/
def Window.take (w : Window) (c : Nat) (x : Transfer) (len : Nat) : Option (Window × Transfer) :=
  let w := (w.settle c).settle c
  match w.active, w.shadow with
  | none, _ => let x := { x with s := c + 1, t := c + 1 + len }; some ({ w with active := some x }, x)
  | some a, none => let x := { x with s := a.t, t := a.t + len }; some ({ w with shadow := some x }, x)
  | some _, some _ => none

/-! ### The map (R346-R348) -/

/-- Has the job a page at DVA `a` (R346)? -/
def Job.paged (j : Job) (a : Nat) : Bool :=
  a < 2 ^ 44 && j.pages.any fun p => if p.large then p.index == a / 2 ^ 31 else p.index == a / 2 ^ 21

/-- The 2 GiB blocks of DVA that small pages lie in: a level-2 table for each. -/
def Job.smallBlocks (j : Job) : List Nat := uniq ((j.pages.filter (!·.large)).map (·.index / 1024))

/-- Level-2 tables that a partition can have in an engine's store. Tables are numbered by partition, then by block (DESIGN CHOICE, log 64). -/
def tablesEach : Nat := 4096

/-- Level-1 entry `i` of the map of a job's partition (R347). -/
def Job.level1 (j : Job) (i : Nat) : Word :=
  match j.pages.find? (fun p => p.large && p.index == i), j.smallBlocks.idxOf? i with
  | some p, _ => BitVec.ofNat 64 (1 + p.stack * 2 ^ 2 + p.ppn * 2 ^ 8)
  | none, some t => BitVec.ofNat 64 (2 + (j.pid * tablesEach + t) * 2 ^ 16)
  | none, none => 0

/-- Entry `k` of level-2 table `tbl` (R347). -/
def Job.level2 (j : Job) (tbl k : Nat) : Word :=
  match (j.smallBlocks[tbl % tablesEach]?).bind fun b => j.pages.find? fun p => !p.large && p.index == b * 1024 + k with
  | some p => BitVec.ofNat 64 (1 + p.stack * 2 ^ 2 + p.ppn * 2 ^ 8)
  | none => 0

/-- The map words of a walk: that of level 1, and where its KIND is 2 that of the table it names (R347, R348). -/
def Job.walk (j : Job) (a : Nat) : Word × Option Word :=
  let w := j.level1 (bits a 43 31)
  (w, if bits w.toNat 1 0 = 2 then some (j.level2 (bits w.toNat 35 16) (bits a 30 21)) else none)

/-- Is the DRAM line at `a` mapped, by the copy that the engines hold (R347)? -/
def Job.mapped (j : Job) (a : Nat) : Bool :=
  a < 2 ^ 44 && j.mapSet && match j.walk a with
    | (w, none) => bits w.toNat 1 0 == 1
    | (_, some v) => bits v.toNat 1 0 == 1

/-- The DRAM lines of a transfer. -/
def dscLines (d : List Word) : List Nat := (List.range (dscN d)).map fun i => dscDva d + 64 * i

/-- TVAL of TRANSLATION and of MISSED_PROMISE on an engine (R348, R355). -/
def huskTval (engine dva : Nat) : Nat := engine + bits dva 43 6 * 2 ^ 6

/-! ### The descriptor read of STAGE (R361) -/

/-- The result of a STAGE is dropped: the bundle faulted. -/
def Context.dropResult (k : Context) (id : Nat) : Context :=
  { k with inflight := k.inflight.filter fun r => r.id != id }

/-- A STAGE faults at its descriptor read: nothing is reserved, and a suspended tile goes on. -/
def Tile.stageFault (t : Tile) (r : Result) (wait : Bool) (c : Cause) (v : Nat) : Tile :=
  let t := { t with ct := t.ct.dropResult r.id }.found c v r.slot r.issue r.addr
  if wait then { t with ct := t.ct.goOn } else t

/-- TVAL of a descriptor that fails a check (R358). -/
def dscTval (ea reason : Nat) : Nat := ea % 2 ^ 19 + reason * 2 ^ 60

/-- The transfer that a checked descriptor asks for. -/
def Tile.transferOf (t : Tile) (d : List Word) (r : Result) : Transfer :=
  { ltid := t.ltid, desc := d, issue := r.issue, s := 0, t := 0, n := dscN d, nd := dscNd d
    strand := t.vTag, addr := r.addr }

/-- T is known: it is filled in, and STAGEW waits for it. -/
def Tile.promised (t : Tile) (r : Result) (wait : Bool) (T : Nat) : Tile :=
  let k := t.ct.fill r.id ((BitVec.ofNat 64 T).setWidth 512) 0
  { t with ct := { k with husk := max k.husk T, run := if wait then .wait (T + 1) .stagew else k.run } }

/-- The descriptor read of STAGE and STAGEW at c+1 (R361): the checks of R358, the window of R353, and the bank collision of
the read. One charged with it has lost its result, and reserves nothing. -/
def State.stageRead (s : State) (r : Result) (ea : Nat) (wait : Bool) : State :=
  let t := s.tile
  let out := t.ct.spOutRange ea 64
  let d := if out then List.replicate 8 0 else wordsOf 8 (t.spBytes ea 64)
  match s.dscReason d, s.myJob with
  | some reason, _ => { s with tile := t.stageFault r wait .illegalOp (dscTval ea reason) }
  | none, none => { s with tile := t.stageFault r wait .engineOverrun (dscEngine d) }
  | none, some j =>
    let len := promiseLength (j.rate s.pod (dscEngine d)) (dscN d) (dscNd d)
    match (j.window (dscEngine d)).take r.issue (t.transferOf d r) len with
    | none => { s with tile := t.stageFault r wait .engineOverrun (dscEngine d) }
    | some (w, x) =>
      let as := (List.range 64).map (ea + ·)
      let s1 := s.bookNow (t.spUses as false r.issue r.slot r.addr false)
      if s1.tile.ct.inflight.any (·.id == r.id) then
        { s1 with tile := (s1.tile.promised r wait x.t).spCheck as r.slot r.issue r.addr }.onJob t.ct.pid (·.setWindow w)
      else if wait then { s1 with tile := { s1.tile with ct := s1.tile.ct.goOn } } else s1

/-! ### The ops -/

/-- A STAGE: the descriptor is read at c+1 and T lands at c+2. -/
def stage (o : MM) (x : Ext) (wait : Bool) (s : State) : Out :=
  let ea := s.tile.ea o x 64
  if ea % 64 ≠ 0 then trapOut .alignment ea 2 s
  else
    onTile (fun t =>
      let t := (t.spNote [ea] 64).addResult (.s o.t) (t.c + 2) (t.c + 1) (.stage ea wait) 0xFF 0 2
      if wait then { t with ct := t.ct.hold (.wait (t.c + 2) .stagew) } else t) s

/-- STAGE (R361). -/
def execStage (o : MM) (x : Ext) (s : State) : Out := stage o x false s

/-- STAGEW (R361): the bundle after it issues at T + 1. -/
def execStagew (o : MM) (x : Ext) (s : State) : Out := stage o x true s

/-- PUBS (R362): publish at c+1 the staged region that s[base] names, or the pending overlays. -/
def execPubs (o : MM) (s : State) : Out :=
  let v := s.tile.sN o.base
  let ok := v == 256 || (match s.tile.ct.regions[v]? with
    | some r => r.staged
    | none => false)
  if ok then onTile (fun t => t.pending (t.c + 1) 2 (.publish v)) s else trapOut .illegalOp v 2 s

/-- Misses counted against the node that the tile runs (R355). -/
def Job.misses (j : Job) (node : Nat) : Nat := ((j.stats.find? fun e => e.node == node).map (·.misses)).getD 0

/-- HQRY (R363). -/
def execHqry (o : MM) (s : State) : Out :=
  let t := s.tile
  let e := t.sN o.base
  if Config.engines ≤ e then trapOut .illegalOp e 2 s
  else
    let v : Nat := match s.myJob with
      | none => 0
      | some j =>
        let w := (j.window e).settle t.c
        match o.off.toNat % 8 with
        | 0 => match w.active with
          | some a => if t.c < a.t then a.t else 0
          | none => 0
        | 1 => (w.shadow.map (·.t)).getD 0
        | 2 => j.rate s.pod e
        | _ => j.misses t.ct.node
    onTile (·.landS o.t (BitVec.ofNat 64 v) 2 2) s

/-- Log code of PUBIDX among the outside effects (R259). -/
def pubidxCode : Nat := 0x40

/-- The commons of the VALUE register that a PUBIDX names; none where it is out of range (R364, R365). -/
def State.valueOf (s : State) (ea : Nat) : Option Nat :=
  match s.vPlace ea 8 with
  | .index cid => if vByteOf ea < indexBase + 128 && ea % 8 = 0 then some cid else none
  | _ => none

/-- Send a PUBIDX: to its slot, or out of range (R365). -/
def sendPubidx (ea : Nat) (v : Word) (s : State) : State :=
  match s.valueOf ea with
  | some cid => s.request cid { s.tile.creq ea 4 8 with x := v }
  | none => { s with tile := s.tile.outOfRange true ea }

/-- PUBIDX (R365): an outside effect, which a re-run does not resend; out of range it is recorded again. -/
def execPubidx (o : MM) (x : Ext) (s : State) : Out :=
  let ea := s.tile.ea o x 8
  let v := s.tile.s o.t
  let a := BitVec.ofNat 64 ea
  match s.tile.ct.replayed with
  | some e =>
    if e.agrees pubidxCode a [v] then
      onTile (fun t =>
        let t := if s.valueOf ea = none then t.outOfRange true ea else t
        { t with ct := { t.ct with logPos := t.ct.logPos + 1 } }) s
    else trapOut .checksum 0 2 s
  | none =>
    let s' := sendPubidx ea v s
    let entry : LogEntry := { code := pubidxCode, addr := a, operands := [v], value := some 0, offset := 0, id := s.tile.uid }
    .next { s' with tile := { s'.tile with ct := s'.tile.ct.logged entry } }

end Sys2Proof.Machine
end

