-- ==== Sys2Proof/Machine/Landing.lean ====
section
/-!
DEFINITION. What comes due on a tile in a cycle after issue (01 R36-R40; 05 R140, R158, R161; 06 R198; 07 R202; 08 R230-R250; 10
R275-R296; 13 R368-R373). Each of these steps acts on the tile in focus, for everything of its kind that is due there.
-/
namespace Sys2Proof.Machine

/-! ### Due entries -/

/-- The pending effects of a kind that are due, and the tile without them. -/
def Tile.takeDue (t : Tile) (f : PendKind → Bool) : List Pend × Tile :=
  let d (p : Pend) : Bool := p.due ≤ t.c && f p.kind
  (t.pend.filter d, { t with pend := t.pend.filter (!d ·) })

/-- Take the due effects of a kind on the tile in focus and do `g` for each, in order. -/
def eachDue (f : PendKind → Bool) (g : State → Pend → State) (s : State) : State :=
  let r := s.tile.takeDue f
  r.1.foldl g { s with tile := r.2 }

/-- Is some effect of the kind due? -/
def Tile.hasDue (t : Tile) (f : PendKind → Bool) : Bool := t.pend.any fun p => p.due ≤ t.c && f p.kind

def PendKind.isSpWrite : PendKind → Bool
  | .spWrite _ | .outWrite .sp _ _ | .accFlags .. | .engineOut _ => true
  | _ => false
def PendKind.isVaultWrite : PendKind → Bool
  | .vaultWrite _ | .outWrite .vault _ _ => true
  | _ => false
def PendKind.isVaultRead : PendKind → Bool
  | .vaultRead .. => true
  | _ => false
def PendKind.isPublish : PendKind → Bool
  | .publish _ => true
  | _ => false
def PendKind.isAtomic : PendKind → Bool
  | .atomic .. => true
  | _ => false
def PendKind.isBarrier : PendKind → Bool
  | .barrier .. => true
  | _ => false
def PendKind.isPlaneWrite : PendKind → Bool
  | .planeWrite .. => true
  | _ => false
def PendKind.isAdd : PendKind → Bool
  | .cimAdd .. | .cimEnd .. => true
  | _ => false
def PendKind.isDmma : PendKind → Bool
  | .dmma .. => true
  | _ => false
def PendKind.isXLanding : PendKind → Bool
  | .xZero _ | .xLoad .. | .xFix .. => true
  | _ => false
def PendKind.isChecksum : PendKind → Bool
  | .checksum .. => true
  | _ => false
def PendKind.isStream : PendKind → Bool
  | .planeRead .. | .cimSlice .. | .accStore .. | .xRead .. | .xStore .. => true
  | _ => false

/-! ### Reads of results (R215-R217, R223, R361) -/

/-- Is the source of a result still to be read? -/
def Result.toRead (r : Result) (now : Nat) : Bool := r.rdAt ≤ now && match r.src with
  | .read .. | .stage .. | .drain .. => true
  | _ => false

/-- The bytes of a read result: its value, sign-extended when asked. -/
def Tile.readValue (t : Tile) (bytes : List (Option Nat)) (sx : Option Nat) : Vec :=
  let n := ofBytes (bytes.map fun b => match b with
    | some a => t.spByte a
    | none => 0)
  match sx with
  | some w => (sextWord w n).setWidth 512
  | none => BitVec.ofNat 512 n

/-- The fault of a SETS record (R220, R223). -/
def setsFault (d : Dest) (v : Vec) : Option Nat :=
  match d with
  | .stream n => (recReason v).map fun r => shapeTval r.1 n.toNat r.2
  | _ => none

/-- The results of an op that takes no effect after all are gone (R256). -/
def Tile.spoilResults (t : Tile) (issue slot : Nat) : Tile :=
  { t with ct := { t.ct with inflight := t.ct.inflight.filter fun r => !(r.issue == issue && r.slot == slot) } }

/-- Read the source of one result. A VDRAIN's first destination reads the entries for all of them (R133). -/
def State.readResult (s : State) (r : Result) : State :=
  match r.src with
  | .read _ bytes sx =>
    let a := s.tile.touchSp (bytes.filterMap id) false r.owner
    let t := a.1
    let v := t.readValue bytes sx
    if !a.2 then { s with tile := { t with ct := t.ct.dropResult r.id } }
    else
      match setsFault r.dest v with
      | some tv => { s with tile := { t with ct := t.ct.dropResult r.id }.found .shapeFault tv r.slot r.issue r.addr }
      | none => { s with tile := { t with ct := t.ct.fill r.id v 0 } }
  | .drain touch bytes =>
    let a := s.tile.touchSp touch false r.owner
    if a.2 then { s with tile := { a.1 with ct := a.1.ct.fill r.id (a.1.readValue bytes none) 0 } }
    else { s with tile := a.1.spoilResults r.issue r.slot }
  | .stage ea wait => s.stageRead r ea wait
  | _ => s

/-! ### Landings (R36, R92, R171) -/

/-- Is a result ready to land? -/
def Result.lands (r : Result) (now : Nat) : Bool := r.due ≤ now && r.y.isNone && match r.src with
  | .val _ => true
  | _ => false

/-- The status of the BWAIT lands: its wait ends, PASSED sets BPH, and the log gains its entry (R259, R373, R376). -/
def Context.waitEnded (k : Context) (id : Nat) (v : Word) : Context :=
  let k := match k.waitLog with
    | some e => { k with waitLog := none }.logged { e with value := some v, offset := k.now - k.s0 }
    | none => k
  let k := { k with
    waiting := none
    cx := if bit v.toNat 12 then { k.cx with phase := BitVec.ofNat 64 (k.cx.phase.toNat % 2 ^ 16 + bits v.toNat 11 0 * 2 ^ 16) }
      else k.cx }
  if k.run = .bwait id then k.goOn else k

/-- A result lands: it may be the status of the BWAIT. -/
def Context.waitLanded (k : Context) (id : Nat) (v : Word) : Context :=
  if k.waiting.any (·.1 == id) then k.waitEnded id v else k

/-- One result lands: its register, its flags, and BROKEN_OBJECT where TRAPEN.BRK asks for it (R375). -/
def Tile.landResult (t : Tile) (r : Result) : Tile :=
  match r.src with
  | .val v =>
    let k := (t.ct.setFlags r.fl).dropResult r.id
    let k := { k with cx := k.cx.put r.dest v r.be }.waitLanded r.id (v.setWidth 64)
    let t := { t with ct := k }
    match r.brk with
    | some ea => if v.getLsbD 62 then t.found .brokenObject ea r.slot r.issue r.addr else t
    | none => t
  | _ => t

/-- Has the cycle of a replay register come (R39)? A captured result that is still to be read holds it back. -/
def Context.yDueNow (k : Context) (i : Nat) (y : YReg) : Bool :=
  y.valid && k.yAt.any (· + y.remain.toNat ≤ k.now) && !(k.inflight.any (·.y == some i))

/-- VALID of replay register `i` clears (R40). -/
def Context.clearY (k : Context) (i : Nat) : Context :=
  { k with y := if h : i < 16 then k.y.set i { k.y[i] with valid := false, whence := none } h else k.y }

/-- Replay register `e.2` lands, and clears VALID (R40): it may hold the status of the BWAIT, and a status with BROKEN raises BROKEN_OBJECT as
it would have without the capture (R375). -/
def Tile.landY1 (t : Tile) (e : YReg × Nat) : Tile :=
  let k := { t.ct.clearY e.2 with cx := t.ct.cx.put e.1.dest e.1.value e.1.byteen }
  let k := match k.waiting with
    | some (id, some i) => if i = e.2 then k.waitEnded id (e.1.value.setWidth 64) else k
    | _ => k
  let t := { t with ct := k }
  match e.1.whence with
  | some w => match w.brk with
    | some ea => if e.1.value.getLsbD 62 then t.found .brokenObject ea w.slot w.issue w.addr else t
    | none => t
  | none => t

/-- The valid replay registers whose cycle has come (R39). -/
def Context.ysDue (k : Context) : List (YReg × Nat) := k.y.toList.zipIdx.filter fun e => k.yDueNow e.2 e.1

/-- They land. -/
def Tile.landY (t : Tile) : Tile := t.ct.ysDue.foldl Tile.landY1 t

/-- Does a replay register land now? -/
def Context.yLands (k : Context) : Bool := k.y.toList.zipIdx.any fun e => k.yDueNow e.2 e.1

/-- The status of a BWAIT has no landing cycle before its wait ends, so only then is it known to meet another landing (R37): it does
not land, and the fault is charged to the BWAIT, which issued the later of the two. -/
def Tile.waitClash (t : Tile) (now : Nat) : Tile :=
  let k := t.ct
  match k.waiting with
  | none => t
  | some (id, yi) =>
    let rs := k.inflight.filter (·.lands now)
    match rs.find? (·.id == id) with
    | some r =>
      match ((rs.filter (·.id != id)).map (·.dest) ++ k.ysDue.map (·.1.dest)).find? r.dest.clash with
      | some d => { t with ct := { k.dropResult id with waiting := none, waitLog := none } }.found .landingCollision (r.dest.meet d).tval r.slot r.issue r.addr
      | none => t
    | none =>
      match k.ysDue.find? fun e => some e.2 == yi, yi with
      | some e, some i =>
        match (rs.map (·.dest) ++ (k.ysDue.filter (·.2 != i)).map (·.1.dest)).find? e.1.dest.clash, e.1.whence with
        | some d, some w =>
          { t with ct := { k.clearY i with waiting := none, waitLog := none } }.found .landingCollision (e.1.dest.meet d).tval w.slot w.issue w.addr
        | _, _ => t
      | _, _ => t

/-- RESULT_LANDING: reads whose cycle has come, else landings. -/
def execResultLanding (s : State) : Out :=
  let now := s.tile.c
  match s.tile.ct.inflight.filter (·.toRead now) with
  | [] =>
    let t := s.tile.waitClash now
    .next { s with tile := ((t.ct.inflight.filter (·.lands now)).foldl Tile.landResult t).landY }
  | rs => .next (rs.foldl State.readResult s)

/-! ### Waking armed waits (R373) -/

/-- The owner and address under which a pair of the tile in focus is armed. -/
def Tile.armKey (t : Tile) (space : MSpace) (a : Nat) : Nat × Nat :=
  match space with
  | .sp => (t.ltid, t.ct.sbase + a)
  | .vault => (t.ct.pid, a)
  | .commons => (comId a, vByteOf a)

/-- The status that ends an armed wait, for a pair that now holds w0. -/
def armStatus (w0 a : Nat) : Word :=
  BitVec.ofNat 64 (pairStatus w0 + if pairValid w0 && !pairBroken w0 && pairSatisfied w0 a then stPassed else 0)

/-- An advance or a BROKEN set at cycle `at_` wakes the waits that now end (R373): the wake reaches the tile three cycles on in
the scratchpad, 2 + 2h in the vault, 278 WCYC cycles on from a commons. -/
def State.wake (s : State) (space : MSpace) (owner addr w0 at_ : Nat) : State :=
  let mine (a : Arm) : Bool :=
    a.space == space && a.owner == owner && a.addr == addr && a.woken.isNone && waitEnds w0 a.phase.toNat
  let up (a : Arm) : Arm := { a with woken := some (armStatus w0 a.phase.toNat, at_ + a.lag) }
  { s with arms := updWhere mine up s.arms }

/-- The wake of a pair that the write of a window advances, in its landing cycle A = W + 2 (R373). -/
def State.wakes (s : State) (space : MSpace) (k : Option (Nat × Nat × Nat)) : State :=
  match k with
  | some (owner, addr, w0) => s.wake space owner addr w0 s.tile.c
  | none => s

/-! ### Memory writes and publishes (R202, R206, R207, R362) -/

/-- One scratchpad write lands: locked planes, the race check, and the bytes. Of a write that both races and meets a locked word the
collision is raised (DESIGN CHOICE, log 59). -/
def Tile.landWrite (t : Tile) (p : Pend) : Tile :=
  match p.kind with
  | .spWrite cells =>
    let as := cells.map (·.1)
    match t.lockedWord as with
    | some v => t.found .landingCollision v p.slot p.issue p.addr
    | none =>
      let r := t.touchSp as true p.owner
      if r.2 then r.1.spPut cells else r.1
  | .outWrite _ cells k =>
    match t.lockedWord (cells.map (·.1)) with
    | some v => { t with ct := t.ct.spoilOp p.issue p.slot }.found .landingCollision v p.slot p.issue p.addr
    | none =>
      let old := (cells.filter fun c => !t.ct.spStaged c.1).map fun c => (t.ct.sbase + c.1, t.spSeen c.1)
      (t.spPut cells).noteUndo ⟨t.c, p.issue, p.slot, .sp, old, k.map fun e => (e.1, e.2.1)⟩
  | .engineOut a => t.engineOut false a
  | .accFlags fl trap =>
    match trap with
    | some (c, v) => t.found c v p.slot p.issue p.addr
    | none => { t with ct := t.ct.setFlags (BitVec.ofNat 14 fl) }
  | _ => t

/-- Does code byte range [a, a+n) overlap the packet of code address `b`? -/
def packetMeets (a n b : Nat) : Bool := rangesMeet a n (b / 32 * 32) 32

/-- The staling row of R141 and R144 for one overlay, applied to a context at cycle P. -/
def Seq.staleBy (q : Seq) (a n now : Nat) : Seq :=
  let hit (b : Nat) (at_ : Option Nat) : Bool := packetMeets a n b && match at_ with
    | some c => c < now
    | none => true
  { q with
    b := q.b.map fun b => if (b.state == .pending || b.state == .ready) && hit b.target b.copyAt then { b with state := .stale } else b
    loops := q.loops.map fun e => { e with
      startStale := e.startStale || hit e.start e.startAt, exitStale := e.exitStale || hit e.stop none }
    rets := q.rets.map fun r => if hit r.addr r.copyAt then { r with state := .stale } else r }

/-- Publish the pending overlays of the active context (R144, R360): IMEM changes, and stale copies are marked. -/
def Tile.publishOverlays (t : Tile) : Tile :=
  let t := t.ct.overlays.foldl (fun (t : Tile) o =>
    let st (q : Seq) : Seq := q.staleBy o.1 o.2.length t.c
    let t := t.onSq st
    { t with
      imem := memPut t.imem (t.ct.ibase * 1024 + o.1) o.2
      ct := { t.ct with trap := t.ct.trap.map fun v => { v with seq := st v.seq } } }) t
  { t with ct := { t.ct with overlays := [] } }

/-- Is a line of a space in the region, and written by group `g`? -/
def lineIn (r : Region) (base g : Nat) (l : Nat × Nat) : Bool :=
  l.2 == g && base + r.base ≤ 64 * l.1 && 64 * l.1 < base + r.base + r.size

/-- Barrier decrements of finished transfers whose destination becomes visible now (R372). -/
def Job.openBars (j : Job) (t : Tile) (r : Region) : Job :=
  { j with bars := updWhere (fun b => b.due.isNone && b.space == r.space && r.base ≤ b.last && b.last < r.base + r.size &&
      (if r.space = 0 then b.ltid == t.ltid else b.strand == t.vTag)) (fun b => { b with due := some t.c }) j.bars }

/-- The same for overlays: space 3. -/
def Job.openOverlayBars (j : Job) (t : Tile) : Job :=
  { j with bars := updWhere (fun b => b.due.isNone && b.space == 3 && b.ltid == t.ltid) (fun b => { b with due := some t.c }) j.bars }

/-- The number of a stream on this module: the partition id, and its place in the plan. -/
def streamNo (pid i : Nat) : Nat := pid * 2 ^ 16 + i

/-- A published DRAM batch goes to the streams that send this region (R419); a batch too large or too early is a false
declaration (R420). -/
def State.sendBatch (s : State) (j : Job) (region : Nat) (lines : List (Nat × Vec)) : State :=
  (planStreams j.plan).zipIdx.foldl (fun s e =>
    if strmSpod e.1 = s.pod.id && strmSreg e.1 = region && !lines.isEmpty then
      let gap := (16 * strmLines e.1 + strmSlots e.1 - 1) / strmSlots e.1
      let n := streamNo j.pid e.2
      let early := match s.pod.lastPub.find? fun l => l.1 == n with
        | some l => s.tile.c < l.2 + gap
        | none => false
      let pod := { s.pod with
        batches := s.pod.batches ++ [{ stream := n, at_ := s.tile.c, lines := lines }]
        lastPub := (n, s.tile.c) :: s.pod.lastPub.filter (·.1 != n) }
      let s := { s with pod := pod }
      if early || strmLines e.1 < lines.length then { s with tile := { s.tile with rollAsk := true } } else s
    else s) s

/-- The page of a job at a DVA, as a unit of its checkpoints (R346, R385). -/
def Job.pageUnit (j : Job) (a : Nat) : CkUnit :=
  if j.pages.any fun p => p.large && p.index == a / 2 ^ 31 then .page true (a / 2 ^ 31) else .page false (a / 2 ^ 21)

/-- A publish sets the dirty bits of its pages and shares in every generation (R385). -/
def Job.soil (j : Job) (us : List CkUnit) : Job :=
  { j with checkpoints := j.checkpoints.map fun c => { c with dirty := uniq (c.dirty ++ us) } }

/-- Lines in ascending order of address. -/
def sortLines (ls : List (Nat × Vec)) : List (Nat × Vec) :=
  ls.foldl (fun (acc : List (Nat × Vec)) (l : Nat × Vec) =>
    let lt (m : Nat × Vec) : Bool := m.1 < l.1
    acc.takeWhile lt ++ l :: acc.dropWhile lt) []

/-- publish(region) by region `r` with identifier `id`, for the group of the tile in focus (R207, R362). -/
def State.publishRegion (s : State) (id : Nat) (r : Region) : State :=
  let t := s.tile
  let pid := t.ct.pid
  let s : State := match r.space with
    | 0 =>
      let s : State := { s with tile := { t with sp := t.sp.publish (lineIn r t.ct.sbase spTag) } }
      if t.sp.lines.any (lineIn r t.ct.sbase spTag) then s.onJob pid (·.soil [.share t.ltid]) else s
    | 1 => s.onJob pid fun j =>
      { j.soil ((j.vault.lines.filter (lineIn r 0 t.vTag)).map fun l => .vault (64 * l.1 / 2 ^ 24)) with
        vault := j.vault.publish (lineIn r 0 t.vTag) }
    | _ =>
      match s.myJob with
      | none => s
      | some j =>
        let ls := sortLines ((j.dram.lines.filter (lineIn r 0 t.vTag)).map fun (l : Nat × Nat) =>
          (64 * l.1, BitVec.ofNat 512 (memNat j.dram.shadow (64 * l.1) 64)))
        let s := s.onJob pid fun j => { j.soil (ls.map fun l => j.pageUnit l.1) with
          dram := j.dram.publish (lineIn r 0 t.vTag), published := j.published ++ ls.map fun l => (t.vTag, l) }
        s.sendBatch j id ls
  s.onJob pid (·.openBars t r)

/-- Is the partition to halt, for a rollback or its end? From that decision on nothing is published or posted (R268, R383). -/
def State.halting (s : State) (j : Job) : Bool :=
  j.rolling.isSome || j.ending.isSome || s.tiles.any fun t => t.ct.isOf j.pid && (t.rollAsk || t.dets.any (·.cls == .silent))

/-- publish(region) by identifier: 256 is the pending overlays (R362). -/
def State.publish (s : State) (id : Nat) : State :=
  if s.myJob.any s.halting then s
  else if id = 256 then
    let s := { s with tile := s.tile.publishOverlays }
    s.onJob s.tile.ct.pid (·.openOverlayBars s.tile)
  else
    match s.tile.ct.regions[id]? with
    | some r => s.publishRegion id r
    | none => s

/-- A scratchpad write lands, and wakes the waits on a pair that it advances. -/
def State.landSp (s : State) (p : Pend) : State :=
  let s' := { s with tile := s.tile.landWrite p }
  match p.kind with
  | .outWrite _ _ k => if s'.tile.dets.length = s.tile.dets.length then s'.wakes .sp k else s'
  | _ => s'

/-- MEMORY_WRITE_LANDING: the scratchpad writes due, else the publishes due. -/
def execMemoryWriteLanding (s : State) : Out :=
  if s.tile.hasDue PendKind.isSpWrite then
    .next (eachDue PendKind.isSpWrite State.landSp s)
  else
    .next (eachDue PendKind.isPublish (fun s p => match p.kind with
      | .publish id => s.publish id
      | _ => s) s)

/-! ### Vault accesses (R286) -/

/-- The `n` bytes at a vault address as the tile in focus sees them. -/
def State.vNat (s : State) (a n : Nat) : Nat := ofBytes ((List.range n).map fun i => s.vByteAt (a + i))

/-- A value as a load delivers it. -/
def loaded (v : Nat) (sx : Option Nat) : Vec :=
  match sx with
  | some w => (sextWord w v).setWidth 512
  | none => BitVec.ofNat 512 v

/-- One vault write or read reaches its bank. -/
def State.vaultAccess (s : State) (p : Pend) : State :=
  match p.kind with
  | .vaultWrite cells =>
    let r := s.touchVault (cells.map (·.1)) true p.owner
    if r.2 then r.1.vPutAt cells else r.1
  | .outWrite _ cells k =>
    let old := (cells.filter fun c => !vStaged s.tile.ct.regions c.1).map fun c => (c.1, s.vByteAt c.1)
    let s := s.vPutAt cells
    let u : Undo := { at_ := s.tile.c, issue := p.issue, slot := p.slot, space := .vault, old := old, wake := k.map fun e => (e.1, e.2.1) }
    { s with tile := s.tile.noteUndo u }.wakes .vault k
  | .vaultRead id a n sx =>
    let r := s.touchVault ((List.range n).map (a + ·)) false p.owner
    let s := r.1
    if r.2 then { s with tile := { s.tile with ct := s.tile.ct.fill id (loaded (s.vNat a n) sx) 0 } }
    else { s with tile := { s.tile with ct := s.tile.ct.dropResult id } }
  | _ => s

/-- Do the accesses of two bank uses collide, and is the first of them charged (R287, R354)? To the tile's bundle against an engine,
else to the access issued later, and for equal issue cycles of two tiles to the lower GRANK. -/
def BankUse.loses (b : BankUse) (t : Tile) (x : BankUse) (u : Tile) : Bool :=
  let same := t.ltid == u.ltid
  b.clash x (same && b.owner == x.owner) &&
    (if b.husk != x.husk then x.husk
     else x.issue < b.issue || (x.issue == b.issue &&
       (same || t.grank < u.grank || (t.grank == u.grank && t.ltid < u.ltid))))

/-- The bytes of the vault that an effect touches with a race check (R213, R288). -/
def PendKind.vaultBytes : PendKind → Option (List Nat × Bool)
  | .vaultWrite cells => some (cells.map (·.1), true)
  | .vaultRead _ a n _ => some ((List.range n).map (a + ·), false)
  | .atomic _ .vault a n .. => some ((List.range n).map (a + ·), true)
  | _ => none

/-- Does the access raise RACE in this cycle, which comes before LANDING_COLLISION (R288, R295)? -/
def Tile.racesNow (t : Tile) (j : Job) (p : Pend) : Bool :=
  p.due ≤ t.c && match p.kind.vaultBytes with
    | some (as, wr) => (vaultRace t.ct j.vault.pub (bits t.ct.cx.tileid.toNat 14 0) as p.owner wr false).1.isSome
    | none => false

/-- Charge one vault bank use (R287). -/
def Tile.chargeVault (t : Tile) (j : Job) (b : BankUse) : Tile :=
  if t.pend.any fun p => p.madeBy b && t.racesNow j p then t
  else (t.spoil b).found .landingCollision b.tval b.slot b.issue b.addr

/-- The vault bank uses of this cycle that no bank has looked at. -/
def Tile.freshUses (t : Tile) : List BankUse := t.banks.filter fun b => b.vault && b.due == t.c && !b.seen

/-- The vault banks find the collisions of this cycle, once, before any access of it takes effect (R287, R255). -/
def State.vaultBanks (s : State) : State :=
  let pid := s.tile.ct.pid
  match s.myJob with
  | none => s
  | some j =>
    let uses := (s.tiles.filter (·.ct.pid == pid)).flatMap fun t => t.freshUses.map fun b => (b, t)
    if uses.length < 2 then s
    else
      let losers (t : Tile) : List BankUse := t.freshUses.filter fun b => !b.husk && uses.any fun x => b.loses t x.1 x.2
      s.mapTiles (·.ct.pid == pid) fun t =>
        let see (b : BankUse) : BankUse := if b.due = t.c then { b with seen := true } else b
        { (losers t).foldl (fun u b => u.chargeVault j b) t with banks := t.banks.map see }

/-- VAULT_BANK_ACCESS: the writes due, else the reads due. -/
def execVaultBankAccess (s : State) : Out :=
  let s := s.vaultBanks
  .next (eachDue (if s.tile.hasDue PendKind.isVaultWrite then PendKind.isVaultWrite else PendKind.isVaultRead) State.vaultAccess s)

/-! ### Windows (R294, R368) -/

/-- The value of a window is known: it fills its result and its log entry. -/
def Tile.windowValue (t : Tile) (id : Nat) (v : Word) : Tile :=
  { t with ct := (t.ct.fill id (v.setWidth 512) 0).logValue id v }

/-- A window raced: the op does not commit, and makes no log entry. -/
def Context.unlog (k : Context) (id : Nat) : Context := (k.dropResult id).unlogIf fun e => e.id == id && e.value.isNone

/-- Touch words for a write, in the scratchpad or the vault. -/
def State.touchIn (s : State) (space : MSpace) (as : List Nat) (o : Owner) : State × Bool :=
  if space = .sp then
    let q := s.tile.touchSp as true o
    ({ s with tile := q.1 }, q.2)
  else s.touchVault as true o

/-- The storage check of the words that a window reads (R269, R283); the flag tells whether what it reads can be had. -/
def State.windowCheck (s : State) (space : MSpace) (as : List Nat) (o : Owner) : State × Bool :=
  let s' := if space = .sp then { s with tile := s.tile.spCheck as o.slot o.issue o.addr }
    else (wordsTouched as).foldl (fun s w => s.vCheckWord w o) s
  (s', s'.tile.dets.length == s.tile.dets.length && s'.tile.rollAsk == s.tile.rollAsk)

/-- The window of an atomic reads at W; its write lands at W + 2 (R294). -/
def State.atomicWindow (s : State) (p : Pend) : State :=
  match p.kind with
  | .atomic id space a n op x y =>
    let as := (List.range n).map (a + ·)
    let r := s.touchIn space as p.owner
    let r := if r.2 then r.1.windowCheck space as p.owner else r
    let s := r.1
    if !r.2 then { s with tile := { s.tile with ct := s.tile.ct.unlog id } }
    else
      let old := if space = .sp then s.tile.spNat a n else s.vNat a n
      let t := s.tile.windowValue id (BitVec.ofNat 64 old)
      match op.apply n old x.toNat y.toNat with
      | some v =>
        let w : Pend := { p with due := t.c + 2, kind := .outWrite space (cellsAt a (bytesOf n v)) }
        { s with tile := { t with pend := t.pend ++ [w] } }
      | none => { s with tile := t }
  | _ => s

/-- ATOMIC_WINDOW (R294). -/
def execAtomicWindow (s : State) : Out := .next (eachDue PendKind.isAtomic State.atomicWindow s.vaultBanks)

/-- Entries of an arming bank (R373). -/
def armCap : Nat := 64

/-- The bank of an armed pair. -/
def Arm.bank (a : Arm) : Nat :=
  match a.space with
  | .sp => a.addr / 8 % 384
  | .vault => vaultBank a.addr
  | .commons => a.addr / bankBytes

/-- Change a context of partition `pid` on the tile that serves `ltid`, wherever it stands. -/
def State.onContext (s : State) (pid ltid : Nat) (f : Context → Context) : State :=
  let g (k : Context) : Context := if k.pid = pid then f k else k
  s.mapTiles (·.ltid == ltid) fun t => { t with ct := g t.ct, standby := t.standby.map g, streamed := t.streamed.map g }

/-- A window gives the result `id` of a context its value, and its log entry. -/
def State.windowGives (s : State) (pid ltid id : Nat) (v : Word) : State :=
  s.onContext pid ltid fun k => (k.fill id (v.setWidth 512) 0).logValue id v

/-- The window of a BWAIT of partition `pid` on tile `ltid`, on the pair with this key: it ends, finds the arming entries full, or arms (R373). -/
def State.waitWindow (s : State) (pid ltid : Nat) (space : MSpace) (key : Nat × Nat) (h id : Nat) (x : Word) (w0 issue : Nat) : State :=
  let ph := x.toNat % 4096
  let st := BitVec.ofNat 64 (pairStatus w0)
  let off := match space with
    | .sp => 4
    | .vault => 10 + 2 * h
    | .commons => lcom
  let arm : Arm := {
    space := space, owner := key.1, addr := key.2, phase := BitVec.ofNat 12 ph, ltid := ltid, pid := pid, id := id
    deadline := issue + off + bits x.toNat 63 32, hops := h, issue := issue, status := st }
  if waitEnds w0 ph then s.windowGives pid ltid id (armStatus w0 ph)
  else if armCap ≤ (s.arms.filter fun b => b.space == space && b.owner == key.1 && b.bank == arm.bank).length then
    s.windowGives pid ltid id (st + BitVec.ofNat 64 stTimeout)
  else { s with arms := s.arms ++ [arm] }

/-- The window of a barrier op in scratchpad or vault reads at W; its write lands at W + 2 (R368-R373). -/
def State.barrierWindow (s : State) (p : Pend) : State :=
  match p.kind with
  | .barrier id space a op x =>
    let rd (b : Nat) : Nat := if space = .sp then s.tile.spNat b 8 else s.vNat b 8
    let w0 := rd a
    let w1 := rd (a + 8)
    let r := s.windowCheck space ((List.range (if op = .bwait then 8 else 16)).map (a + ·)) p.owner
    let s := r.1
    if !r.2 then { s with tile := { s.tile with ct := s.tile.ct.unlog id } }
    else if op = .bwait then
      s.waitWindow s.tile.ct.pid s.tile.ltid space (s.tile.armKey space a) (if space = .vault then s.vHops a else 0) id x w0 p.issue
    else
      let r := pairUpdate op w0 w1 x.toNat
      let t := s.tile.windowValue id (BitVec.ofNat 64 r.status)
      let cells := cellsAt a (bytesOf 8 r.w0 ++ bytesOf 8 r.w1)
      let key := t.armKey space a
      let w : Pend := { p with
        due := t.c + 2, kind := .outWrite space cells (if r.advanced then some (key.1, key.2, r.w0) else none) }
      { s with tile := { t with pend := t.pend ++ [w] } }
  | _ => s

/-- BARRIER_WINDOW (R368). -/
def execBarrierWindow (s : State) : Out := .next (eachDue PendKind.isBarrier State.barrierWindow s.vaultBanks)

/-- Is it a wait of the context in the tile's active slot? -/
def Arm.isOn (a : Arm) (t : Tile) : Bool := a.ltid == t.ltid && a.pid == t.ct.pid

/-- Has the wake of an arm reached the tile, with the context that waits (R266, R373)? -/
def State.armWakes (s : State) (t : Tile) (a : Arm) : Bool :=
  a.isOn t && match a.woken with
  | some (_, c) => if a.space = .commons then c ≤ s.wcyc && a.issue + lcom ≤ t.c else c ≤ t.c
  | none => false

/-- The status of a wait lands now. -/
def Tile.endWait (t : Tile) (id : Nat) (v : Word) : Tile :=
  let k := { t.ct with inflight := updWhere (fun r => r.id == id) (fun r => { r with due := t.c }) t.ct.inflight }
  { t with ct := k.fill id (v.setWidth 512) 0 }

/-- A wait whose status can land no more, the handler having emptied the replay register that held it, goes on (R190, R373). -/
def Context.waitGone (k : Context) : Bool :=
  match k.run with
  | .bwait id => !(k.inflight.any fun r => r.id == id) && match k.waiting with
    | some (_, some i) => !(k.y.toList[i]?.any (·.valid))
    | _ => true
  | _ => false

/-- BWAIT_WAKE (R373). -/
def execBwaitWake (s : State) : Out :=
  let t := s.tile
  let t' := (s.arms.filter (s.armWakes t)).foldl (fun (t : Tile) a => match a.woken with
    | some (v, _) => t.endWait a.id v
    | none => t) t
  let t' := if t'.ct.waitGone then { t' with ct := { t'.ct with waiting := none, waitLog := none }.goOn } else t'
  .next { s with tile := t', arms := s.arms.filter fun a => !s.armWakes t a }

/-- Has the deadline of an arm come with no wake (R373)? -/
def Arm.expired (a : Arm) (t : Tile) : Bool := a.isOn t && a.deadline ≤ t.c && a.woken.isNone

/-- BWAIT_TIMEOUT (R373). -/
def execBwaitTimeout (s : State) : Out :=
  let t := s.tile
  let t' := (s.arms.filter (·.expired t)).foldl (fun (t : Tile) a => t.endWait a.id (a.status + BitVec.ofNat 64 stTimeout)) t
  .next { s with tile := t', arms := s.arms.filter fun a => !a.expired t }

/-! ### Commons slots (R291) -/

/-- A commons access has its value. -/
def State.commonsValue (s : State) (r : CReq) (v : Vec) : State :=
  s.onContext r.pid r.ltid fun k => (k.fill r.id v 0).logValue r.id (v.setWidth 64)

/-- The tile that made a request, while its context is in the active slot. -/
def State.requester (s : State) (r : CReq) : Option Tile := s.tiles.find? fun t => t.ltid == r.ltid && t.ct.pid == r.pid

/-- The context that made a request, wherever it stands. -/
def State.reqContext (s : State) (r : CReq) : Option Context :=
  (s.tiles.find? (·.ltid == r.ltid)).bind (·.contextOf r.pid)

/-- The commons address of a request. -/
def CReq.addrOf (r : CReq) (cid : Nat) : Nat := 2 ^ 37 + cid * 2 ^ 24 + r.byte

/-- The race check of a commons access (R376): DOM entries, by partition id and barrier phase. None when it does not race,
with the storage after it. -/
def commonsRace (k : Context) (c : Commons) (r : CReq) (write : Bool) : Option Nat × Mem :=
  let as := (List.range r.n).map (r.addrOf c.cid + ·)
  let es := if !k.cx.raceEn then []
    else (wordsTouched as).filterMap fun w => (raceEntry k.regions 1 (8 * w)).map fun e => (w, e % 2 ^ 24)
  let check (e : Nat × Nat) (m : Mem) : Option Nat × Nat := raceCheck (memNat m e.2 4) (r.pid % 256) r.bph write true true (8 * e.1)
  match es.findSome? fun e => (check e c.mem).1 with
  | some v => (some v, c.mem)
  | none => (none, es.foldl (fun q e => memPut q e.2 (bytesOf 4 (check e q).2)) c.mem)

/-- Read of an index register (R364). -/
def Commons.indexWord (c : Commons) (b : Nat) : Nat :=
  let i := b - indexBase
  if i < 128 then (memGet c.value (i / 8)).toNat else (memGet c.ign ((i - 128) / 8)).toNat

/-- PUBIDX in its slot (R365). -/
def Commons.offer (c : Commons) (b : Nat) (v : Word) : Commons :=
  let r := (b - indexBase) / 8
  let old := memGet c.value r
  if old.toNat < v.toNat then { c with value := memSet c.value r v }
  else if v.toNat < old.toNat then { c with ign := memSet c.ign r (BitVec.ofNat 32 (min ((memGet c.ign r).toNat + 1) (2 ^ 32 - 1))) }
  else c

/-- The effect of a barrier op or a decrement on a commons pair, in its slot. -/
def State.servePair (s : State) (c : Commons) (r : CReq) : State :=
  let w0 := memNat c.mem r.byte 8
  let w1 := memNat c.mem (r.byte + 8) 8
  let op := if r.kind = 5 then .bbytes else r.bar
  let put (q : PairRes) (s : State) : State :=
    let s := s.onCommons c.cid fun c => { c with mem := memPut c.mem r.byte (bytesOf 8 q.w0 ++ bytesOf 8 q.w1) }
    if q.advanced then s.wake .commons c.cid r.byte q.w0 s.wcyc else s
  if op = .bwait then
    if r.missed then s else s.waitWindow r.pid r.ltid .commons (c.cid, r.byte) 0 r.id r.x w0 r.issue
  else
    let q := pairUpdate op w0 w1 r.x.toNat
    let s := put q s
    if r.kind = 5 then s else s.commonsValue r (BitVec.ofNat 512 q.status)

/-- Ask for a rollback: the groups halt at d + TD_P, d being `ago` cycles back, and the registered pairs are broken (R383). -/
def Job.askRollback (ago : Nat) (j : Job) : Job :=
  match j.rolling with
  | some _ => j
  | none => { j with rolling := some (j.ref + treeDelay j.width j.height - ago), breakAsk := true }

/-- Commons words are read through ECC in a slot (R283): corrected and counted by the tile that reads, or a rollback of the job that read; a write of a whole word
removes its error, and a write of part of it reads the word to merge it, and does not hide an error that is uncorrectable (R269). -/
def State.commonsCheck (s : State) (c : Commons) (r : CReq) : State :=
  let hit := c.soft.filter fun e => (wordsTouched ((List.range r.n).map (r.byte + ·))).contains e.1
  if hit.isEmpty then s
  else
    let bad := hit.any fun e => 2 ≤ e.2.length
    let n := (hit.filter fun e => e.2.length < 2).length
    let s := s.onCommons c.cid fun c => { c with soft := c.soft.filter fun e => !hit.contains e || (!(r.kind == 1 && 8 ≤ r.n) && 2 ≤ e.2.length) }
    if (r.kind == 1 && 8 ≤ r.n) || r.kind == 4 || r.missed then s
    else
      let s := s.mapTiles (·.ltid == r.ltid) fun t => { t with corrected := t.corrected + n }
      if bad && r.kind != 1 then
        { s with jobs := updWhere (fun j => j.pid == r.pid && (j.state == .running || j.state == .preempted)) (·.askRollback 0) s.jobs }
      else s

/-- A request acts in its slot (R291, R294, R365, R371). A race of a context that is out is raised when it is back (R376). -/
def State.serve (s : State) (c : Commons) (r : CReq) : State :=
  let write := r.kind = 1 || r.kind = 2
  let raced : Option Nat × Mem := if r.kind ≤ 2 && r.byte < indexBase then
      match s.reqContext r with
      | some k => commonsRace k c r write
      | none => (none, c.mem)
    else (none, c.mem)
  match raced.1 with
  | some v =>
    if r.missed then s
    else if (s.requester r).isSome then
      s.mapTiles (fun t => t.ltid == r.ltid && t.ct.pid == r.pid) fun t =>
        { t with ct := t.ct.unlog r.id }.found .race v 2 r.issue r.addr
    else
      let noted : CReq → CReq := fun q => if q = r then { q with raced := some v } else q
      (s.onContext r.pid r.ltid (·.unlog r.id)).onCommons c.cid fun c => { c with queue := c.queue.map noted }
  | none =>
    let s := (s.onCommons c.cid fun c => { c with mem := raced.2 }).commonsCheck c r
    let c := { c with mem := raced.2 }
    let rd := if indexBase ≤ r.byte then c.indexWord r.byte else memNat c.mem r.byte r.n
    let store (v : Nat) (s : State) : State := s.onCommons c.cid fun c => { c with mem := memPut c.mem r.byte (bytesOf r.n v) }
    match r.kind with
    | 0 => s.commonsValue r (loaded rd (if r.x = 0 then none else some r.x.toNat))
    | 1 => store (ofBytes r.bytes) s
    | 2 =>
      let s := s.commonsValue r (BitVec.ofNat 512 rd)
      match r.atom.apply r.n rd r.x.toNat r.y.toNat with
      | some v => store v s
      | none => s
    | 4 => s.onCommons c.cid (·.offer r.byte r.x)
    | _ => s.servePair c r

/-- Is a request's slot here? -/
def CReq.slotDue (r : CReq) (w : Nat) : Bool := !r.served && match r.slotAt with
  | some a => a ≤ w
  | none => false

/-- Serve the first request of a commons whose slot has come. -/
def State.serveOne (s : State) : State :=
  match s.commons.findSome? fun c => (c.queue.find? (·.slotDue s.wcyc)).map fun r => (c, r) with
  | none => s
  | some (c, r) =>
    let done : CReq → CReq := fun q => if { q with raced := r.raced } = r then { q with served := true } else q
    (s.serve c r).onCommons c.cid fun c => { c with queue := c.queue.map done }

/-- COMMONS_SLOT_SERVICE (R291): the next request whose slot has come. -/
def execCommonsSlotService (s : State) : Out := .next s.serveOne

/-- Is a race of a request to be raised, its context being back (R376)? -/
def CReq.toRaise (r : CReq) (t : Tile) : Bool := r.ltid == t.ltid && r.pid == t.ct.pid && r.raced.isSome

/-- Has a request of the tile failed to complete in time (R291)? -/
def CReq.late (r : CReq) (t : Tile) (w : Nat) : Bool :=
  r.ltid == t.ltid && r.pid == t.ct.pid && r.kind != 5 && !r.missed && r.issue + lcom ≤ t.c &&
    !(r.served && match r.slotAt with
      | some a => a + 2 ≤ w
      | none => false)

/-- Forget the requests of commons queues that are finished. -/
def Commons.sweep (c : Commons) (t : Tile) : Commons :=
  { c with queue := c.queue.filter fun r => !(r.served && r.raced.isNone && (r.missed || r.kind == 5 ||
      (r.ltid == t.ltid && r.pid == t.ct.pid && r.issue + lcom ≤ t.c))) }

/-- Count a miss against the node (R355): the new count. -/
def Job.countMiss (j : Job) (node : Nat) : Job × Nat :=
  let n := j.misses node + 1
  let st := (j.stats.find? fun e => e.node == node).getD { node := node }
  ({ j with stats := { st with misses := n } :: j.stats.filter fun e => e.node != node }, n)

/-- Ask for the end of the job of the tile in focus: at d + TD_P of its reference (R268, R404). -/
def Job.endAt (j : Job) (status unit : Nat) (trap : List Word) : Job :=
  match j.ending with
  | some _ => j
  | none => { j with ending := some (j.ref + treeDelay j.width j.height, status, unit, trap) }

/-- A missed promise of the tile in focus: MISSED_PROMISE, and for the third miss of a node the end of the job (R355). -/
def State.miss (s : State) (tval slot issue addr : Nat) : State :=
  let t := s.tile
  let s := { s with tile := t.found .missedPromise tval slot issue addr }
  s.onJob t.ct.pid fun j =>
    let r := j.countMiss t.ct.node
    if 3 ≤ r.2 then r.1.endAt 0x22 0 [] else r.1

/-- The races that requests of the tile in focus met while its context was out are raised. -/
def State.raiseRaces (s : State) : State :=
  let rs := (s.commons.flatMap (·.queue)).filter (·.toRaise s.tile)
  let t := rs.foldl (fun (t : Tile) r => t.found .race (r.raced.getD 0) 2 r.issue r.addr) s.tile
  { s with
    tile := t
    commons := s.commons.map fun c => { c with queue := updWhere (·.toRaise s.tile) (fun r => { r with raced := none }) c.queue } }

/-- MISSED_PROMISE (R291), and the races found late. -/
def execMissedPromise (s : State) : Out :=
  let s := s.raiseRaces
  let t := s.tile
  match s.commons.findSome? fun c => (c.queue.find? (·.late t s.wcyc)).map fun r => (c, r) with
  | none => .next { s with commons := s.commons.map (·.sweep t) }
  | some (c, r) =>
    let gone : CReq → CReq := fun q => if q = r then { q with missed := true } else q
    let s := s.onCommons c.cid fun c => { c with queue := c.queue.map gone }
    .next (s.miss (2 ^ 63 + r.addrOf c.cid) 2 r.issue r.addr)

/-! ### Channels (R275-R280) -/

/-- A beat arrives (R277, R280). -/
def State.arrive (s : State) (b : Beat) : State :=
  let t := s.tile
  let own := s.dcycAt t % 16
  if b.tag.toNat = own then { s with tile := { t with landing := t.landing ++ [(b.lane, b.at_, b.data)] } }
  else { s with tile := t.found .channelTag (b.lane + b.tag.toNat * 16 + own * 256) 2 t.c t.ct.sq.pc }

/-- CHANNEL_ARRIVAL (R275). -/
def execChannelArrival (s : State) : Out :=
  let due (b : Beat) : Bool := b.at_ ≤ s.tile.c
  .next ((s.tile.beats.filter due).foldl State.arrive { s with tile := { s.tile with beats := s.tile.beats.filter (!due ·) } })

/-- CHANNEL_ENTRY_DROP (R279). -/
def execChannelEntryDrop (s : State) : Out :=
  onTile (fun t =>
    let old (e : Nat × Nat × Vec) : Bool := e.2.1 + 4 ≤ t.c
    { t with landing := t.landing.filter (!old ·), drops := t.drops + (t.landing.filter old).length }) s

/-! ### Engines (R230-R250) -/

/-- CIM_PLANE_WRITE (R235). -/
def execCimPlaneWrite (s : State) : Out :=
  .next (eachDue PendKind.isPlaneWrite (fun s p => match p.kind with
    | .planeWrite dst g cfg tag bytes scales => s.planeWrite p dst g cfg tag bytes scales
    | _ => s) s)

/-- CIM_ACCUMULATE_ADD (R236): the adds due, and the end of a multiply after them. -/
def execCimAccumulateAdd (s : State) : Out :=
  let adds := eachDue (fun k => match k with
    | .cimAdd .. => true
    | _ => false) (fun s p => match p.kind with
    | .cimAdd row am parts => { s with tile := s.tile.cimAdd p row am parts }
    | _ => s) s
  .next (eachDue PendKind.isAdd (fun s p => match p.kind with
    | .cimEnd te fl sat => { s with tile := s.tile.cimEnd p te.toNat fl sat }
    | _ => s) adds)

/-- DMMA_LANDING (R246). -/
def execDmmaLanding (s : State) : Out :=
  .next (eachDue PendKind.isDmma (fun s p => match p.kind with
    | .dmma x ty a b te => { s with tile := s.tile.landDmma p x ty a b te }
    | _ => s) s)

/-- X_REGISTER_LANDING (R247, R249, R250). -/
def execXRegisterLanding (s : State) : Out :=
  .next (eachDue PendKind.isXLanding (fun s p => { s with tile := s.tile.landOnX p.kind }) s)

/-- CHECKSUM (R248). -/
def execChecksum (s : State) : Out :=
  .next (eachDue PendKind.isChecksum (fun s p => match p.kind with
    | .checksum r c => { s with tile := s.tile.raiseChecksum p r c }
    | _ => s) s)

/-- One engine access in its bank cycle. -/
def State.engineAccess (s : State) (p : Pend) : State :=
  match p.kind with
  | .planeRead v dst cnt g st cfg => s.planeRead p v dst cnt g st cfg
  | .cimSlice run sl part got => s.cimSlice p run sl part got
  | .accStore r0 rows g st am te => s.accStore p r0 rows g st am te
  | .xRead x g st => s.xRead p x g st
  | .xStore g st vals => s.xStore p g st vals
  | _ => s

/-- ENGINE_STREAM_ACCESS (R230). -/
def execEngineStreamAccess (s : State) : Out := .next (eachDue PendKind.isStream State.engineAccess s)

/-! ### Test faults (R197, R198) -/

/-- FINJ_WRITE (R197): the checks of the CSRW, then the arming. -/
def execFinjWrite (v : Word) (s : State) : Out :=
  match s.tile.csrWriteFault csrFinj v.toNat with
  | some tv => trapOut .illegalOp tv 0 s
  | none => onTile (·.writeFinj v) s

/-- Toggle bits in a list of flipped bits. -/
def toggleBits (a b : List (BitVec 6)) : List (BitVec 6) := (a.filter fun x => !b.contains x) ++ b.filter fun x => !a.contains x

/-- Invert bits of the scratchpad word at physical byte `p`, in its shadow or its published copy (R198, R269). -/
def Tile.flipWord (t : Tile) (p : Nat) (shadow : Bool) (bs : List (BitVec 6)) : Tile := { t with sp := t.sp.strike (p / 8) shadow bs }

/-- An injection of UNIT 2, 3 or 4 inverts its bit (R198); a program write to the same scalar in this cycle collides. A replay register
that the handler has made names no bundle: its collision is charged to the bundle at the next issue, in TSLOT 4. A staged word is struck in its shadow
line where that is written, else as published (DESIGN CHOICE, log 59). -/
def Tile.inject (t : Tile) (w : Nat) : Tile :=
  let b : BitVec 6 := BitVec.ofNat 6 (finjBit w)
  let p := t.ct.sbase + finjAddr w
  match finjUnit w with
  | 2 => t.flipWord p (t.sp.writer p).isSome [b]
  | 3 => t.flipWord p (t.sp.writer p).isSome [b, b + 1]
  | 4 =>
    let n : BitVec 6 := BitVec.ofNat 6 (finjIndex w)
    match t.ct.inflight.find? fun r => r.lands t.c && r.due == t.c && r.dest == .s n with
    | some r => t.found .landingCollision r.dest.tval r.slot r.issue r.addr
    | none =>
      match t.ct.ysDue.find? fun e => e.1.dest == .s n with
      | some e => match e.1.whence with
        | some w => t.found .landingCollision (Dest.s n).tval w.slot w.issue w.addr
        | none => t.raise .landingCollision (Dest.s n).tval 4
      | none => t.onCx fun x => x.wrS n (x.rdS n ^^^ ((1 : Word) <<< b.toNat))
  | _ => t

/-- Is an armed injection of UNIT 2-4 due? -/
def finjTimed (w due now : Nat) : Bool := 2 ≤ finjUnit w && finjUnit w ≤ 4 && due ≤ now

/-- The injection that a CSRW replaced in this cycle still fires (R198). -/
def Context.finjOldDue (k : Context) : Option Nat :=
  match k.finjPrev with
  | some (c, w, d) => if c = k.now && finjTimed w.toNat d k.now then some w.toNat else none
  | none => none

/-- FINJ_FIRE (R198): UNIT clears. -/
def execFinjFire (s : State) : Out :=
  onTile (fun t =>
    let t := match t.ct.finjOldDue with
      | some w => let u := t.inject w; { u with ct := u.ct.finjOldFired }
      | none => t
    if finjTimed t.ct.finj.toNat t.ct.finjDue t.c then let u := t.inject t.ct.finj.toNat; { u with ct := u.ct.finjFired } else t) s

/-! ### The sequencer's own steps -/

/-- SEGMENT_COUNT_LIMIT (R46): a count of 2^20 is a mismatch in that cycle. -/
def execSegmentCountLimit (s : State) : Out :=
  onTile (fun t => match t.ct.sq.seg with
    | some g => if 2 ^ 20 ≤ g.count then (t.onSq ({ · with seg := none })).raise .segMismatch (segTval g.index 1) 4 else t
    | none => t) s

/-- B_TARGET_READY (R141). -/
def execBTargetReady (b : BitVec 3) (s : State) : Out :=
  onTile (fun t => t.onSq fun q =>
    let r := q.rdB b
    if r.state = .pending && r.ready ≤ t.c then q.wrB b { r with state := .ready } else q) s

/-- RETURN_ENTRY_READY (R158). -/
def execReturnEntryReady (s : State) : Out :=
  onTile (fun t => t.onSq fun q => { q with
    rets := updWhere (fun r => r.state == .pending && r.ready ≤ t.c) (fun r => { r with state := .ready }) q.rets }) s

/-- The offset of this cycle in a REP after its own bundle, while it lasts (R161). -/
def Tile.repOffset (t : Tile) : Option (Rep × Nat) :=
  t.ct.sq.rep.bind fun r => if r.start < t.c && t.c < r.start + r.count * r.interval then some (r, t.c - r.start) else none

/-- REP_REISSUE (R161). -/
def execRepReissue (s : State) : Out :=
  onTile (fun t => match t.repOffset with
    | some (r, k) =>
      if k % r.interval = 0 && r.reissued ≠ t.c then
        t.onSq ({ · with reissue := some r.op, rep := some { r with reissued := t.c } })
      else t
    | none => t) s

/-- LOOP_BUFFER_ISSUE (R161): the buffer bundle of this cycle is the one to issue. Where a buffer bundle holds a FENCE, the buffer bundles and
reissues of the cycles of its wait are dropped, and a wait that outlasts the REP is followed by one empty bundle, which ends it (DESIGN CHOICE,
log 59). -/
def execLoopBufferIssue (s : State) : Out :=
  onTile (fun t => match t.repOffset with
    | some (r, k) =>
      if r.staged = t.c then t
      else
        match r.body[(k - 1) % r.body.length]? with
        | some b => t.onSq ({ · with
            buffer := some b, pc := b.1, sequential := true, fetchCopy := none, rep := some { r with staged := t.c } })
        | none => t.onSq ({ · with pc := r.after, rep := some { r with staged := t.c } })
    | none => t) s

/-- Issue goes on after a wait of this kind. -/
def resumeWait (k : WaitKind) (s : State) : Out :=
  onTile (fun t => match t.ct.run with
    | .wait till j => if j = k && till ≤ t.c then { t with ct := t.ct.goOn } else t
    | _ => t) s

/-- WAITC_RESUME (R167). -/
def execWaitcResume (s : State) : Out := resumeWait .waitc s
/-- STAGEW_RESUME (R361). -/
def execStagewResume (s : State) : Out := resumeWait .stagew s
/-- FENCE_RESUME (R187). -/
def execFenceResume (s : State) : Out := resumeWait .fence s

end Sys2Proof.Machine
end

