-- ==== Sys2Proof/Machine/HuskEvents.lean ====
section
/-!
DEFINITION. What the Husk engines do after a STAGE (13 R348, R349, R353-R355, R359, R360, R372): the walk, source reads, local
writes, completion, missed promises, barrier decrements; and BROKEN in the pairs of a failed job (13 R374).
-/
namespace Sys2Proof.Machine

/-! ### Transfers of the tile in focus -/

/-- The transfers that the tile in focus issued and that are not done. -/
def State.myTransfers (s : State) : List Transfer :=
  match s.myJob with
  | none => []
  | some j => j.transfers.filter fun x => x.ltid == s.tile.ltid && !x.done

/-- Is it this transfer? One tile never has two that start in one cycle on one engine. -/
def Transfer.same (x y : Transfer) : Bool := x.ltid == y.ltid && x.issue == y.issue && dscEngine x.desc == dscEngine y.desc

/-- Change a transfer of the job of the tile in focus. -/
def State.onTransfer (s : State) (x : Transfer) (f : Transfer → Transfer) : State :=
  s.onJob s.tile.ct.pid (·.onTransfers x.same f)

/-- The bank cycle of source line 0 (R354). -/
def State.sourceStart (s : State) (x : Transfer) : Nat :=
  if dscVault x.desc then x.issue + 10 + 2 * s.vHops (dscLoc x.desc) else x.issue + 3

/-- Is a source line to be read now? -/
def State.sourceDue (s : State) (x : Transfer) : Bool :=
  dscKind x.desc == 1 && x.next < x.nd && s.sourceStart x + x.next ≤ s.tile.c

/-- Is a local line to be written now, or the transfer to be completed? -/
def State.lineDue (s : State) (x : Transfer) : Bool :=
  x.walked && !x.missed && ((dscKind x.desc == 0 && x.next < x.nd && x.t + x.next ≤ s.tile.c + x.nd) || x.t ≤ s.tile.c)

/-! ### The walk (R348) -/

/-- Count a translation against the node (R348): the new count. -/
def Job.countTranslation (j : Job) (node : Nat) : Job × Nat :=
  let st := (j.stats.find? fun e => e.node == node).getD { node := node }
  let n := st.translations + 1
  ({ j with stats := { st with translations := n } :: j.stats.filter fun e => e.node != node }, n)

/-- Inverted bits that the code of a map entry or map word corrects (R347, R386). -/
def eccCorrects (bits : List (BitVec 6)) : Bool := bits.length ≤ 2

/-- The map words of an engine, read in the walk of line `a`, that have inverted bits. -/
def State.walkErrs (s : State) (j : Job) (engine a : Nat) : List SramErr :=
  s.sramErr.filter fun e => e.engine == engine && e.pid == j.pid && e.l1 == bits a 43 31 && match e.l2 with
    | none => true
    | some k => k == bits a 30 21 && (j.walk a).2.isSome

/-- Does the walk of line `a` find no page? A map word with an uncorrectable error may give either. -/
def State.unmapped (s : State) (j : Job) (engine a : Nat) : Bool :=
  if (s.walkErrs j engine a).any (!eccCorrects ·.bits) then !Config.badMapWord j.pid a else !j.mapped a

/-- Errors that a walk corrects are counted (R347). -/
def State.correctMap (s : State) (j : Job) (engine : Nat) (as : List Nat) : State :=
  let es := uniq ((as.flatMap (s.walkErrs j engine)).filter (eccCorrects ·.bits))
  es.foldl (fun s _ => s.onErrors (·.counts (.engine engine))) { s with sramErr := s.sramErr.filter (!es.contains ·) }

/-- The walk of one transfer at c+6: an unmapped line raises TRANSLATION, and the second of a node ends the job. -/
def State.walk1 (s0 : State) (x : Transfer) : State :=
  let engine := dscEngine x.desc
  let s := match s0.myJob with
    | some j => s0.correctMap j engine (dscLines x.desc)
    | none => s0
  let t := s.tile
  match s.myJob.bind fun j => (dscLines x.desc).find? (s.unmapped j engine) with
  | none => s.onTransfer x fun x => { x with walked := true }
  | some a =>
    let s := s.onTransfer x fun x => { x with walked := true, done := true }
    let s := { s with tile := t.found .translation (huskTval (dscEngine x.desc) a) 2 x.issue x.addr }
    s.onJob t.ct.pid fun j =>
      let r := j.countTranslation t.ct.node
      if 2 ≤ r.2 then r.1.endAt 0x21 0 [] else r.1

/-- TRANSLATION (R348). Source lines are read from c+3 on, before the walk is over. -/
def execTranslation (s : State) : Out :=
  .next ((s.myTransfers.filter fun x => !x.walked && x.issue + 6 ≤ s.tile.c).foldl State.walk1 s)

/-! ### DRAM (R345, R349) -/

/-- A DRAM word is read through ECC (R349): an uncorrectable error of the shadow copy replays, one of the published copy asks for a
rollback. -/
def State.dramCheckWord (x : Transfer) (s : State) (w : Nat) : State :=
  match s.myJob.bind fun j => j.dram.softAt x.strand (8 * w) with
  | none => s
  | some e =>
    if !e.bad then
      let s' := s.onJob s.tile.ct.pid fun j => { j with dram := { j.dram with soft := j.dram.soft.erase e } }
      s'.onErrors (·.counts (.engine (dscEngine x.desc)))
    else if e.shadow then { s with tile := s.tile.found .ueReplay 0 2 x.issue x.addr }
    else { s with tile := { s.tile with rollAsk := true } }

/-- `n` DRAM bytes as the issuing group's engine sees them. -/
def State.dramBytes (s : State) (x : Transfer) (a n : Nat) : List Byte :=
  match s.myJob with
  | none => List.replicate n 0
  | some j => (List.range n).map fun i => j.dram.view x.strand (a + i)

/-- Read DRAM for a transfer: the bytes, and the errors they show. -/
def State.dramRead (s : State) (x : Transfer) (a n : Nat) : State × List Byte :=
  ((wordsTouched ((List.range n).map (a + ·))).foldl (State.dramCheckWord x) s, s.dramBytes x a n)

/-- Write a DRAM destination: shadow lines of the issuing group (R206). -/
def Job.dramPut (j : Job) (g a : Nat) (bytes : List Byte) : Job :=
  { j with
    dram := ((cellsAt a bytes).foldl (fun d c => d.stage g c.1 c.2) j.dram).heal true ((cellsAt a bytes).map fun c => c.1 / 8) }

/-! ### Local lines (R354, R359) -/

/-- Block `b` of an expanding transfer: its packed bits start at bit size × b of the source. -/
def State.sourceBlock (s : State) (x : Transfer) (b : Nat) : State × Block :=
  let n := bqSize (dscBits x.desc)
  let r := s.dramRead x (dscDva x.desc + n * b) n
  (r.1, bqPacked (dscBits x.desc) (ofBytes r.2))

/-- Blocks from `b` on. -/
def State.sourceBlocks (s : State) (x : Transfer) (b n : Nat) : State × List Block :=
  (List.range n).foldl (fun (a : State × List Block) i =>
    let r := a.1.sourceBlock x (b + i)
    (r.1, a.2 ++ [r.2])) (s, [])

/-- Local line `g` of an inbound transfer: its address and bytes, element lines first (R359). -/
def State.inLine (s : State) (x : Transfer) (g : Nat) : State × Nat × List Byte :=
  let d := x.desc
  if dscXfmt d = 0 then
    let r := s.dramRead x (dscDva d + 64 * g) 64
    (r.1, dscLoc d + 64 * g, r.2)
  else
    let nb := dscLen d
    if g < nb / 4 then
      let r := s.sourceBlocks x (4 * g) 4
      (r.1, dscLoc d + 64 * g, r.2.flatMap fun b => (b.laid (dscBits d)).map (BitVec.ofNat 8))
    else
      let h := g - nb / 4
      let r := s.sourceBlocks x (32 * h) (min 32 (nb - 32 * h))
      (r.1, dscScale d + 64 * h, r.2.flatMap fun b => bytesOf 2 b.scale)

/-- Use the banks of a local line now. -/
def State.huskUse (s : State) (x : Transfer) (a n : Nat) (write : Bool) : State :=
  let t := s.tile
  s.bookNow (if dscVault x.desc then t.vaultUses [a] write x.issue 2 x.addr true
    else t.spUses ((List.range n).map (a + ·)) write x.issue 2 x.addr true)

/-- Write one local line. -/
def State.huskWrite (s : State) (x : Transfer) (a : Nat) (bytes : List Byte) : State :=
  let s := s.huskUse x a bytes.length true
  if dscVault x.desc then s.vPutAt (cellsAt a bytes)
  else
    let s := { s with tile := s.tile.checkLocked ((List.range bytes.length).map (a + ·)) 2 x.issue x.addr }
    { s with tile := s.tile.spPut (cellsAt a bytes) }

/-- The last byte of the destination, its space, and the barrier decrement that BAR asks for (R372). -/
def Transfer.barDue (x : Transfer) : BarDue :=
  let d := x.desc
  let last := match dscKind d with
    | 1 => dscDva d + dscLen d - 1
    | 2 => dscLoc d + dscLen d - 1
    | _ => if dscXfmt d = 0 then dscLoc d + dscLen d - 1 else dscScale d + 2 * dscLen d - 1
  { strand := x.strand, ltid := x.ltid
    space := match dscKind d with
      | 1 => 2
      | 2 => 3
      | _ => if dscVault d then 1 else 0
    last := last, vault := dscBarVault d, baddr := dscBaddr d, bytes := dscSource d }

/-- The last destination line is written: its decrement waits for the publish. -/
def State.armBar (s : State) (x : Transfer) : State :=
  if dscBar x.desc then s.onJob s.tile.ct.pid fun j => { j with bars := j.bars ++ [x.barDue] } else s

/-- One local line of an inbound transfer. -/
def State.writeLine (s : State) (x : Transfer) : State :=
  let r := s.inLine x x.next
  let s := r.1.huskWrite x r.2.1 r.2.2
  let s := s.onTransfer x fun x => { x with next := x.next + 1 }
  if x.next + 1 = x.nd then s.armBar x else s

/-- Completion at T: an outbound transfer's lines reach the DRAM shadow, an overlay's bytes wait for their publish. -/
def State.complete (s : State) (x : Transfer) : State :=
  let d := x.desc
  let s := match dscKind d with
    | 1 => (s.onJob s.tile.ct.pid (·.dramPut x.strand (dscDva d) x.got)).armBar x
    | 2 =>
      let r := s.dramRead x (dscDva d) (dscLen d)
      { r.1 with tile := { r.1.tile with ct := { r.1.tile.ct with overlays := r.1.tile.ct.overlays ++ [(dscLoc d, r.2)] } } }.armBar x
    | _ => s
  s.onTransfer x fun x => { x with done := true }

/-- One transfer in this cycle: a local line, or its completion. -/
def State.huskLine (s : State) (x : Transfer) : State :=
  if dscKind x.desc = 0 && x.next < x.nd then s.writeLine x else s.complete x

/-- HUSK_LOCAL_LINE_WRITE (R354). -/
def execHuskLocalLineWrite (s : State) : Out := .next ((s.myTransfers.filter s.lineDue).foldl State.huskLine s)

/-- One source line of an outbound transfer (R354). -/
def State.readLine (s : State) (x : Transfer) : State :=
  let a := dscLoc x.desc + 64 * x.next
  let as := (List.range 64).map (a + ·)
  let s := s.huskUse x a 64 false
  let bytes := if dscVault x.desc then as.map s.vByteAt else s.tile.spBytes a 64
  let s := if dscVault x.desc then (wordsTouched as).foldl (fun s w => s.vCheckWord w ⟨x.issue, 2, x.addr, 0⟩) s
    else { s with tile := s.tile.spCheck as 2 x.issue x.addr }
  s.onTransfer x fun x => { x with next := x.next + 1, got := x.got ++ bytes }

/-- HUSK_SOURCE_READ (R354). -/
def execHuskSourceRead (s : State) : Out :=
  .next ((s.myTransfers.filter s.sourceDue).foldl State.readLine s)

/-! ### Windows (R353, R355) -/

/-- The DCYC of the tile that issued a transfer of partition `pid`. -/
def State.cycleOf (s : State) (pid : Nat) (x : Transfer) : Nat :=
  match s.tiles.find? fun t => t.ltid == x.ltid && t.ct.pid == pid with
  | some t => t.c
  | none => x.t

/-- The active transfer of a window has reached its T. -/
def State.windowOver (s : State) (pid : Nat) (w : Window) : Bool :=
  match w.active with
  | some x => x.t ≤ s.cycleOf pid x && (x.done || x.missed)
  | none => w.shadow.isSome

/-- HUSK_WINDOW_SWAPIN (R353): the shadow transfer becomes active. -/
def execHuskWindowSwapin (pid engine : Nat) (s : State) : Out :=
  .next (s.onJob pid fun j =>
    let w := j.window engine
    if s.windowOver pid w then j.setWindow { w with active := w.shadow, shadow := none } else j)

/-- A missed promise of the active transfer of a window: known beforehand, and raised at T (R355). -/
def execHuskPromiseMiss (pid engine : Nat) (s : State) : Out :=
  match (s.job? pid).bind fun j => (j.window engine).active with
  | none => .next s
  | some x =>
    if x.done then .next s
    else
      let mark (f : Transfer → Transfer) (s : State) : State := s.onJob pid (·.onTransfers x.same f)
      if s.cycleOf pid x < x.t then .next (mark (fun x => { x with missed := true }) s)
      else
        let s := s.focus fun t => t.ltid == x.ltid && t.ct.pid == pid
        .next (mark (fun x => { x with missed := true, done := true })
          (s.miss (huskTval engine (dscDva x.desc)) 2 x.issue x.addr))

/-! ### Barriers (R372, R374) -/

/-- The bank uses that `u` has beside those of the tile in focus become an engine's, and meet the accesses made before them: a collision is
charged to the tile's bundle (R201, R354). -/
def State.bookEngine (s : State) (u : Tile) : State :=
  let new := (u.banks.filter fun x => !s.tile.banks.contains x).map fun x => { x with issue := s.tile.c - 1, husk := true }
  { s with tile := { u with banks := s.tile.banks } }.bookNow new

/-- Begin the window of one decrement at its publish cycle (R372). -/
def State.decrement (s : State) (b : BarDue) : State :=
  let t := s.tile
  let id := t.uid
  let x : Word := BitVec.ofNat 64 b.bytes
  if !b.vault then
    s.bookEngine (({ t with uid := id + 1 }.bookWindow (t.c + 1) b.baddr 16).pending (t.c + 1) 2 (.barrier id .sp b.baddr .bbytes x))
  else
    match s.vPlace b.baddr 16 with
    | .share =>
      let w := t.c + 8 + 2 * s.vHops b.baddr
      s.bookEngine (({ t with uid := id + 1 }.bookVaultWindow w b.baddr).pending w 2 (.barrier id .vault b.baddr .bbytes x))
    | .commons cid => s.onCommons cid (·.enter { t.creq b.baddr 5 16 with bar := .bbytes, x := x, arrive := s.wcyc })
    | _ => s

/-- Is a decrement of this tile due? -/
def BarDue.isDue (b : BarDue) (t : Tile) : Bool := b.ltid == t.ltid && match b.due with
  | some d => d ≤ t.c
  | none => false

/-- HUSK_BARRIER_DECREMENT (R372). -/
def execHuskBarrierDecrement (s : State) : Out :=
  match s.myJob with
  | none => .next s
  | some j =>
    let bs := j.bars.filter (·.isDue s.tile)
    .next (bs.foldl State.decrement (s.onJob s.tile.ct.pid fun j => { j with bars := j.bars.filter (!·.isDue s.tile) }))

/-- Set BROKEN in one commons pair and wake its waiters (R374). -/
def State.breakPair (s : State) (p : Nat × Nat) : State :=
  match s.common? p.1 with
  | none => s
  | some c =>
    let w := memNat c.mem p.2 8
    let w := if bit w 62 then w else w + 2 ^ 62
    (s.onCommons p.1 fun c => { c with mem := memPut c.mem p.2 (bytesOf 8 w) }).wake .commons p.1 p.2 w s.wcyc

/-- The pairs that a job registered wait for a slot in which BROKEN is set (R374). -/
def State.oweBreaks (s : State) (j : Job) : State :=
  { s with commons := s.commons.map fun c => { c with
      breaks := c.breaks ++ (j.pairs.filter (·.1 == c.cid)).map fun p => (j.pid, p.2) } }

/-- The pairs that wait for BROKEN for partition `pid`. -/
def State.breaksOf (s : State) (pid : Nat) : List (Nat × Nat) :=
  s.commons.flatMap fun c => (c.breaks.filter (·.1 == pid)).map fun b => (c.cid, b.2)

/-- BARRIER_BREAK (R374): every pair that a job of this partition registered. -/
def execBarrierBreak (pid : Nat) (s : State) : Out :=
  let mine (j : Job) : Bool := j.pid == pid && j.state != .waiting && j.state != .ended
  let ps := (s.jobs.filter mine).flatMap (·.pairs) ++ s.breaksOf pid
  .next (ps.foldl State.breakPair { s with
    jobs := updWhere mine (fun j => { j with breakAsk := false }) s.jobs
    commons := s.commons.map fun c => { c with breaks := c.breaks.filter (·.1 != pid) } })

end Sys2Proof.Machine
end

