-- ==== Sys2Proof/Machine/System.lean ====
section
/-!
DEFINITION. The system ops of the C slot (spec 06 R182-R197): shadow compare, traps, phases, fences, counts, alignment, replay
registers and CSR access.
-/
namespace Sys2Proof.Machine

/-- TVAL of a shadow mismatch (R137, R183). -/
def shadowTval (low : Nat) (a b : BitVec 6) : Nat := low + a.toNat * 2 ^ 6 + b.toNat * 2 ^ 12

/-- SCHK (R183): a difference is a silent error. -/
def execSchk (o : RRR) (s : State) : Out :=
  let d := s.tile.s o.a ^^^ s.tile.s o.b
  if d = 0 then .next s else trapOut .shadowMismatch (shadowTval (trailZeros 64 d.toNat) o.a o.b) 0 s

/-- TRAP (R184). -/
def execTrap (o : I16) (x : Ext) (s : State) : Out := trapOut .trapInstr (i16Card o x) 0 s

/-- TRET (R184, R263): the interrupted context resumes at u + 4; the word at TPC begins a bundle. -/
def execTret (s : State) : Out :=
  let t := s.tile
  let a := t.ct.cx.tpc.toNat
  if !t.inHandler then trapOut .illegalOp t.freeTval 0 s
  else
    match arrivalFault (t.packet a) a with
    | some (c, v) => trapOut c v 0 s
    | none => onTile (fun t => { t with ct := { t.ct with run := .resume (t.c + 4) } }) s

/-- CONDW (R185): the tile's contribution to the condition word. -/
def execCondw (o : RRR) (s : State) : Out :=
  onTile (fun t => { t with ct := { t.ct with condw := some (t.s o.a) } }) s

/-- PHASE (R186, R211). -/
def execPhase (o : I16) (s : State) : Out :=
  match s.tile.ct.guard with
  | some v => trapOut .guardGranule v.toNat 0 s
  | none => onTile (·.later (.phase o.imm.toNat)) s

/-- D(S) of a fence (R187). -/
def fenceCycles (scope : Nat) : Nat :=
  match scope with
  | 1 => 3
  | 2 => 10
  | 3 => 38
  | _ => 278

/-- Issue resumes after a fence at cycle `n`. -/
def Tile.waitUntil (t : Tile) (n : Nat) : Tile := { t with ct := { t.ct with run := .wait n .fence } }

/-- FENCE (R187): the next bundle issues at c + D(S) + 1, and the cycles count in the segment; .wafer and .pod fix DIGEST
(R196). -/
def execFence (o : I16) (s : State) : Out :=
  let d := fenceCycles o.imm.toNat
  let rd : Word := match s.myJob with
    | some j => BitVec.ofNat 64 (ofBytes (j.digest.take 8))
    | none => 0
  onTile (fun t =>
    let t := if 4 ≤ o.imm.toNat then { t with ct := { t.ct with digest := rd } } else t
    t.waitUntil (t.c + d + 1)) s

/-- RDCYC (R188). -/
def execRdcyc (o : RI) (s : State) : Out :=
  let t := s.tile
  let v := match o.imm.toNat with
    | 0 => s.dcycAt t
    | 1 => s.wcycAt t
    | _ => s.tickAt t
  onTile (·.landS o.d (BitVec.ofNat 64 v) 1 0) s

/-- Do two partition-relative quads lie in one unit of the scope (R3, R298)? -/
def sameUnit (scope : Nat) (p q : Nat × Nat) : Bool :=
  match scope with
  | 0 | 1 | 2 => p == q
  | 3 => p.1 / 8 == q.1 / 8 && p.2 / 8 == q.2 / 8
  | _ => true

/-- Logical quad numbers of a job's partition, with their partition-relative coordinates. -/
def Job.quadsOf (j : Job) : List (Nat × (Nat × Nat)) :=
  (List.range (j.width * j.height)).map fun i =>
    ((j.y + i / j.width) * Config.quadCols + j.x + i % j.width, (i % j.width, i / j.width))

/-- SLIPS rises by `n` beats (R304). -/
def Quad.countSlips (q : Quad) (n : Nat) : Quad := { q with slips := min 255 (q.slips + n) }

/-- The retiming buffer out of a quad in one direction is re-centred. -/
def Quad.centre (q : Quad) (dir : Nat) : Quad := { q with slipped := Vector.ofFn fun i => if i.val = dir then 0 else q.slipped[i] }

/-- The retiming buffer out of quad `e.1` in direction `e.2` is re-centred, and SLIPS of the quads on both sides of the crossing rises by the
beats it had slipped (R304, R310). -/
def State.centre (s : State) (e : Nat × Nat) : State :=
  let q := s.quad e.1
  let n := q.slipOf e.2
  let o := quadBeyond e.1 e.2
  let s := s.setQuad e.1 ((q.centre e.2).countSlips n)
  s.setQuad o ((s.quad o).countSlips n)

/-- Re-centre the slipped retiming buffers that `on` picks, by the quad they lead out of and the direction. -/
def State.recentre (s : State) (on : Nat → Nat → Bool) : State :=
  (s.quads.flatMap fun e => ((List.range 4).filter fun d => on e.1 d && e.2.slipOf d != 0).map fun d => (e.1, d)).foldl State.centre s

/-- What an armed CALIGN corrects at a beacon (R312): the armed copies, with no DRIFT; `off` is where the reference of a partition stands. -/
def Quad.align (q : Quad) (off : Nat → Int) : Quad :=
  if q.armed.isEmpty then q
  else { q with
    wskew := 0, armed := []
    dskews := ((uniq q.armed).filterMap fun p => if off p = 0 then none else some (p, off p)) ++ q.dskews.filter fun e => !q.armed.contains e.1 }

/-- Where the reference less LAG of a partition stands, as an offset from the count that no fault has moved: not zero once a fault has moved
two of the reference's copies (R306, R310). -/
def State.refOff (s : State) (pid : Nat) : Int :=
  match s.jobs.find? (fun j => j.pid == pid && (j.state == .running || j.state == .preempted)), s.tiles.findSome? (·.contextOf pid) with
  | some j, some k => (j.ref : Int) - (k.now + k.lag : Nat)
  | _, _ => 0

/-- A quad latches its counts, as offsets from the correct ones (R308). -/
def Quad.latch (q : Quad) : Quad := { q with latchW := q.wskew, latchC := q.dskews, latchK := q.tickSkew, findings := [] }

/-- The realignment of the armed quads at a beacon (R312): buffers on their routes are re-centred, and their copies set right. -/
def State.alignArmed (s : State) : State :=
  let armed := (s.quads.filter (!·.2.armed.isEmpty)).map (·.1)
  let s := s.recentre fun q d => armed.contains q || armed.contains (quadBeyond q d)
  { s with quads := s.quads.map fun e => (e.1, if e.2.armed.isEmpty then e.2 else (e.2.align s.refOff).latch) }

/-- Arm a quad's copies for the partition `pid`. -/
def State.arm (s : State) (pid q : Nat) : State :=
  let x := s.quad q
  s.setQuad q { x with armed := if x.armed.contains pid then x.armed else x.armed ++ [pid] }

/-- CALIGN (R189): arm the copies of its partition in the quads of the scope unit that holds the tile. A beacon of this very cycle, its
counts being latched already, realigns them (R312). -/
def execCalign (o : I16) (s : State) : Out :=
  let pid := s.tile.ct.pid
  let qs : List Nat := match s.myJob with
    | none => [s.tile.quadIndex]
    | some j => (j.quadsOf.filter fun q => sameUnit o.imm.toNat (s.tile.relQuad j) q.2).map (·.1)
  let s' := qs.foldl (fun s q => s.arm pid q) s
  let s' := if s.beaconDone && s.wcyc % Config.beaconCycles == 0 then s'.alignArmed else s'
  .next (s'.onJob pid fun j => if 5 ≤ o.imm.toNat then { j with podArmed := true } else j)

/-! ### Replay registers -/

/-- Part `m` of a replay register (R40). -/
def YReg.part (y : YReg) (m : Nat) : Word :=
  if m < 8 then BitVec.ofNat 64 (lane 64 m y.value)
  else if m = 8 then y.byteen
  else BitVec.ofNat 64 (y.remain.toNat + y.dnum.toNat * 2 ^ 10 + y.dclass.toNat * 2 ^ 16 + (if y.valid then 2 ^ 63 else 0))

/-- Write part `m` of a replay register (R40, R190). -/
def YReg.setPart (y : YReg) (m : Nat) (v : Word) : YReg :=
  if m < 8 then { y with value := ofLanes 64 ((lanes 64 y.value).set m v.toNat) }
  else if m = 8 then { y with byteen := v }
  else { y with
    remain := v.setWidth 10, dnum := v.extractLsb' 10 6, dclass := v.extractLsb' 16 3, valid := v.getLsbD 63 }

/-- A replay register. -/
def Context.rdY (k : Context) (n : BitVec 4) : YReg := k.y[n.toNat]'(n.isLt)

/-- MFY (R190). -/
def execMfy (o : RRR) (s : State) : Out :=
  onTile (fun t => t.landS o.d ((t.ct.rdY (o.a.setWidth 4)).part o.m.toNat) 1 0) s

/-- The faults of MTY (R38, R190): reserved bits, VALID outside a handler, a stream record, a seventeenth result. -/
def Tile.mtyFault (t : Tile) (o : RRR) : Option (Cause × Nat) :=
  let v := t.s o.a
  let y := t.ct.rdY (o.d.setWidth 4)
  let z := y.setPart 9 v
  if o.m ≠ 9 then none
  else if bits v.toNat 62 19 ≠ 0 then some (.illegalOp, t.freeTval)
  else if !z.valid then none
  else if !t.inHandler then some (.illegalOp, t.freeTval)
  else
    match (if z.dclass = 4 then recReason z.value else none) with
    | some (r, d) => some (.shapeFault, shapeTval r (z.dnum.toNat % 16) d)
    | none =>
      if !y.valid && 16 ≤ t.flying then
        some (.landingCollision, 2 ^ 63 + z.dclass.toNat * 2 ^ 16 + z.dnum.toNat * 2 ^ 10)
      else none

/-- MTY (R190). -/
def execMty (o : RRR) (s : State) : Out :=
  match s.tile.mtyFault o with
  | some (c, v) => trapOut c v 0 s
  | none =>
    onTile (fun t =>
      let n : BitVec 4 := o.d.setWidth 4
      { t with ct := { t.ct with y := t.ct.y.set n.toNat ((t.ct.rdY n).setPart o.m.toNat (t.s o.a)) (n.isLt) } }) s

/-! ### CSRs -/

/-- CSRR (R191): a number absent from the map raises ILLEGAL_OP. -/
def execCsrr (o : I16) (s : State) : Out :=
  match s.readCsr o.imm.toNat with
  | none => trapOut .illegalOp o.imm.toNat 0 s
  | some v => onTile (·.landS o.d v 1 0) s

/-- CSRW (R191): effective for bundles issued from c+1. -/
def execCsrw (o : I16) (s : State) : Out :=
  let v := s.tile.s o.d
  match s.tile.csrWriteFault o.imm.toNat v.toNat with
  | some tv => trapOut .illegalOp tv 0 s
  | none => onTile (·.later (.csr (o.imm.setWidth 12) v)) s

end Sys2Proof.Machine
end

