-- ==== Sys2Proof/Machine/Jobs.lean ====
section
/-!
DEFINITION. Jobs and their records (12 R335; 09 R254, R268; 14 R381), completion entries and the digest chain (15 R397, R404-R407), and
the end of a job (12 R342, R347; 13 R374; 15 R404).
-/
namespace Sys2Proof.Machine

/-! ### The launch record (R335) -/

/-- A field of a launch record. -/
def rcField (r : List Word) (w h l : Nat) : Nat := bits (r.getD w 0).toNat h l
def Job.cls (j : Job) : Nat := rcField j.record 0 1 0
def Job.dual (j : Job) : Bool := rcField j.record 0 2 2 == 1
def Job.test (j : Job) : Bool := rcField j.record 0 3 3 == 1
def Job.startTick (j : Job) : Option Nat := if rcField j.record 0 4 4 == 1 then some (rcField j.record 3 63 0) else none
def Job.imageNo (j : Job) : Nat := rcField j.record 0 35 28
def Job.units (j : Job) : Nat := rcField j.record 1 63 32
def Job.pmax (j : Job) : Nat := rcField j.record 2 31 0
def Job.p2m (j : Job) : Nat := rcField j.record 4 31 0
def Job.p2g (j : Job) : Nat := rcField j.record 4 47 32
def Job.cid (j : Job) : Nat := rcField j.record 5 7 0
def Job.cuse (j : Job) : Bool := rcField j.record 5 8 8 == 1
def Job.cnew (j : Job) : Bool := rcField j.record 5 9 9 == 1
def Job.cbanks (j : Job) : Nat := rcField j.record 5 16 10
def Job.cslots (j : Job) : Nat := rcField j.record 5 23 17

/-- TD_P (R318). -/
def Job.td (j : Job) : Nat := treeDelay j.width j.height

/-! ### Status values (R405) -/

def stOk : Nat := 0x00
def stEmpty : Nat := 0x01
def stMigrated : Nat := 0x02
def stCancelled : Nat := 0x03
def stBadExtent : Nat := 0x10
def stBadRecord : Nat := 0x11
def stBadImage : Nat := 0x12
def stBadPmax : Nat := 0x13
def stTooLarge : Nat := 0x14
def stBadOpcode : Nat := 0x15
def stNotOwner : Nat := 0x16
def stBadState : Nat := 0x17
def stBadSeq : Nat := 0x18
def stBusy : Nat := 0x19
def stBadJob : Nat := 0x1A
def stTimeoutS : Nat := 0x1B
def stGraph : Nat := 0x20
def stTranslation : Nat := 0x21
def stPromise : Nat := 0x22
def stRollback : Nat := 0x23
def stDiverged : Nat := 0x24
def stKilled : Nat := 0x25
def stThermal : Nat := 0x26

/-! ### Finding jobs and tiles -/

/-- Does the job hold a partition? -/
def Job.placed (j : Job) : Bool := j.state != .waiting && j.state != .ended

/-- The same job and placement. -/
def Job.same (j k : Job) : Bool := j.jobid == k.jobid && j.place == k.place && j.serial == k.serial

/-- The job of a JOBID: the live one, else the ended one. -/
def State.jobOf (s : State) (id : Word) : Option Job :=
  match s.jobs.find? fun j => j.jobid == id && j.state != .ended with
  | some j => some j
  | none => s.jobs.find? fun j => j.jobid == id

/-- Change the job `j`, live or ended. -/
def State.updJob (s : State) (j : Job) (f : Job → Job) : State :=
  { s with jobs := updWhere (fun k => k.same j && (k.state == .ended) == (j.state == .ended)) f s.jobs }

/-- LTIDs of the tiles of a job's placement (R193, R318). -/
def Job.ltids (j : Job) : List Nat := j.quadsOf.flatMap fun q => (List.range 4).map (4 * q.1 + ·)

/-- Make sure that the tiles listed are held. -/
def State.ensure (s : State) (ls : List Nat) : State :=
  { s with others := s.others ++ ((ls.filter fun l => !s.tiles.any fun t => t.ltid == l).map fun l => { ltid := l }) }

/-- Change every placement of a job that has not ended. -/
def State.onPlacements (s : State) (j : Job) (f : Job → Job) : State :=
  { s with jobs := updWhere (fun k => k.jobid == j.jobid && k.serial == j.serial && k.state != .ended) f s.jobs }

/-- The image of a job. -/
def State.imageOf (s : State) (j : Job) : Option Image := (s.hilum.images.toList.getD j.imageNo {}).image

/-! ### Rings -/

/-- The port of a management ring as an index. -/
def portIx (p : BitVec 1) : Fin 2 := p.toFin

/-- A ring. -/
def Hilum.ring (h : Hilum) (r : RingId) : Ring :=
  match r with
  | .queue q => h.queues[q.toNat]'(q.isLt)
  | .mgmt p => h.mgmt[p.toNat]'(p.isLt)

/-- Change a ring. -/
def Hilum.onRing (h : Hilum) (r : RingId) (f : Ring → Ring) : Hilum :=
  match r with
  | .queue q => { h with queues := h.queues.set q.toNat (f (h.queues[q.toNat]'(q.isLt))) (q.isLt) }
  | .mgmt p => { h with mgmt := h.mgmt.set p.toNat (f (h.mgmt[p.toNat]'(p.isLt))) (p.isLt) }

/-- Entries that wait for one ring in Hilum SRAM (R397). -/
def waitCap : Nat := 1024

/-- Make an entry: it waits for its ring; one that finds the buffer full is counted (R397). Word 23 is written with it. -/
def State.enter (s : State) (r : RingId) (words : List Word) : State :=
  if waitCap ≤ (s.hilum.ring r).waiting.length then s.onErrors fun e => { e with undelivered := e.undelivered + 1 }
  else s.onHilum (·.onRing r fun q => { q with waiting := q.waiting ++ [⟨words⟩] })

/-- Bytes as four words. -/
def word4 (b : List Byte) : List Word := wordsOf 4 b

/-- The contents of an entry beside its STATUS word (R404). -/
structure EntryData where
  jobid : Word := 0
  dcyc : Nat := 0
  wcyc : Nat := 0
  flags : Nat := 0
  units : Nat := 0
  replays : List Word := [0, 0]
  unit : Nat := 0
  trap : List Word := []
  result : List Byte := []
  late : Bool := false
  latemap : Nat := 0
  clampmap : Nat := 0
  deriving DecidableEq, Repr

/-- The words 0 to 22 of an entry (R404). -/
def State.entryWords (s : State) (r : RingId) (status ctag : Nat) (jobEnd : Bool) (d : EntryData) : List Word :=
  let w (n : Nat) : Word := BitVec.ofNat 64 n
  [d.jobid, w (status + (if jobEnd then 2 ^ 16 else 0) + (if d.late then 2 ^ 17 else 0) + ctag * 2 ^ 32), w d.dcyc, w d.wcyc,
    w (d.flags + d.units % 2 ^ 16 * 2 ^ 32)] ++ (d.replays ++ [0, 0]).take 2 ++ [w d.unit] ++ (d.trap ++ [0, 0, 0, 0]).take 4
    ++ word4 d.result ++ word4 (s.hilum.ring r).chain ++ [w d.latemap, w d.clampmap, w s.tick]

/-- The completion of a command (R404): its status, the job it names, 32 bytes of result, and what goes to BUF. -/
def State.reply (s : State) (c : Cmd) (status : Nat) (jobid : Word := 0) (result : List Byte := []) (buf : List Byte := []) : State :=
  let s := if buf.isEmpty || c.buf = 0 then s else s.onHilum fun h => { h with bufs := (c.buf, buf) :: h.bufs }
  s.enter c.ring (s.entryWords c.ring status c.ctag.toNat false { jobid := jobid, result := result })

/-! ### The chain (R407) -/

/-- Statuses that do not advance the chain, beside CANCELLED of a job that never started. -/
def noChain : List Nat := [stBadExtent, stBadRecord, stBadImage, stBadPmax, stTooLarge, stDiverged]

/-- D and n after a job end. -/
def Ring.advance (q : Ring) (result : List Byte) (jobid : Word) : Ring :=
  { q with chain := digest256 (q.chain ++ result ++ bytesOf 8 jobid.toNat), count := q.count + 1 }

/-- The queue that carried a job's record. -/
def Job.ring (j : Job) : RingId := .queue (BitVec.ofNat 4 j.queue)

/-- The replay summary as two words (R381); LASTCK beside it. -/
def Replays.words (r : Replays) : List Word :=
  let c (n : Nat) : Nat := min n 65535
  [BitVec.ofNat 64 (c r.nue + c r.ndrift * 2 ^ 16 + c r.ntag * 2 ^ 32 + c r.nmiss * 2 ^ 48),
   BitVec.ofNat 64 (c r.ntrans + c r.nroll * 2 ^ 16 + c r.nretire * 2 ^ 32 + r.lastck % 65536 * 2 ^ 48)]

/-- Sums of two summaries (R344). -/
def Replays.add (a b : Replays) : Replays :=
  { nue := a.nue + b.nue, ndrift := a.ndrift + b.ndrift, ntag := a.ntag + b.ntag, nmiss := a.nmiss + b.nmiss
    ntrans := a.ntrans + b.ntrans, nroll := a.nroll + b.nroll, nretire := a.nretire + b.nretire, lastck := a.lastck }

/-- A bit map over the blocks. -/
def blockMap (js : List Jcb) (p : Jcb → Bool) : Nat := sumNat (js.zipIdx.map fun e => if p e.1 then 2 ^ e.2 else 0)

/-- Has the job started? A job that waits for a new placement has. -/
def Job.started (j : Job) : Bool := j.state == .running || j.state == .preempted || j.tick != 0

/-- The reference count at which delivery to the job has stopped; 0 of a job that has not started (R404). -/
def Job.finalRef (j : Job) : Nat := if j.started then j.ref else 0

/-- A job's end entry, with the chain advanced before it (R404, R407). -/
def State.endEntry (s : State) (j : Job) (status dcyc unit : Nat) (trap : List Word) : State :=
  let res := if status = stEmpty then digest256 [] else j.digest
  let chains := !noChain.contains status && !(status == stCancelled && !j.started)
  let s := if chains then s.onHilum (·.onRing j.ring (·.advance res j.jobid)) else s
  s.enter j.ring (s.entryWords j.ring status j.ctag.toNat true {
    jobid := j.jobid, dcyc := dcyc, wcyc := if j.started then s.wcyc - j.startWcyc else 0
    flags := j.flagWord.toNat, units := j.units, replays := j.replays.words, unit := unit, trap := trap, result := res
    late := j.late, latemap := blockMap j.jcbs (·.late != 0), clampmap := blockMap j.jcbs (·.clamp) })

/-! ### Leaving the wafer -/

/-- A tile without the contexts of a partition. The registers of the emptied slot hold their values until another context comes, as the end state
of R431 shows (DEDUCED, log 69). -/
def Tile.evict (t : Tile) (pid : Nat) : Tile :=
  let t := { t with
    standby := t.standby.filter (!·.isOf pid), streamed := t.streamed.filter (!·.isOf pid)
    saved := t.saved.filter (·.pid != pid), want := if t.want = some pid then none else t.want }
  if t.ct.isOf pid then
    { t with
      ct := { cx := t.ct.cx }, pend := [], banks := [], dets := [], post := [], late := [], owed := [], engineOor := none, beats := [], landing := []
      cimBusy := 0, denseBusy := 0, pipBusy := 0, decBusy := 0, lost := false, issued := false, rollAsk := false
      reloadAsk := false, lastUe := [], marks := [], switchLeft := none }
  else t

/-- Slots and commons of a job return; a commons goes with its last holder (R342). -/
def State.freeCommons (s : State) (j : Job) : State :=
  { s with commons := (s.commons.map fun c => { c with
      cal := c.cal.filter (·.2.2 != j.pid), holders := c.holders.filter (· != j.serial) }).filter fun c => !c.holders.isEmpty }

/-- Is the batch of a stream of this partition? -/
def Batch.isOf (b : Batch) (pid : Nat) : Bool := b.stream / 2 ^ 16 == pid

/-- The batches under way of a partition's streams are these, and its last publishes those up to count `n` (R419). -/
def Pod.withBatches (p : Pod) (pid n : Nat) (batches incoming : List Batch) : Pod :=
  { p with
    batches := p.batches.filter (!·.isOf pid) ++ batches, incoming := p.incoming.filter (!·.isOf pid) ++ incoming
    lastPub := p.lastPub.filter fun l => l.1 / 2 ^ 16 != pid || l.2 ≤ n }

/-- DIGEST of the contexts of a job, tile by tile (R196). -/
def State.digestsOf (s : State) (j : Job) : List Word :=
  j.ltids.map fun l => (((s.tiles.find? fun t => t.ltid == l).bind (·.contextOf j.pid)).map (·.digest)).getD 0

/-- Contexts, shares, counter copies, batches and armed waits of a job leave the wafer (R306, R388, R404); DIGEST is no part of a checkpoint,
and goes with the job (R192, R196). -/
def State.discard (s : State) (j : Job) : State :=
  let s := s.updJob j fun k => { k with fenceDigests := s.digestsOf j }
  let s := s.mapTiles (fun t => j.ltids.contains t.ltid) (·.evict j.pid)
  let gone (q : Quad) : Quad := { q with
    dskews := q.dskews.filter (·.1 != j.pid), thrs := q.thrs.filter (·.1 != j.pid), armed := q.armed.filter (· != j.pid) }
  { s with
    quads := s.quads.map fun e => (e.1, gone e.2)
    pod := { s.pod.withBatches j.pid 0 [] [] with lastPub := s.pod.lastPub.filter (·.1 / 2 ^ 16 != j.pid) }
    arms := s.arms.filter fun a => a.pid != j.pid || !j.started }

/-- The engines' copies of a partition's map are written, or cleared: no error stands in them (R347). -/
def State.freshMap (s : State) (pid : Nat) : State := { s with sramErr := s.sramErr.filter (·.pid != pid) }

/-- What stays of an ended job: its pages and checkpoints (R401, R403). -/
def Job.retire (j : Job) : Job :=
  { j with state := .ended, mapSet := false, windows := [], recvStore := 0, pairs := [], bars := [], vault := {}, vaultMarks := [], strands := []
           ending := none, rolling := none, restart := false, saving := false, twin := none, breakAsk := false }

/-- Does an end with this status break the pairs (R374)? From GRAPH on the statuses of R405 are those of jobs that failed or were killed
(DEDUCED, log 37). -/
def breaksPairs (status : Nat) : Bool := stGraph ≤ status

/-- A single placement ends (R404): its entry, then its slots, its partition id and its place. -/
def State.closeJob (s : State) (j : Job) (status dcyc unit : Nat) (trap : List Word) : State :=
  let s := if breaksPairs status || j.breakAsk then s.oweBreaks j else s
  let s := s.endEntry j status dcyc unit trap
  (((s.freeCommons j).discard j).freshMap j.pid).updJob j Job.retire

/-- Statuses with which one placement of a dual job ends alone (R344). -/
def endsAlone (status : Nat) : Bool := status == stOk || status == stMigrated

/-- The other placement. -/
def State.twinOf (s : State) (j : Job) : Option Job :=
  j.twin.bind fun p => s.jobs.find? fun k => k.pid == p && k.jobid == j.jobid && k.placed

/-- The fields that a dual job's record combines (R344). -/
def Job.joined (j k : Job) : Job :=
  { j with replays := j.replays.add k.replays, flagWord := j.flagWord ||| k.flagWord }

/-- A dual job keeps nothing of its placements' pages: what it had before them stays as it was (R344). -/
def Job.dropShadows (j : Job) : Job := { j with dram := j.keptDram, pages := j.kept, kept := [], keptDram := {} }

/-- What stays of a started job that ends while it waits to be placed again (R389, R401): under dual execution nothing of its placements. -/
def Job.retireOut (j : Job) : Job := if j.dual then j.retire.dropShadows else j.retire

/-- Both placements of a dual job leave; one entry is written, for placement 0, and the pages stay with it. -/
def State.closeDual (s : State) (j k : Job) (status dcyc unit : Nat) (trap : List Word) : State :=
  let a := if j.place = 0 then j else k
  let b := if j.place = 0 then k else j
  let s := if breaksPairs status || j.breakAsk then (s.oweBreaks a).oweBreaks b else s
  let s := s.endEntry (a.joined b) status dcyc unit trap
  let s := ((((s.discard a).discard b).freshMap a.pid).freshMap b.pid).updJob a Job.retire
  { s with jobs := s.jobs.filter fun x => !(x.same b && x.state != .ended) }

/-- A job ends at this cycle with the count given (R404). Under dual execution a placement that ran to its end waits for the
other, and any other status ends both, with nothing committed (R344). -/
def State.endJob (s : State) (j : Job) (status dcyc unit : Nat) (trap : List Word) : State :=
  match s.twinOf j with
  | none => s.closeJob j status dcyc unit trap
  | some k =>
    if endsAlone status then
      s.updJob j fun x => { x with endStatus := some status, withheld := true, refs := threeOf dcyc, ending := none }
    else
      (s.closeDual j k status (max dcyc k.ref) unit trap).updJob { j with place := 0, state := .ended } Job.dropShadows

/-- The trap record (R254). -/
def trapRecord (code ltid node : Nat) (nest : Bool) (slot pc cyc : Nat) (val : Word) : List Word :=
  [BitVec.ofNat 64 (code + (if nest then 2 ^ 8 else 0) + slot * 2 ^ 9 + ltid * 2 ^ 16 + node * 2 ^ 32), BitVec.ofNat 64 pc,
   BitVec.ofNat 64 cyc, val]

/-- The halt of a whole partition (R268 steps 1-3, R383 steps 1 and 2): its tiles issue nothing more, staged lines are not
published. -/
def State.haltAll (s : State) (pid : Nat) : State :=
  s.mapTiles (fun t => t.ct.isOf pid) fun t => { t with ct := { t.ct with run := .halt none, stop := none }, dets := [] }

end Sys2Proof.Machine
end

