-- ==== Sys2Proof/Machine/Loader.lean ====
section
/-!
DEFINITION. Node descriptors (12 R323), and what the loader checks of a record and of an image before anything runs (12 R337, R339; 05
R164; 07 R205, R208; 04 R135, R136; 10 R274; 13 R366; 16 R417).
-/
namespace Sys2Proof.Machine

/-! ### Node descriptors (R323) -/

/-- A field of a descriptor. -/
def ndField (d : List Word) (w h l : Nat) : Nat := bits (d.getD w 0).toNat h l
def ndKind (d : List Word) : Nat := ndField d 0 2 0
def ndCop (d : List Word) : Nat := ndField d 0 4 3
def ndCkpt (d : List Word) : Bool := ndField d 0 5 5 == 1
def ndPost (d : List Word) : Bool := ndField d 0 6 6 == 1
def ndRaise (d : List Word) : Bool := ndField d 0 7 7 == 1
def ndJcb (d : List Word) : Nat := ndField d 0 13 8
def ndSlot (d : List Word) : Nat := ndField d 0 19 14
def ndNsucc (d : List Word) : Nat := ndField d 0 23 20
def ndGc (d : List Word) : Nat := ndField d 1 6 0
def ndGr (d : List Word) : Nat := ndField d 1 12 7
def ndGw (d : List Word) : Nat := ndField d 1 19 13 + 1
def ndGh (d : List Word) : Nat := ndField d 1 25 20 + 1
/-- Successor `i`. -/
def ndSucc (d : List Word) (i : Nat) : Nat := if i < 6 then ndField d 2 (10 * i + 9) (10 * i) else ndField d 3 (10 * (i - 6) + 9) (10 * (i - 6))

/-- Do two groups share a quad (R328)? -/
def groupsMeet (a b : List Word) : Bool :=
  rangesMeet (ndGc a) (ndGw a) (ndGc b) (ndGw b) && rangesMeet (ndGr a) (ndGh a) (ndGr b) (ndGh b)

/-- Fields that the kind does not use, and successors beyond NSUCC, are zero; the counts are in range (R323, R324). -/
def nodeOk (pw ph n : Nat) (d : List Word) : Bool :=
  let k := ndKind d
  let ns := ndNsucc d
  ndField d 0 63 24 == 0 && ndField d 1 63 26 == 0 && ndField d 2 63 60 == 0 && ndField d 3 63 20 == 0 &&
    (d.drop 5).all (· == 0) && d.length == 8 &&
    (match k with
      | 0 => 1 ≤ ns && ns ≤ 4
      | 1 => 2 ≤ ns && ns ≤ 8
      | 2 => ns == 2
      | 3 => ns == 1
      | 4 => ns == 0
      | _ => false) &&
    (List.range 8).all (fun i => if i < ns then ndSucc d i < n else ndSucc d i == 0) &&
    (if k = 0 then
      ndGc d + ndGw d ≤ pw && ndGr d + ndGh d ≤ ph && (ndPost d || (!ndRaise d && ndJcb d == 0 && ndSlot d == 0))
     else
      ndField d 0 7 3 == 0 && ndSlot d == 0 && (k == 3 || ndJcb d == 0) && d.getD 1 0 == 0 && d.getD 4 0 == 0)

/-! ### Route tables (R273, R274) -/

/-- The quad index beyond a mesh output inside a group of `w` × `h`. -/
def groupBeyond (w h q dir : Nat) : Option Nat :=
  let c := q % w
  let r := q / w
  match dir with
  | 0 => if r + 1 < h then some (q + w) else none
  | 1 => if c + 1 < w then some (q + 1) else none
  | 2 => if 0 < r then some (q - w) else none
  | _ => if 0 < c then some (q - 1) else none

/-- Does a path that enters quad `q` by this input come back to a quad it has left? -/
def pathReturns (ts : List (List Byte)) (w h : Nat) : Nat → List Nat → (Nat × Nat × Nat × Nat) → Bool
  | 0, _, _ => true
  | fuel + 1, seen, (q, port, ln, bt) =>
    (fedBy (ts.getD q []) port ln bt).any fun o =>
      if 4 ≤ o.1 then false
      else
        match groupBeyond w h q o.1 with
        | none => false
        | some n => (q :: seen).contains n || pathReturns ts w h fuel (q :: seen) (n, (o.1 + 2) % 4, o.2.1, o.2.2)

/-- One valid table entry is sound (R274). -/
def routeOk (ts : List (List Byte)) (w h q i : Nat) : Bool :=
  let e := ((ts.getD q []).getD i 0).toNat
  let o := i / 16
  let port := bits e 5 3
  if !bit e 7 then true
  else
    !(4 ≤ o && i % 2 == 1) && !(4 ≤ port && bits e 6 6 == 1) && (4 ≤ o || (groupBeyond w h q o).isSome) &&
    (4 ≤ port || match groupBeyond w h q port with
      | none => false
      | some n => bit (routeEntry (ts.getD n []) ((port + 2) % 4) (bits e 2 0) (bits e 6 6)) 7)

/-- The tables of a node's group are sound. -/
def routesOk (ts : List (List Byte)) (w h : Nat) : Bool :=
  (List.range (w * h)).all fun q =>
    (List.range 128).all (routeOk ts w h q) &&
    (List.range 128).all fun i => !pathReturns ts w h (w * h + 1) [] (q, i / 16, i / 2 % 8, i % 2)

/-! ### The image (R164, R205, R136, R322) -/

/-- The `.share` word and the deferral queue declarations of the context of a partition-relative tile (R320). -/
def shareOf (im : Image) (i : Nat) : Word := im.shares.getD i 0
def deferqsOf (im : Image) (i : Nat) : List Word := im.deferqs.getD i []

/-- Is the word one of CLOADB, CLOADBQ, CMM, CMMQ, CACCZ, CACCRD or CACCST (R228)? -/
def isCimWord (w : OpWord) : Bool := w.slot == 3 && w.op.toNat ≤ 6

/-- Does a code section hold a CIM op? -/
def usesCim (c : CodeSection) : Bool :=
  (List.range (c.code.length / 4)).any fun i => isCimWord (BitVec.ofNat 32 (ofBytes ((c.code.drop (4 * i)).take 4)))

/-- A context of an image that holds a CIM op is a CIM user (R228). -/
def imageCim (im : Image) : Bool := im.sections.any usesCim

def shIsize (w : Word) : Nat := bits w.toNat 7 0
def shSegn (w : Word) : Nat := bits w.toNat 21 8
def shSsize (w : Word) : Nat := bits w.toNat 40 32

def dqBaseOf (w : Word) : Nat := bits w.toNat 18 0
def dqCapOf (w : Word) : Nat := bits w.toNat 45 32

/-- The reserved storage of a region, as ranges (R205). -/
def regionRanges (r : Region) (guards : Nat) : List (Nat × Nat) :=
  let g := 64 * guards
  (if r.staged then [(r.base + r.size, r.size)] else []) ++ (if r.race then [(r.rcbase, r.size / 2)] else []) ++
    (if r.guard && guards != 0 then [(r.base - g, min g r.base), (r.base + r.size + regionShadow r, g)] else [])

/-- Two regions keep apart, each from the other and from the other's reserved storage; reserved storage may meet (R205). -/
def regionsApart (g : Nat) (a b : Region) : Bool :=
  let meets (x : Region) (y : Nat × Nat) : Bool := rangesMeet x.base x.size y.1 y.2
  a.space != b.space || !(meets a (b.base, b.size) || (regionRanges b g).any (meets a) || (regionRanges a g).any (meets b))

/-- Every pair of a list satisfies `p`. -/
def pairwiseOk {α : Type} (p : α → α → Bool) : List α → Bool
  | [] => true
  | x :: xs => xs.all (p x) && pairwiseOk p xs

/-- An entry of the region table is sound (R204, R205). -/
def regionOk (ssize g : Nat) (r : Region) : Bool :=
  !r.bad && r.base % 64 == 0 && r.space < 3 && r.size != 0 && r.size % 64 == 0 && r.rcbase % 64 == 0 && (r.race || r.rcbase == 0) &&
    (r.space != 0 || (((r.base, r.size) :: regionRanges r g).all fun x => x.1 + x.2 ≤ ssize * 1024))

/-- The deferral queue declarations of the context of tile `i` are sound (R135, R136). -/
def deferqsOk (im : Image) (i : Nat) : Bool :=
  let ok (w : Word) : Bool :=
    dqBaseOf w % 32 == 0 && bits w.toNat 31 19 == 0 && 1 ≤ dqCapOf w && dqCapOf w ≤ 12288 && bits w.toNat 47 46 != 0 &&
      bits w.toNat 63 48 == 0 && dqBaseOf w + 32 * dqCapOf w ≤ shSsize (shareOf im i) * 1024 &&
      bits (im.declare.getD 0 0).toNat 13 0 ≤ dqCapOf w &&
      !im.regions.any fun r => r.staged && r.space == 0 && rangesMeet (dqBaseOf w) (32 * dqCapOf w) r.base r.size
  (deferqsOf im i).all ok &&
    pairwiseOk (fun a b => !rangesMeet (dqBaseOf a) (32 * dqCapOf a) (dqBaseOf b) (32 * dqCapOf b)) (deferqsOf im i)

/-- The occupancy declaration is sound (R322). -/
def declareOk (im : Image) : Bool :=
  let w := im.declare.getD 0 0
  bits w.toNat 13 0 ≤ 12288 && bits w.toNat 31 14 == 0 && bits w.toNat 34 32 ≤ 4 && bits w.toNat 63 35 == 0 &&
    bits (im.declare.getD 1 0).toNat 63 32 == 0 && (im.declare.drop 2).all (· == 0)

/-- RING of the occupancy declaration. -/
def imageRing (im : Image) : Nat := bits (im.declare.getD 1 0).toNat 31 0

/-- The graph is sound (R319, R323, R324), with the entry and route tables of its code nodes. -/
def graphOk (im : Image) : Bool :=
  im.nodes.length ≤ 1024 && im.entry < im.nodes.length && im.nodes.all (nodeOk im.pw im.ph im.nodes.length) &&
    im.nodes.zipIdx.all fun d => ndKind d.1 != 0 ||
      (let es := im.entries.getD d.2 []
       es.length == 4 * ndGw d.1 * ndGh d.1 && es.all (fun e => bits e.toNat 31 17 == 0) &&
         routesOk (im.routes.getD d.2 []) (ndGw d.1) (ndGh d.1))

/-- The share declaration is sound (R164). -/
def shareOk (w : Word) : Bool :=
  1 ≤ shIsize w && shIsize w ≤ 128 && bits w.toNat 31 22 == 0 && 1 ≤ shSsize w && shSsize w ≤ 384 && bits w.toNat 63 41 == 0 &&
    8 * shSegn w + 32 ≤ shIsize w * 1024

/-- The declarations of the context of tile `i` are sound, and every scratchpad region lies in its share (R164, R205, R136). -/
def contextOk (im : Image) (guards i : Nat) : Bool :=
  shareOk (shareOf im i) && im.regions.all (regionOk (shSsize (shareOf im i)) guards) && deferqsOk im i

/-- The loader checks of an image alone, but that of its ring occupancy (R339). -/
def imageOk (im : Image) (guards : Nat) : Bool :=
  (List.range (4 * im.pw * im.ph)).all (contextOk im guards) && im.regions.length ≤ 256 &&
    pairwiseOk (regionsApart guards) im.regions && declareOk im && graphOk im

/-! ### The record (R335, R339) -/

/-- Guard granules that MEMCFG asks for. -/
def Job.guards (j : Job) : Nat := if rcField j.record 0 10 10 = 1 then rcField j.record 0 13 11 else 0

/-- Field limits of R335, R91 and R208. -/
def Job.recordOk (j : Job) : Bool :=
  let r := j.record
  rcField r 0 63 36 == 0 && rcField r 1 31 18 == 0 && rcField r 2 63 44 == 0 && rcField r 4 63 48 == 0 && rcField r 5 63 24 == 0 &&
    rcField r 7 63 0 == 0 && rcField r 0 9 7 ≤ 4 && rcField r 0 21 15 ≤ 71 && j.imageNo < 16 && rcField r 2 43 32 ≤ 2048 &&
    rcField r 1 17 0 &&& 0x33F1F == rcField r 1 17 0 &&
    (if rcField r 0 10 10 = 1 then rcField r 0 13 11 != 0 else rcField r 0 13 11 == 0) &&
    (!j.cuse || (1 ≤ j.cslots && j.cslots ≤ 64 && (!j.cnew || (1 ≤ j.cbanks && j.cbanks ≤ 64))))

/-- P_max limit of a class (R267). -/
def pmaxLimit (c : Nat) : Nat :=
  match c with
  | 0 => 16000000
  | 1 => 2000000
  | 2 => 1000000
  | _ => 250000

/-! ### Sizes -/

/-- 2 MiB pages for the jobs: 36 stacks of 24,576, less the image store (R347, R400). -/
def memoryPages : Nat := 36 * 24576 - 16384

/-- Does the image hold a node with CKPT (R384)? -/
def imageCkpt (im : Image) : Bool := im.nodes.any fun d => ndKind d == 0 && ndCkpt d

/-- Checkpoint storage of a job, two generations, in 2 MiB pages (R384). -/
def Job.ckPages (j : Job) (im : Image) : Nat :=
  if imageCkpt im then
    let shares := sumNat ((List.range (4 * j.width * j.height)).map fun i => shSsize (shareOf im i) * 1024) + j.width * j.height * j.vshare
    2 * (j.p2m + 1024 * j.p2g + (shares + 2 ^ 21 - 1) / 2 ^ 21)
  else 0

/-- Lines reserved for the streams that a member receives, in 2 MiB pages (R416). -/
def Pod.recvPages (p : Pod) (plan : List Word) : Nat :=
  (sumNat (((planStreams plan).filter fun e => strmDpod e == p.id).map strmLines) * 64 + 2 ^ 21 - 1) / 2 ^ 21

/-- Placements of a job (R344). -/
def Job.copies (j : Job) : Nat := if j.dual then 2 else 1

/-- Pages that a job's admission takes (R341, R344, R384, R416), beside those that passed on to it from a retained job. -/
def Job.needPages (j : Job) (im : Image) (p : Pod) : Nat :=
  (if j.pages.isEmpty then j.copies * (j.p2m + 1024 * j.p2g) else 0) + (if j.replacing then 0 else j.copies * j.ckPages im - j.ckStore) +
    (p.recvPages j.plan - j.recvStore)

/-- Save areas of the four contexts in quad `i` of a partition (R264). -/
def saveBytes (im : Image) (i : Nat) : Nat :=
  sumNat ((List.range 4).map fun t => (shSsize (shareOf im (4 * i + t)) + shIsize (shareOf im (4 * i + t)) + 32) * 1024)

/-- Vault bytes that a job needs in the quad of its partition that needs most. -/
def Job.vaultNeed (j : Job) (im : Image) : Nat :=
  j.vshare + ((List.range (j.width * j.height)).map (saveBytes im)).foldl max 0

/-- Large pages that jobs may have: the image store takes sixteen of 864 (R347, R400). -/
def largePages : Nat := 848

/-- Is there room on the empty wafer for two placements that touch no common physical field (R344)? The first lies in the south-west
corner (R340), so the second lies east or north of its fields. -/
def Job.twoFit (j : Job) : Bool :=
  (j.width + 7) / 8 * 8 + j.width ≤ Config.quadCols || (j.height + 7) / 8 * 8 + j.height ≤ Config.quadRows

/-- Would no quad have the banks of the commons that the job creates (R342)? A job of the whole wafer takes its shares in every quad. -/
def Job.commonsTooLarge (j : Job) (im : Image) : Bool :=
  let whole := j.width * j.height == Config.quadCols * Config.quadRows
  let passed (i : Nat) : Bool := Config.vaultBytes < j.cbanks * bankBytes + (if whole then j.vshare + saveBytes im i else 0)
  j.cuse && j.cnew && (if whole then (List.range (j.width * j.height)).all passed else passed 0)

/-- Could no wafer meet the request, with every quad free and healthy (R339)? -/
def Job.tooLarge (j : Job) (im : Image) (p : Pod) : Bool :=
  let fresh := { j with pages := [], ckStore := 0, recvStore := 0, replacing := false }
  memoryPages < fresh.needPages im p || largePages < j.copies * j.p2g || Config.vaultBytes < j.vaultNeed im ||
    (j.dual && !j.twoFit) || j.commonsTooLarge im

/-! ### Pod plans (R416, R417) -/

/-- One stream entry is sound for this member. -/
def streamOk (p : Pod) (im : Image) (members : Nat) (e : List Word) : Bool :=
  let staged (r : Nat) : Bool := match im.regions[r]? with
    | some g => g.staged && g.space == 2
    | none => false
  strmField e 0 63 39 == 0 && strmField e 1 63 37 == 0 && e.getD 2 0 == 0 && e.getD 3 0 == 0 && 1 ≤ strmLines e &&
    strmLines e ≤ 2 ^ 20 && 1 ≤ strmSlots e && bit members (strmSpod e) && bit members (strmDpod e) &&
    (strmSpod e != p.id || staged (strmSreg e)) && (strmDpod e != p.id || staged (strmDreg e))

/-- The fabric plan of a member is sound; no plan is (R415-R417). -/
def Job.planOk (j : Job) (p : Pod) (im : Image) : Bool :=
  match j.plan with
  | [] => true
  | h :: _ =>
    let es := planStreams j.plan
    let slots (port : Nat) : Nat := sumNat ((es.filter fun e => p.onStream e && strmPort e == port).map strmSlots)
    (j.plan.length - 1) % 4 == 0 && bit h.toNat p.id && j.startTick.isSome && es.all (streamOk p im h.toNat) &&
      es.all fun e => !p.onStream e || (slots (strmPort e) ≤ 31 && slots (strmPort e) + 1 ≤ baseRate j.width j.height)

/-! ### refusal(j) (R339) -/

/-- The banks that the ring check can see: those of the record, or of the commons that exists (R366). -/
def State.ringBanks (s : State) (j : Job) : Option Nat :=
  if !j.cuse then some 0 else if j.cnew then some j.cbanks else (s.common? j.cid).map (·.banks)

/-- The ring occupancy is over its depth, as far as it can be judged now (R366). -/
def State.ringOver (s : State) (j : Job) (im : Image) : Bool :=
  match s.ringBanks j with
  | some b => 2048 * b < imageRing im
  | none => false

/-- The verified image that a record names. -/
def State.verifiedImage (s : State) (j : Job) : Option Image :=
  let sl := s.hilum.images.toList.getD j.imageNo {}
  if sl.verified then sl.image else none

/-- refusal(j): the status with which the record is refused (R339); `beside`: the loader refuses the image beside the contexts that would be
resident with it. -/
def State.refusalWith (s : State) (j : Job) (beside : Image → Bool) : Option Nat :=
  if 65536 ≤ j.units then some stBadExtent
  else if !j.recordOk then some stBadRecord
  else
    match s.verifiedImage j with
    | none => some stBadImage
    | some im =>
      if im.pw != j.width || im.ph != j.height || !imageOk im j.guards || s.ringOver j im || beside im then some stBadImage
      else if pmaxLimit j.cls < j.pmax || j.pmax < im.pmax then some stBadPmax
      else if j.dual && j.cuse then some stBadRecord
      else if !j.planOk s.pod im then some stBadRecord
      else if j.tooLarge im s.pod then some stTooLarge
      else none

end Sys2Proof.Machine
end

