-- ==== Sys2Proof/Machine/Admit.lean ====
section
/-!
DEFINITION. Admission (12 R338-R344; 09 R264, R265; 13 R346, R347, R351; 15 R399): placement, allocation, loading of contexts and their
movement between slots and save areas.
-/
namespace Sys2Proof.Machine

/-! ### Placement (R340) -/

/-- Logical quad number at a column and row. -/
def quadNo (x y : Nat) : Nat := y * Config.quadCols + x

/-- Does the job's rectangle hold the quad at (x, y)? -/
def Job.holdsQuad (j : Job) (x y : Nat) : Bool := j.placed && j.x ≤ x && x < j.x + j.width && j.y ≤ y && y < j.y + j.height

/-- Is the job active where it stands? One that has not started yet keeps its quads like one that runs, until a job of a higher class takes
them (DEDUCED, log 38). -/
def Job.active (j : Job) : Bool := j.state == .running || ((j.state == .loaded || j.state == .held) && !j.aside)

/-- Resident contexts on a quad, by the job's partition id. -/
def State.resident (s : State) (q : Nat) : List Nat :=
  match s.tiles.find? fun t => t.ltid == 4 * q with
  | none => []
  | some t => ((t.ct :: t.standby.toList).filter (·.full)).map (·.pid)

/-- Vault bytes of a quad that shares, save areas and commons take (R283). -/
def State.vaultUsed (s : State) (x y : Nat) : Nat :=
  sumNat ((s.jobs.filter (·.holdsQuad x y)).map fun k =>
      k.vshare + ((s.imageOf k).map fun im => saveBytes im ((y - k.y) * k.width + (x - k.x))).getD 0) +
    sumNat ((s.commons.filter fun c => c.quad == quadNo x y).map fun c => c.banks * bankBytes)

/-- The quad of a unit word (R268). -/
def unitQuad (u : BitVec 32) : Nat := u.toNat % 2 ^ 15 / 5

/-- usable(q, j, pass) (R340) for quad `i` of the partition, and no unit of the quad waits to be retired. -/
def State.usable (s : State) (j : Job) (im : Image) (pass i x y : Nat) : Bool :=
  let q := s.quad (quadNo x y)
  let act := s.jobs.filter fun k => k.holdsQuad x y && k.active
  let res := s.resident (quadNo x y)
  q.state == 0 && q.src != 3 && !s.retireAsk.any (fun u => unitQuad u == quadNo x y) && s.vaultUsed x y + j.vshare + saveBytes im i ≤ Config.vaultBytes &&
    (res.length < 2 || s.jobs.any fun k => k.holdsQuad x y && (k.state == .preempted || k.aside) && j.cls < k.cls && res.contains k.pid) &&
    (if pass = 1 then act.isEmpty else act.all fun k => j.cls < k.cls)

/-- Does the link from the quad at (x, y) toward `dir` work, seen from both ends (R299, R340)? -/
def State.linkOk (s : State) (x y dir : Nat) : Bool :=
  let n := if dir = 0 then quadNo x (y + 1) else quadNo (x + 1) y
  !(s.quad (quadNo x y)).links.getLsbD dir && !(s.quad n).links.getLsbD (dir + 2)

/-- Is the rectangle at (x, y) good for the job? `bad` excludes quads. -/
def State.rectOk (s : State) (j : Job) (im : Image) (pass : Nat) (bad : Nat → Nat → Bool) (x y : Nat) : Bool :=
  (List.range j.height).all fun dy => (List.range j.width).all fun dx =>
    !bad (x + dx) (y + dy) && s.usable j im pass (dy * j.width + dx) (x + dx) (y + dy) && (dx + 1 = j.width || s.linkOk (x + dx) (y + dy) 1) &&
      (dy + 1 = j.height || s.linkOk (x + dx) (y + dy) 0)

/-- place(j): the first fit, rows from the south, columns from the west, in two passes (R340). -/
def State.place (s : State) (j : Job) (im : Image) (bad : Nat → Nat → Bool) : Option (Nat × Nat) :=
  let spots := (List.range (Config.quadRows + 1 - j.height)).flatMap fun y =>
    (List.range (Config.quadCols + 1 - j.width)).map fun x => (x, y)
  match spots.find? fun p => s.rectOk j im 1 bad p.1 p.2 with
  | some p => some p
  | none => spots.find? fun p => s.rectOk j im 2 bad p.1 p.2

/-- The quads of the physical fields that a placement touches (R344). -/
def Job.inFields (j : Job) (x y : Nat) : Bool :=
  j.x / 8 ≤ x / 8 && x / 8 ≤ (j.x + j.width - 1) / 8 && j.y / 8 ≤ y / 8 && y / 8 ≤ (j.y + j.height - 1) / 8

/-! ### Memory (R341, R342, R351) -/

/-- The DRAM pages that a job holds. -/
def Job.held (j : Job) : List Page := j.pages ++ j.kept

/-- 2 MiB pages that jobs hold: retained ones and checkpoint storage included. -/
def State.usedPages (s : State) : Nat :=
  sumNat (s.jobs.map fun k => sumNat (k.held.map fun p => if p.large then 1024 else 1) + k.ckStore + k.recvStore)

/-- Is large page `b` of the wafer's stacks free? The image store takes the last one of sixteen stacks (R400). -/
def blockFree (used : List Page) (b : Nat) : Bool :=
  !(b < 16 * 24 && b % 24 == 23) &&
    !used.any fun p => if p.large then p.stack * 24 + p.ppn == b else p.stack * 24 + p.ppn / 1024 == b

/-- The first `n` free large pages, as blocks. -/
def freeBlocks (used : List Page) (n : Nat) : List Nat := ((List.range 864).filter (blockFree used)).take n

/-- The first `n` free small pages, downward from small page `p`. -/
def freeSmalls (used : List Page) : Nat → Nat → List Nat
  | 0, _ => []
  | p + 1, n =>
    if n = 0 then []
    else if used.any (fun g => if g.large then (g.stack * 24 + g.ppn) == p / 1024 else g.stack * 24576 + g.ppn == p)
        || (p / 1024 < 16 * 24 && p / 1024 % 24 == 23) then freeSmalls used p n
    else p :: freeSmalls used p (n - 1)

/-- The pages of a job at their fixed DVAs (R346). -/
def State.takePages (s : State) (j : Job) : List Page :=
  let used := s.jobs.flatMap (·.held)
  let ls : List Page := (freeBlocks used j.p2g).zipIdx.map fun e => ⟨true, e.2, e.1 / 24, e.1 % 24⟩
  let ss : List Page := (freeSmalls (ls ++ used) (864 * 1024) j.p2m).zipIdx.map fun e =>
    ⟨false, j.p2g * 1024 + e.2, e.1 / 24576, e.1 % 24576⟩
  ls ++ ss

/-- RATE taken by the partitions that hold windows, one that waits to be placed again among them (R351). -/
def State.rateSum (s : State) : Nat :=
  sumNat ((s.jobs.filter fun k => k.placed || (k.state == .waiting && k.replacing)).map fun k => baseRate k.width k.height)

/-- The first quad, row-major from the south-west, with this many banks free (R342). -/
def State.commonsQuad (s : State) (n : Nat) : Option Nat :=
  (List.range (Config.quadCols * Config.quadRows)).find? fun q =>
    s.vaultUsed (q % Config.quadCols) (q / Config.quadCols) + n * bankBytes ≤ Config.vaultBytes

/-- Free slots on a bank, lowest first. -/
def Commons.freeSlots (c : Commons) (bank : Nat) : List Nat :=
  (List.range 64).filter fun i => !c.cal.any fun e => e.1 == bank && e.2.1 == i

/-- Does the job hold slots on its commons already, or need none? One that is placed again does. -/
def State.hasSlots (s : State) (j : Job) : Bool := !j.cuse || s.commons.any fun c => c.cid == j.cid && c.holders.contains j.serial

/-- Are the commons banks and slots there (R342)? -/
def State.commonsReady (s : State) (j : Job) : Bool :=
  if s.hasSlots j then true
  else
    match s.common? j.cid, j.cnew with
    | some _, true => false
    | none, true => (s.commonsQuad j.cbanks).isSome
    | none, false => false
    | some c, false => (List.range c.banks).all fun b => j.cslots ≤ (c.freeSlots b).length

/-- The state with the job's shares in the places found for them. -/
def State.withPlaces (s : State) (j : Job) (ps : List (Nat × Nat × Nat)) : State :=
  { s with jobs := (ps.map fun p => { j with state := .loaded, pid := p.1, x := p.2.1, y := p.2.2 }) ++ s.jobs.filter (!·.same j) }

/-- memory_ready(j, p) (R341, R342, R344, R351, R384). Pages that pass on from a retained job are not taken again, and a commons takes
its banks outside the job's own shares. -/
def State.memoryReady (s : State) (j : Job) (im : Image) (ps : List (Nat × Nat × Nat)) : Bool :=
  let blocks := if j.pages.isEmpty then j.copies * j.p2g else 0
  s.usedPages + j.needPages im s.pod ≤ memoryPages && blocks ≤ (freeBlocks (s.jobs.flatMap (·.held)) blocks).length &&
    s.rateSum + (if j.replacing then 0 else j.copies * baseRate j.width j.height) ≤ 400 && (s.withPlaces j ps).commonsReady j

/-- Create or use the commons of a job (R342): the lowest free slots on each bank. -/
def State.grantCommons (s : State) (j : Job) : State :=
  if s.hasSlots j then s
  else
    let s := match s.common? j.cid, s.commonsQuad j.cbanks with
      | none, some q =>
        let c : Commons := { cid := j.cid, quad := q, banks := j.cbanks }
        { s with commons := s.commons ++ [c] }
      | _, _ => s
    s.onCommons j.cid fun c => { c with
      holders := c.holders ++ [j.serial]
      cal := c.cal ++ (List.range c.banks).flatMap fun b => ((c.freeSlots b).take j.cslots).map fun i => (b, i, j.pid) }

/-! ### Contexts (R164, R199, R264, R336) -/

/-- The cells of a store in [lo, hi), moved to start at `at_`. -/
def memMove {w : Nat} (m : Store w) (lo hi at_ : Nat) : Store w :=
  (m.filter fun c => lo ≤ c.1 && c.1 < hi).map fun c => (c.1 - lo + at_, c.2)

/-- Replace [at_, at_ + n) by a store whose cells start at 0. -/
def memPaste {w : Nat} (m : Store w) (at_ n : Nat) (new : Store w) : Store w :=
  memSetAll (memClear m at_ (at_ + n)) (new.map fun c => (c.1 + at_, c.2))

/-- The shares' bases beside another resident context; none when they do not fit (R164, R199, R228). -/
def sharesBeside (other : Option Context) (k : Context) : Option (Nat × Nat) :=
  match other with
  | none => some (0, 0)
  | some o =>
    if o.cimUser && k.cimUser then none
    else if o.sbase = 0 then
      let sb := 3072 * ((o.ssize * 1024 + 3071) / 3072)
      if o.isize + k.isize ≤ 128 && o.ssize + k.ssize ≤ 384 && sb + k.ssize * 1024 ≤ Config.spBytes then some (o.isize, sb) else none
    else if k.isize ≤ o.ibase && k.ssize * 1024 ≤ o.sbase then some (0, 0)
    else none

/-- The IMEM share that an image gives a tile: code from offset 0, the segment table at the end (R164). -/
def shareCode (im : Image) (i : Nat) : Mem :=
  match im.sections[im.sectionOf.getD i 0]? with
  | none => []
  | some c =>
    memPut (memPut [] 0 c.code) (shIsize (shareOf im i) * 1024 - 8 * shSegn (shareOf im i)) (c.segs.flatMap fun w => bytesOf 8 w.toNat)

/-- The race carve-outs of a space are zero (R212). -/
def zeroCarve (rs : List Region) (space : Nat) (m : Mem) : Mem :=
  (rs.filter fun r => r.race && r.space == space).foldl (fun m r => memClear m r.rcbase (r.rcbase + r.size / 2)) m

/-- Initial data of a scratchpad (space 0, tile index) or of the vault of a quad (space 1, quad index) (R72, R320). -/
def shareData (im : Image) (space i : Nat) : Mem :=
  (im.data.filter fun d => d.space == space && d.index == i).foldl (fun m d => memPut m d.addr d.bytes) []

/-- The scratchpad share of tile `i` as the loader leaves it. -/
def loadedShare (im : Image) (i : Nat) : Mem := zeroCarve im.regions 0 (shareData im 0 i)

/-- The vault shares of a placement as the loader leaves them. -/
def Job.vaultStart (j : Job) (im : Image) : Mem :=
  zeroCarve im.regions 1 ((List.range (j.width * j.height)).foldl (fun m i =>
    memSetAll m ((shareData im 1 i).map fun c => (c.1 + i % j.width * 2 ^ 24 + i / j.width * 2 ^ 31, c.2))) [])

/-- TILEID of a tile (R193). -/
def tileidOf (ltid : Nat) : Word :=
  let q := ltid / 4
  BitVec.ofNat 64 (ltid + ltid % 4 * 2 ^ 15 + q % Config.quadCols * 2 ^ 17 + q / Config.quadCols * 2 ^ 24)

/-- The registers of the context of tile `i` when it starts (R136, R192, R336). -/
def startCtx (j : Job) (im : Image) (i ltid : Nat) : Ctx :=
  let dq : Word := (deferqsOf im i).headD 0
  { s := (Vector.replicate 64 (0 : Word)).set 1 (BitVec.ofNat 64 j.units)
    tileid := tileidOf ltid
    partid := BitVec.ofNat 64 (j.pid + j.cls * 2 ^ 8 + (if j.test then 2 ^ 10 else 0) + (if j.dual then 2 ^ 11 else 0)
      + j.place * 2 ^ 12)
    fmode := BitVec.ofNat 64 (rcField j.record 0 6 5), dmode := BitVec.ofNat 64 (rcField j.record 0 9 7)
    trapen := BitVec.ofNat 64 (rcField j.record 1 17 0), memcfg := BitVec.ofNat 64 (rcField j.record 0 14 10)
    dqbase := BitVec.ofNat 64 (dqBaseOf dq), dqcap := BitVec.ofNat 64 (dqCapOf dq) }

/-- A fresh context of a job on its tile `i` (R336). -/
def startContext (j : Job) (im : Image) (i ltid : Nat) : Context :=
  { pid := j.pid, cx := startCtx j im i ltid, isize := shIsize (shareOf im i), segn := shSegn (shareOf im i), ssize := shSsize (shareOf im i)
    regions := im.regions, cimUser := imageCim im }

/-- A share goes into a slot's place. -/
def Tile.putShare (t : Tile) (k : Context) (v : SavedShare) : Tile :=
  let lo := k.sbase
  let n := k.ssize * 1024
  { t with
    imem := memPaste t.imem (k.ibase * 1024) (k.isize * 1024) v.imem
    sp := {
      pub := memPaste t.sp.pub lo n v.sp.pub, shadow := memPaste t.sp.shadow lo n v.sp.shadow
      lines := (t.sp.lines.filter fun l => !(lo ≤ 64 * l.1 && 64 * l.1 < lo + n)) ++ v.sp.lines.map fun l => (l.1 + lo / 64, l.2)
      soft := (t.sp.soft.filter fun e => !(lo ≤ 8 * e.word && 8 * e.word < lo + n)) ++ v.sp.soft.map fun e => { e with word := e.word + lo / 8 } }
    acc := if k.cimUser then v.acc else t.acc
    scales := if k.cimUser then v.scales else t.scales
    tags := if k.cimUser then v.tags else t.tags }

/-- A share as it goes to a save area. -/
def Tile.getShare (t : Tile) (k : Context) : SavedShare :=
  let lo := k.sbase
  let hi := lo + k.ssize * 1024
  { pid := k.pid
    imem := memMove t.imem (k.ibase * 1024) ((k.ibase + k.isize) * 1024) 0
    sp := { pub := memMove t.sp.pub lo hi 0, shadow := memMove t.sp.shadow lo hi 0
            lines := (t.sp.lines.filter fun l => lo ≤ 64 * l.1 && 64 * l.1 < hi).map fun l => (l.1 - lo / 64, l.2)
            soft := (t.sp.soft.filter fun e => lo ≤ 8 * e.word && 8 * e.word < hi).map fun e => { e with word := e.word - lo / 8 } }
    acc := t.acc, scales := t.scales, tags := t.tags }

/-- Cycles in which a context moves between a slot and its save area (R264, R265). -/
def moveCycles (k : Context) (swapCim : Bool) : Nat := 16 * (k.ssize + k.isize) + if swapCim then 2496 else 0

/-- Place a context: in an empty slot where it fits, else in its save area, to be streamed in (R264). -/
def Tile.admitContext (t : Tile) (k : Context) (v : SavedShare) : Tile :=
  let at_ (b : Nat × Nat) : Context := { k with ibase := b.1, sbase := b.2 }
  let other := if t.ct.full then some t.ct else t.standby
  match t.ct.full && t.standby.isSome, sharesBeside other k with
  | false, some b =>
    let t := t.putShare (at_ b) v
    if t.ct.full then { t with standby := some (at_ b) } else { t with ct := at_ b }
  | _, _ =>
    { t with
      streamed := t.streamed ++ [k], saved := t.saved ++ [v], want := some k.pid, moveAt := none }

/-- The context and the shares with which a job starts on a tile: from the image, or from its last complete checkpoint (R336, R389,
R390). -/
def Job.startOn (j : Job) (im : Image) (i ltid : Nat) : Context × SavedShare :=
  let k := startContext j im i ltid
  let v : SavedShare := { pid := j.pid, imem := shareCode im i, sp := { pub := loadedShare im i } }
  let k := { k with digest := if j.resuming then j.fenceDigests.getD i 0 else 0 }
  match (if j.resuming then j.checkpoints.find? (·.complete) else none) with
  | none => (k, v)
  | some c =>
    match c.tiles[i]? with
    | none => (k, v)
    | some st =>
      ({ st.ct with
          pid := j.pid, isize := k.isize, segn := k.segn, ssize := k.ssize, digest := k.digest
          cx := { st.ct.cx with tileid := k.cx.tileid, partid := k.cx.partid }
          snap := { st.ct.snap with tileid := k.cx.tileid, partid := k.cx.partid } },
       { v with imem := st.imem, sp := { pub := st.sp }, acc := st.acc })

/-- The streamed context that the launch controller brings in. -/
def Tile.wanted (t : Tile) : Option Context := t.want.bind fun p => t.streamed.find? (·.isOf p)

/-- Is the active slot of a tile with two contexts the one to give up for a context of class `cls`? Where the standby one is not that of a
lower class that is pre-empted, and the active one is (R340). -/
def State.leavesFirst (s : State) (t : Tile) (o : Context) (cls : Nat) : Bool :=
  let low (k : Context) : Bool := s.jobs.any fun j => j.pid == k.pid && (j.state == .preempted || j.aside) && cls < j.cls
  !(t.ct.run == .out && low t.ct && !low o)

/-- The context that has to leave a tile before the wanted one comes (R264, R340): of two the standby one, or the one switched out of the
active slot; of one, the one switched out where the wanted one does not fit beside it. -/
def State.leaving (s : State) (t : Tile) : Option Context :=
  match t.standby, t.wanted with
  | some o, some k => if s.leavesFirst t o (((s.jobs.find? fun j => j.pid == k.pid && j.state != .ended).map (·.cls)).getD 0) then some o else some t.ct
  | none, some k => if t.ct.full && t.ct.run == .out && (sharesBeside (some t.ct) k).isNone then some t.ct else none
  | _, none => none

/-- A movement that can begin begins (R264, R265): the one that has to leave goes out, else the wanted one comes in where it fits. -/
def State.startMove (s : State) (t : Tile) : Tile :=
  match t.moveAt, t.wanted with
  | none, some k =>
    match s.leaving t with
    | some o => { t with moveAt := some (s.wcyc + moveCycles o (o.cimUser && k.cimUser)) }
    | none =>
      if (sharesBeside (if t.ct.full then some t.ct else none) k).isSome then
        { t with moveAt := some (s.wcyc + moveCycles k (t.saved.any fun v => v.pid == k.pid && v.arrays)) }
      else t
  | _, _ => t

/-- load(j, p) (R338, R341): a context on every tile, vault data, pages zeroed. -/
def State.load (s : State) (j : Job) (im : Image) : State :=
  let s := s.ensure j.ltids
  let s := j.ltids.zipIdx.foldl (fun (s : State) e =>
    let kv := j.startOn im e.2 e.1
    s.mapTiles (fun t => t.ltid == e.1) fun t => s.startMove (t.admitContext kv.1 kv.2)) s
  s.updJob j fun k => { k with vault := { pub := j.vaultStart im } }

/-! ### Pre-emption of victims (R266, R340) -/

/-- A pre-emption request reaches the lead quad now (R266). Of a pod job it is forwarded to every member, and delivered when they agree
(R422). -/
def Job.request (j : Job) : Job :=
  if j.state == .running && !j.preempting && j.preemptAt.isNone then
    if j.plan.isEmpty then { j with preemptAt := some (j.ref + j.td) } else { j with preemptAsk := true }
  else j

/-- A job that has not started stands aside for one of a higher class: its contexts leave the active slots (R340; DEDUCED, log 38). -/
def State.standAside (s : State) (k : Job) : State :=
  let out (c : Context) : Context := if c.isOf k.pid then { c with run := .out } else c
  (s.updJob k fun k => { k with aside := true }).mapTiles (fun t => k.ltids.contains t.ltid)
    fun t => { t with ct := out t.ct, standby := t.standby.map out, streamed := t.streamed.map out }

/-- Request the switch-out of every job that is active on the quads of `j` (R340). -/
def State.preemptVictims (s : State) (j : Job) : State :=
  let victim (k : Job) : Bool := k.active && !k.same j &&
    (List.range j.height).any fun dy => (List.range j.width).any fun dx => k.holdsQuad (j.x + dx) (j.y + dy)
  let s' : State := { s with jobs := updWhere victim Job.request s.jobs }
  (s.jobs.filter fun k => victim k && k.state != .running).foldl State.standAside s'

/-! ### Admission (R338) -/

/-- Does the job hold this partition id? One that waits to be placed again keeps its own (R389). -/
def Job.hasPid (j : Job) (p : Nat) : Bool :=
  (j.placed && j.pid == p) || (j.state == .waiting && j.replacing && (j.pid == p || j.twin == some p))

/-- The lowest partition id that no partition holds (R318). -/
def State.freePid (s : State) : Option Nat :=
  (List.range 256).find? fun p => !s.jobs.any (·.hasPid p)

/-- A job takes its place (R341): id, pages, window, commons, contexts. -/
def State.settle (s : State) (j : Job) (im : Image) (pid : Nat) (p : Nat × Nat) : State :=
  let k := { j with
    state := if j.hold then .held else .loaded
    pid := pid, x := p.1, y := p.2, loadedAt := some s.tick, replacing := false, mapSet := true, aside := false
    pages := if j.pages.isEmpty then s.takePages j else j.pages, ckStore := max j.ckStore (j.ckPages im)
    recvStore := if j.place = 0 then max j.recvStore (s.pod.recvPages j.plan) else 0 }
  let s := ((s.updJob j fun _ => k).freshMap pid).grantCommons k
  (s.load k im).preemptVictims k

/-- The waiting job of class `c` with this launch record, of a dual job placement 0. -/
def State.waiter (s : State) (c : Nat) (n : Nat) : Option Job :=
  s.jobs.find? fun j => j.serial == n && j.state == .waiting && j.cls == c

/-- The tick at which the first record of this list of class `c` entered its queue (R338). -/
def State.enteredAt (s : State) (c : Nat) (l : List Nat) : Nat := ((l.head?.bind (s.waiter c)).map (·.since)).getD s.tick

/-- An admission queue is now this list; where its head left, STALLS clears and HEADAGE is that of the new head (R338). -/
def State.setQueue (s : State) (c : Fin 4) (l : List Nat) : State :=
  s.onHilum fun h => { h with
    admission := h.admission.set c l
    stalls := if h.admission[c].head? = l.head? then h.stalls else h.stalls.set c 0
    headSince := if h.admission[c].head? = l.head? then h.headSince else h.headSince.set c (s.enteredAt c l) }

/-- Remove the head of an admission queue (R338). -/
def State.popHead (s : State) (c : Fin 4) : State :=
  let l := s.hilum.admission[c].drop 1
  s.onHilum fun h => { h with
    admission := h.admission.set c l, stalls := h.stalls.set c 0, headSince := h.headSince.set c (s.enteredAt c l) }

/-- A record completes without running (R337, R339): its entry, and the job is gone. -/
def State.refuse (s : State) (j : Job) (status : Nat) : State :=
  let s := s.endEntry j status 0 0 []
  { s with jobs := s.jobs.filter fun k => !(k.jobid == j.jobid && k.serial == j.serial && k.state == .waiting) }

/-- The partition id that a head takes: one placed again keeps its own (R389), and one that RESTORE resumes from a checkpoint keeps that of the
retained job, by R192 and R389, unless another partition has it by now (DEDUCED, log 70). -/
def State.pidFor (s : State) (j : Job) : Option Nat :=
  if j.replacing || (j.resuming && !s.jobs.any (·.hasPid j.pid)) then some j.pid else s.freePid

/-- Where a head goes: one placement, or both of a dual job (R340, R344). A job placed again keeps its partition ids (R389). -/
def State.placements (s : State) (j : Job) (im : Image) : Option (List (Nat × Nat × Nat)) :=
  match s.pidFor j, s.place j im fun _ _ => false with
  | some p, some a =>
    if !j.dual then some [(p, a)]
    else
      let j0 := { j with state := .loaded, pid := p, x := a.1, y := a.2 }
      let s0 := { s with jobs := j0 :: s.jobs.filter (!·.same j) }
      match (if j.replacing then j.twin else s0.freePid), s0.place { j with place := 1 } im j0.inFields with
      | some q, some b => some [(p, a), (q, b)]
      | _, _ => none
  | _, _ => none

/-- Admit a head that can be placed (R338). -/
def State.admitHead (s : State) (j : Job) (im : Image) (ps : List (Nat × Nat × Nat)) : State :=
  match ps with
  | [(p, a)] => s.settle j im p a
  | (p, a) :: (q, b) :: _ =>
    let again := s.jobs.find? fun k => k.jobid == j.jobid && k.serial == j.serial && k.place == 1 && k.state == .waiting
    let j0 := { j with twin := some q }
    let j1 := { again.getD { j with kept := [], keptDram := {} } with place := 1, twin := some p }
    let s := { s with jobs := updWhere (fun (k : Job) => k.same j) (fun _ => j0) (s.jobs.filter fun k => !(k.same j1)) ++ [j1] }
    (s.settle j0 im p a).settle j1 im q b
  | [] => s

/-- The context that would stay resident beside one of class `cls` that comes to the tile: the other slot's, or of two full slots the one
that does not leave (R340). -/
def State.staysBeside (s : State) (t : Tile) (cls : Nat) : Option Context :=
  match t.standby with
  | some o => if t.ct.full then (if s.leavesFirst t o cls then some t.ct else some o) else some o
  | none => if t.ct.full then some t.ct else none

/-- Do two contexts pass what a tile holds, or are both CIM users (R164, R199, R228)? -/
def tooMuchBeside (o k : Context) : Bool :=
  128 < o.isize + k.isize || 384 < o.ssize + k.ssize || (o.cimUser && k.cimUser) ||
    (o.sbase == 0 && Config.spBytes < 3072 * ((o.ssize * 1024 + 3071) / 3072) + k.ssize * 1024)

/-- Does the loader refuse an image for the contexts that would be resident beside its own, where the job would be placed now (R164, R199,
R228; DEDUCED, log 61)? -/
def State.besideRefused (s : State) (j : Job) (im : Image) : Bool :=
  !j.replacing && match s.placements j im with
    | none => false
    | some ps => ps.any fun p =>
      let k : Job := { j with x := p.2.1, y := p.2.2 }
      k.ltids.zipIdx.any fun e =>
        match (s.tiles.find? fun t => t.ltid == e.1).bind (s.staysBeside · j.cls) with
        | some o => tooMuchBeside o (startContext j im e.2 e.1)
        | none => false

/-- refusal(j) (R339). -/
def State.refusal (s : State) (j : Job) : Option Nat := s.refusalWith j (s.besideRefused j)

/-- The admission loop (R338). -/
def State.admitLoop (s : State) : Nat → State
  | 0 => s
  | fuel + 1 =>
    if s.power.hot then s
    else
      match (List.finRange 4).find? fun c => !(s.hilum.admission[c]).isEmpty with
      | none => s
      | some c =>
        match (s.hilum.admission[c]).head?.bind (s.waiter c) with
        | none => (s.popHead c).admitLoop fuel
        | some j =>
          if j.units = 0 then ((s.refuse j stEmpty).popHead c).admitLoop fuel
          else
            match s.refusal j, s.verifiedImage j with
            | some st, _ => ((s.refuse j st).popHead c).admitLoop fuel
            | none, none => ((s.refuse j stBadImage).popHead c).admitLoop fuel
            | none, some im =>
              match (s.placements j im).filter (s.memoryReady j im) with
              | some ps => ((s.admitHead j im ps).popHead c).admitLoop fuel
              | none => s.onHilum fun h => { h with stalls := h.stalls.set c (min 65535 (h.stalls[c] + 1)) }

/-- The admission loop, run whenever R338 asks for it. -/
def State.runAdmission (s : State) : State := s.admitLoop (s.jobs.length + 4)

/-- Put a job at the end of its admission queue (R338). -/
def State.enqueue (s : State) (j : Job) : State :=
  let c : Fin 4 := Fin.ofNat 4 j.cls
  let s : State := { s with jobs := s.jobs ++ [{ j with state := .waiting, since := s.tick }] }
  s.setQueue c (s.hilum.admission[c] ++ [j.serial])

/-- The end of a job, and the admission that follows it (R338, R404). -/
def State.finishJob (s : State) (j : Job) (status dcyc unit : Nat) (trap : List Word) : State :=
  (s.endJob j status dcyc unit trap).runAdmission

/-! ### Movement of contexts (R264, R265) -/

/-- CONTEXT_STREAM_OUT (R264, R265): a context has gone to its save area; where it was the one switched out of the active slot, the standby
one takes that slot. The stream-in follows at once. -/
def execContextStreamOut (s : State) : Out :=
  onTile (fun t => match s.leaving t, t.wanted with
    | some o, some k =>
      let v := { t.getShare o with arrays := o.cimUser && k.cimUser }
      let t' := { t with saved := t.saved ++ [v], streamed := t.streamed ++ [o], moveAt := none }
      s.startMove (if t.standby = some o then { t' with standby := none } else { t' with ct := t.standby.getD {}, standby := none })
    | _, _ => t) s

/-- CONTEXT_STREAM_IN (R264): into the standby slot, or into an empty tile. -/
def execContextStreamIn (s : State) : Out :=
  onTile (fun t => match t.wanted with
    | none => { t with want := none, moveAt := none }
    | some k =>
      if t.standby.isSome then t
      else
        match sharesBeside (if t.ct.full then some t.ct else none) k, t.saved.find? (·.pid == k.pid) with
        | some b, some v =>
          let k' := { k with ibase := b.1, sbase := b.2 }
          let u : Tile := { t with
            streamed := t.streamed.filter (!·.isOf k.pid), saved := t.saved.filter (·.pid != k.pid), want := none, moveAt := none }
          let t := u.putShare k' v
          if t.ct.full then { t with standby := some k' } else { t with ct := k' }
        | _, _ => t) s

end Sys2Proof.Machine
end

