-- ==== Sys2Proof/Machine/Decimal.lean ====
section
/-!
DEFINITION. decimal64 in the binary-integer-decimal encoding (spec 03 R85-R90, 06 R180, R181). Flags are numbered as in
Float.lean and go to the decimal set.
-/
namespace Sys2Proof.Machine

/-- What a decimal64 word denotes (R85). -/
inductive DNum where
  | nan (signalling : Bool)
  | inf (neg : Bool)
  /-- (−1)^neg × c × 10^q -/
  | fin (neg : Bool) (c : Nat) (q : Int)
  deriving DecidableEq, Repr

/-- Read a word; a coefficient above 10^16 − 1 reads as zero (R85, R86). -/
def dRead (x : Nat) : DNum :=
  let neg := bit x 63
  let top := bits x 62 58
  if top = 0b11111 then .nan (bit x 57)
  else if top = 0b11110 then .inf neg
  else
    let two := bits x 62 61 == 3
    let e := if two then bits x 60 51 else bits x 62 53
    let c := if two then 2 ^ 53 + bits x 50 0 else bits x 52 0
    .fin neg (if c < 10 ^ 16 then c else 0) ((e : Int) - 398)

/-- A finite operand whose coefficient exceeds 10^16 − 1 (R86). -/
def dNonCanonical (x : Nat) : Bool :=
  bits x 62 61 == 3 && bits x 62 58 < 0b11110 && 2 ^ 53 + bits x 50 0 ≥ 10 ^ 16

def dSign (neg : Bool) : Nat := if neg then 2 ^ 63 else 0
def dInf (neg : Bool) : Nat := dSign neg + 0x7800_0000_0000_0000
def dNanWord : Nat := 0x7C00_0000_0000_0000
def dNan (invalid : Bool) : FRes := ⟨dNanWord, if invalid then flInvalid else 0⟩

/-- The canonical word of a finite value in range (R86). -/
def dPack (neg : Bool) (c : Nat) (q : Int) : Nat :=
  let e := (q + 398).toNat
  if c < 2 ^ 53 then dSign neg + e * 2 ^ 53 + c
  else dSign neg + 3 * 2 ^ 61 + e * 2 ^ 51 + (c - 2 ^ 53)

/-- The largest finite value (R85). -/
def dLargest (neg : Bool) : Nat := dPack neg (10 ^ 16 - 1) 369

/-- Decimal digits of a number, 1 for 0; `fuel` bounds them. -/
def digitsFrom : Nat → Nat → Nat
  | 0, _ => 1
  | k + 1, n => if n < 10 then 1 else digitsFrom k (n / 10) + 1
def digits (n : Nat) : Nat := digitsFrom (bitLen n) n

/-- Strip up to `k` trailing decimal zeros, counting them. -/
def stripZeros : Nat → Nat → Nat → Nat × Nat
  | 0, n, z => (n, z)
  | k + 1, n, z => if n % 10 = 0 then stripZeros k (n / 10) (z + 1) else (n, z)

/-- Limit an exponent to the range (R85). -/
def dClampExp (q : Int) : Int := max (-398) (min 369 q)

/-- Step 3 of R87: round a nonzero magnitude m × 10^e (more below when `sticky`) to 16 digits under `rm`. -/
def dRound (rm : Nat) (neg : Bool) (m : Nat) (e : Int) (sticky : Bool) : FRes :=
  let n := digits m
  let qFree : Int := e + n - 16
  let at_ (q : Int) : Nat × Bool :=
    if q ≤ e then (m * 10 ^ (e - q).toNat, sticky) else roundDiv rm neg m (10 ^ (q - e).toNat) sticky
  let free := at_ qFree
  let tiny := qFree ≤ -398 && free.1 < 10 ^ (-383 - qFree).toNat
  let q := max qFree (-398)
  let r := at_ q
  let carried := r.1 == 10 ^ 16
  let c := if carried then r.1 / 10 else r.1
  let q' := if carried then q + 1 else q
  if q' > 369 then ⟨if overflowsToInf rm neg then dInf neg else dLargest neg, flOverflow + flInexact⟩
  else ⟨dPack neg c q', (if r.2 then flInexact else 0) + (if tiny && r.2 then flUnderflow else 0)⟩

/-- The representation R87 chooses for m × 10^e (more below when `sticky`) with preferred exponent `pref`. -/
def dMake (rm : Nat) (neg : Bool) (m : Nat) (e : Int) (sticky : Bool) (pref : Int) : FRes :=
  if m = 0 && !sticky then ⟨dPack neg 0 (dClampExp pref), 0⟩
  else
    let s := stripZeros (digits m) m 0
    let hi := min 369 (e + s.2)
    let lo := max (-398) (e + s.2 - (16 - digits s.1 : Nat))
    if sticky || 16 < digits s.1 || hi < lo then dRound rm neg m e sticky
    else
      let q := max lo (min hi pref)
      ⟨dPack neg (s.1 * 10 ^ (e + s.2 - q).toNat) q, 0⟩

def DNum.flip : DNum → DNum
  | .nan s => .nan s
  | .inf n => .inf (!n)
  | .fin n c q => .fin (!n) c q

def DNum.isNan : DNum → Bool
  | .nan _ => true
  | _ => false

def DNum.isSnan : DNum → Bool
  | .nan s => s
  | _ => false

/-- The exact signed sum of two finite values, over the smaller exponent. -/
def dSumFin (n1 : Bool) (c1 : Nat) (q1 : Int) (n2 : Bool) (c2 : Nat) (q2 : Int) : Int × Int :=
  let q := min q1 q2
  let a : Int := (c1 * 10 ^ (q1 - q).toNat : Nat)
  let c : Int := (c2 * 10 ^ (q2 - q).toNat : Nat)
  ((if n1 then -a else a) + (if n2 then -c else c), q)

/-- A decimal sum with the preferred exponent min(qa, qb) (R87). -/
def dSum (rm : Nat) (x y : DNum) : FRes :=
  match x, y with
  | .nan s, .nan t => dNan (s || t)
  | .nan s, _ => dNan s
  | _, .nan t => dNan t
  | .inf s, .inf t => if s = t then ⟨dInf s, 0⟩ else dNan true
  | .inf s, .fin .. => ⟨dInf s, 0⟩
  | .fin .., .inf t => ⟨dInf t, 0⟩
  | .fin n1 c1 q1, .fin n2 c2 q2 =>
    let z := dSumFin n1 c1 q1 n2 c2 q2
    if z.1 = 0 then ⟨dPack (if n1 = n2 then n1 else rm == 3) 0 (dClampExp (min q1 q2)), 0⟩
    else dMake rm (z.1 < 0) z.1.natAbs z.2 false (min q1 q2)

/-- The exact product; none where it is 0 × ∞. -/
def dMulNum (x y : DNum) : Option DNum :=
  match x, y with
  | .nan s, .nan t => some (.nan (s || t))
  | .nan s, _ => some (.nan s)
  | _, .nan t => some (.nan t)
  | .inf s, .inf t => some (.inf (s != t))
  | .inf s, .fin t c _ => if c = 0 then none else some (.inf (s != t))
  | .fin s c _, .inf t => if c = 0 then none else some (.inf (s != t))
  | .fin s c q, .fin t d r => some (.fin (s != t) (c * d) (q + r))

def dAdd (rm x y : Nat) : FRes := dSum rm (dRead x) (dRead y)
def dSub (rm x y : Nat) : FRes := dSum rm (dRead x) (dRead y).flip

/-- DMUL, VDMUL: preferred exponent qa + qb. -/
def dMul (rm x y : Nat) : FRes :=
  match dMulNum (dRead x) (dRead y) with
  | none => dNan true
  | some (.nan s) => dNan s
  | some (.inf n) => ⟨dInf n, 0⟩
  | some (.fin n c q) => dMake rm n c q false q

/-- DFMA, VDFMA: exact before one rounding; preferred exponent min(qa + qb, qc) is that of the sum. -/
def dMulAdd (rm x y z : Nat) : FRes :=
  match dMulNum (dRead x) (dRead y) with
  | none => dNan true
  | some p => dSum rm p (dRead z)

/-- DDIV (R180): preferred exponent qa − qb; a finite value over an infinity is a zero of exponent −398. -/
def dDiv (rm x y : Nat) : FRes :=
  match dRead x, dRead y with
  | .nan s, .nan t => dNan (s || t)
  | .nan s, _ => dNan s
  | _, .nan t => dNan t
  | .inf _, .inf _ => dNan true
  | .inf s, .fin t _ _ => ⟨dInf (s != t), 0⟩
  | .fin s _ _, .inf t => ⟨dPack (s != t) 0 (-398), 0⟩
  | .fin s c q, .fin t d r =>
    if d = 0 then if c = 0 then dNan true else ⟨dInf (s != t), flDivZero⟩
    else dMake rm (s != t) (c * 10 ^ 40 / d) (q - r - 40) (c * 10 ^ 40 % d != 0) (q - r)

/-- DQUANT, VDQUANT (R88, R123): a with the exponent of b. -/
def dQuant (rm x y : Nat) : FRes :=
  match dRead x, dRead y with
  | .nan s, .nan t => dNan (s || t)
  | .nan s, _ => dNan s
  | _, .nan t => dNan t
  | .inf s, .inf _ => ⟨dInf s, 0⟩
  | .inf _, .fin .. => dNan true
  | .fin .., .inf _ => dNan true
  | .fin s c q, .fin _ _ r =>
    let z := if r ≤ q then (c * 10 ^ (q - r).toNat, false) else roundDiv rm s c (10 ^ (r - q).toNat) false
    if z.1 < 10 ^ 16 then ⟨dPack s z.1 r, if z.2 then flInexact else 0⟩ else dNan true

/-- DRINT (R180): rounded to an integral value, preferred exponent max(qa, 0). -/
def dRint (rm x : Nat) : FRes :=
  match dRead x with
  | .nan s => dNan s
  | .inf s => ⟨dInf s, 0⟩
  | .fin s c q =>
    if 0 ≤ q then ⟨dPack s c q, 0⟩
    else
      let z := roundDiv rm s c (10 ^ (-q).toNat) false
      ⟨dPack s z.1 0, if z.2 then flInexact else 0⟩

/-- Ordering by value (R83, R88). -/
def dCmpNum (x y : DNum) : Option Ordering :=
  match x, y with
  | .nan _, _ => none
  | _, .nan _ => none
  | .inf s, .inf t => some (if s = t then .eq else if s then .lt else .gt)
  | .inf s, .fin .. => some (if s then .lt else .gt)
  | .fin .., .inf t => some (if t then .gt else .lt)
  | .fin n1 c1 q1, .fin n2 c2 q2 =>
    let z := (dSumFin n1 c1 q1 (!n2) c2 q2).1
    some (if z < 0 then .lt else if z = 0 then .eq else .gt)

/-- DCMP, VDCMP: the condition and its flags. -/
def dCompare (code x y : Nat) : Bool × Nat :=
  let u := dRead x
  let v := dRead y
  (condOrd code (dCmpNum u v),
    if condInvalid code (u.isNan || v.isNan) (u.isSnan || v.isSnan) then flInvalid else 0)

/-- The class word of R90; a normal magnitude is at least 10^−383. -/
def dClass (x : Nat) : Nat :=
  match dRead x with
  | .nan s => if s then 1 else 2
  | .inf n => if n then 4 else 512
  | .fin n c q =>
    if c = 0 then (if n then 32 else 64) + (if dNonCanonical x then 1024 else 0)
    else if q + digits c - 1 < -383 then if n then 16 else 128
    else if n then 8 else 256

/-- From an integer type (R89): preferred exponent 0. -/
def dFromInt (rm code x : Nat) : FRes :=
  let z : Int := if code < 4 then toSigned (intWidth code) x else ((x % 2 ^ intWidth code : Nat) : Int)
  dMake rm (z < 0) z.natAbs 0 false 0

/-- From binary64 (R89): an exact value takes its largest exponent, a zero the exponent 0. -/
def dFromBinary (rm : Nat) (v : BNum) : FRes :=
  match v with
  | .nan s => dNan s
  | .inf n => ⟨dInf n, 0⟩
  | .fin n m e =>
    if m = 0 then ⟨dPack n 0 0, 0⟩
    else if 0 ≤ e then dMake rm n (m * 2 ^ e.toNat) 0 false 369
    else dMake rm n (m * 5 ^ (-e).toNat) e false 369

/-- To binary64, rounded under FMODE (R89). -/
def dToBinary (fm x : Nat) : FRes :=
  let b := bfmt 11
  match dRead x with
  | .nan s => b.nan s
  | .inf n => ⟨b.infinity n, 0⟩
  | .fin n c q =>
    if c = 0 then ⟨b.signBit n, 0⟩
    else if 0 ≤ q then b.round fm n (c * 10 ^ q.toNat) 0 false
    else
      let d := 10 ^ (-q).toNat
      let k := 64 + bitLen d
      b.round fm n (c * 2 ^ k / d) (-(k : Int)) (c * 2 ^ k % d != 0)

/-- To an integer type: rounded under DMODE, then held against the range (R89). -/
def dToInt (rm code x : Nat) : FRes :=
  match dRead x with
  | .nan _ => ⟨0, flInvalid⟩
  | .inf n => ⟨ofInt (intWidth code) (if n then intMin code else intMax code), flInvalid⟩
  | .fin n c q => if 0 ≤ q then toIntType rm code n (c * 10 ^ q.toNat) 1 else toIntType rm code n c (10 ^ (-q).toNat)

/-- DCVT (R89, R181). -/
def dConvert (dm fm src dst x : Nat) : FRes :=
  if src = 12 then if dst = 11 then dToBinary fm x else dToInt dm dst x
  else if src = 11 then dFromBinary dm ((bfmt 11).read x)
  else dFromInt dm src x

end Sys2Proof.Machine
end

