-- ==== Sys2Proof/Machine/VectorFp.lean ====
section
/-!
DEFINITION. The binary and decimal lane ops (spec 04 R113, R114, R118, R121-R123).
-/
namespace Sys2Proof.Machine

/-- Flags by lane: those of inactive lanes are not raised (R76). -/
def laneFlags (active : Nat → Bool) (dec : Bool) (rs : List FRes) : List Nat :=
  rs.zipIdx.map fun e => if active e.2 then (if dec then dFlags e.1.fl else bFlags e.1.fl) else 0

/-- Write lane results with their flags, or trap (R92, R93, R112). -/
def Tile.vArith (t : Tile) (d : BitVec 6) (w n : Nat) (rs : List FRes) (active : Nat → Bool) (dec : Bool) (lat : Nat) : Tile :=
  t.arith (laneFlags active dec rs) lat 1 fun t fl => t.vWrite d (w / 8) n (ofLanes w (rs.map (·.val))) active fl lat 1

/-- A binary lane op of two sources (R121). -/
def floatLanes (lat : Nat) (o : RRR) (x : Ext) (f : BFmt → Nat → Nat → Nat → FRes) (s : State) : Out :=
  let w := typeWidth o.m.toNat
  checked (vecFaults [o.a, o.b] (some o.d) (w / 8)) 1 (onTile fun t =>
    let rs := (t.lanesOf o.a w).zipWith (f (bfmt o.m.toNat) t.fmode) (t.lanesOf o.b w)
    (t.useAll [o.a, o.b] (w / 8)).vArith o.d w (laneCount w) rs (t.active x) false lat) s

def execVfadd (o : RRR) (x : Ext) (s : State) : Out := floatLanes 4 o x fAdd s
def execVfsub (o : RRR) (x : Ext) (s : State) : Out := floatLanes 4 o x fSub s
def execVfmul (o : RRR) (x : Ext) (s : State) : Out := floatLanes 4 o x fMul s
def execVfdiv (o : RRR) (x : Ext) (s : State) : Out := floatLanes 16 o x fDiv s
def execVfmin (o : RRR) (x : Ext) (s : State) : Out := floatLanes 2 o x (fun b _ x y => fMinMax b false x y) s
def execVfmax (o : RRR) (x : Ext) (s : State) : Out := floatLanes 2 o x (fun b _ x y => fMinMax b true x y) s
/-- VFSCALE: b is a signed integer of the lane width. -/
def execVfscale (o : RRR) (x : Ext) (s : State) : Out :=
  floatLanes 4 o x (fun b rm x y => fScale b rm x (toSigned b.width y)) s
def execVfsgn (o : RRR) (x : Ext) (s : State) : Out := floatLanes 2 o x (fun b _ x y => fCopySign b x y) s

/-- VFSQRT. -/
def execVfsqrt (o : RRR) (x : Ext) (s : State) : Out :=
  let w := typeWidth o.m.toNat
  checked (vecFaults [o.a] (some o.d) (w / 8)) 1 (onTile fun t =>
    let rs := (t.lanesOf o.a w).map (fSqrt (bfmt o.m.toNat) t.fmode)
    (t.useAll [o.a] (w / 8)).vArith o.d w (laneCount w) rs (t.active x) false 20) s

/-- Three-operand lanes: f(a[i], b[i], d[i]). -/
def lanes3 (f : Nat → Nat → Nat → FRes) : List Nat → List Nat → List Nat → List FRes
  | a :: as, b :: bs, d :: ds => f a b d :: lanes3 f as bs ds
  | _, _, _ => []

/-- VFMA: a × b + d with one rounding; d is a register (R111). -/
def execVfma (o : RRR) (x : Ext) (s : State) : Out :=
  let w := typeWidth o.m.toNat
  checked (vecFaults [o.a, o.b] (some o.d) (w / 8)) 1 (onTile fun t =>
    let rs := lanes3 (fMulAdd (bfmt o.m.toNat) t.fmode) (t.lanesOf o.a w) (t.lanesOf o.b w) (lanes w (t.v o.d))
    (t.useAll [o.a, o.b] (w / 8)).vArith o.d w (laneCount w) rs (t.active x) false 5) s

/-- A floating lane compare into a mask, with its flags, or trapped (R118). -/
def floatCompare (lat : Nat) (dec : Bool) (o : RRR) (x : Ext) (f : Nat → Nat → Nat → Bool × Nat)
    (also : Tile → Tile) (s : State) : Out :=
  let w := typeWidth o.m.toNat
  checked (vecFaults [o.a, o.b] none (w / 8)) 1 (onTile fun t =>
    let rs := (t.lanesOf o.a w).zipWith (f (o.d.toNat / 8)) (t.lanesOf o.b w)
    let fl := laneFlags (t.active x) dec (rs.map fun r => ⟨0, r.2⟩)
    ((also t).useAll [o.a, o.b] (w / 8)).arith fl lat 1 fun u flags =>
      u.landK (low3 o.d) (maskFrom (t.active x) (rs.map (·.1))) flags lat) s

/-- VFCMP. -/
def execVfcmp (o : RRR) (x : Ext) (s : State) : Out := floatCompare 2 false o x (fCompare (bfmt o.m.toNat)) id s

/-- VFCVT (R122): n = min(Ns, Nt) elements, lanes beyond them zero in a register. -/
def execVfcvt (o : RRR) (x : Ext) (s : State) : Out :=
  let src := o.m.toNat
  let dst := o.b.toNat
  let ws := typeWidth src
  let wt := typeWidth dst
  let n := min (laneCount ws) (laneCount wt)
  checked (fun s => [s.tile.vReadFault o.a (ws / 8), s.tile.vWriteFault o.d (wt / 8), s.tile.vReadRace o.a (ws / 8) n]) 1
    (onTile fun t =>
      let rs := ((lanes ws (t.vRead o.a (ws / 8) n)).take n).map (fConvert t.fmode src dst)
      (t.vReadUse o.a (ws / 8) n 1).vArith o.d wt n rs (t.active x) false 4) s

/-! ### Decimal lanes (R114, R123) -/

/-- TVAL of a decimal op within the occupancy of another (R114). -/
def decBusyTval : Nat := 0b11 * 2 ^ 62

/-- Take the decimal vector unit for `occ` cycles (R113, R114). -/
def Tile.takeDec (occ : Nat) (t : Tile) : Tile :=
  { (t.collide (t.c < t.decBusy) decBusyTval 1) with decBusy := t.c + occ }

/-- A decimal lane op of two sources. -/
def decLanes (lat occ : Nat) (o : RRR) (x : Ext) (f : Nat → Nat → Nat → FRes) (s : State) : Out :=
  checked (vecFaults [o.a, o.b] (some o.d) 8) 1 (onTile fun t =>
    let rs := (t.lanesOf o.a 64).zipWith (f t.dmode) (t.lanesOf o.b 64)
    ((t.takeDec occ).useAll [o.a, o.b] 8).vArith o.d 64 8 rs (t.active x) true lat) s

def execVdadd (o : RRR) (x : Ext) (s : State) : Out := decLanes 6 2 o x dAdd s
def execVdsub (o : RRR) (x : Ext) (s : State) : Out := decLanes 6 2 o x dSub s
def execVdmul (o : RRR) (x : Ext) (s : State) : Out := decLanes 10 4 o x dMul s
def execVdquant (o : RRR) (x : Ext) (s : State) : Out := decLanes 6 2 o x dQuant s

/-- VDFMA. -/
def execVdfma (o : RRR) (x : Ext) (s : State) : Out :=
  checked (vecFaults [o.a, o.b] (some o.d) 8) 1 (onTile fun t =>
    let rs := lanes3 (dMulAdd t.dmode) (t.lanesOf o.a 64) (t.lanesOf o.b 64) (lanes 64 (t.v o.d))
    ((t.takeDec 4).useAll [o.a, o.b] 8).vArith o.d 64 8 rs (t.active x) true 12) s

/-- VDCMP. -/
def execVdcmp (o : RRR) (x : Ext) (s : State) : Out := floatCompare 6 true o x dCompare (Tile.takeDec 2) s

end Sys2Proof.Machine
end

