-- ==== Sys2Proof/Machine/Blocks.lean ====
section
/-!
DEFINITION. The block conversion ops (04 R126, R127).
-/
namespace Sys2Proof.Machine

/-- VBQPACK (R126): sixteen binary32 lanes into one block, inactive lanes entering as +0. -/
def execVbqpack (o : RRR) (x : Ext) (s : State) : Out :=
  let w := bqBits o.m.toNat
  checked (fun s => [s.tile.vReadFault o.a 4, s.tile.vWriteFault o.d 1, s.tile.vReadRace o.a 4 16]) 1 (onTile fun t =>
    let src := ((lanes 32 (t.vRead o.a 4 16)).zipIdx.map fun e => if t.active x e.2 then e.1 else 0)
    let r := bqForm w src
    let fl := src.zipIdx.map fun e => if r.1.x = 255 then 0 else
      bFlags (bqElement w r.1.x (r.1.d.getD (e.2 / 2) false) ((bfmt 10).read e.1)).2
    (t.vReadUse o.a 4 16 1).arith fl 4 1 fun t fl =>
      (t.vWrite o.d 1 16 (ofLanes 8 (r.1.bytes w)) (fun _ => true) fl 4 1).landS o.b (BitVec.ofNat 64 r.1.scale) 4 1) s

/-- VBQUNPK (R127): exact, no flag. -/
def execVbqunpk (o : RRR) (x : Ext) (s : State) : Out :=
  let w := bqBits o.m.toNat
  checked (fun s => [s.tile.vReadFault o.a 1, s.tile.vWriteFault o.d 4, s.tile.vReadRace o.a 1 16]) 1 (onTile fun t =>
    let b := bqRead w ((lanes 8 (t.vRead o.a 1 16)).take 16) (t.sN o.b % 2 ^ 16)
    (t.vReadUse o.a 1 16 1).vWrite o.d 4 16 (ofLanes 32 ((List.range 16).map (b.value w))) (t.active x) 0 4 1) s

end Sys2Proof.Machine
end

