-- ==== Sys2Proof/Machine/Walker.lean ====
section
/-!
DEFINITION. The graph walker (12 R325-R334): node starts and ends, strands, job control blocks, checkpoints (14 R384, R385), digests (15
R406), and the start of a job (12 R341; 10 R274; 03 R94; 04 R135; 05 R139).
-/
namespace Sys2Proof.Machine

/-! ### Strands -/

/-- The descriptor of a node of a job. -/
def State.nodeOf (s : State) (j : Job) (n : Nat) : List Word := ((s.imageOf j).map fun im => im.nodes.getD n []).getD []

/-- A strand of a job. -/
def Job.strand (j : Job) (n : Nat) : Option Strand := j.strands.find? fun x => x.num == n

/-- Change a strand. -/
def Job.onStrand (j : Job) (n : Nat) (f : Strand → Strand) : Job :=
  { j with strands := updWhere (fun x => x.num == n) f j.strands }

/-- The lowest free strand number (R325). -/
def Job.freeStrand (j : Job) : Option Nat := (List.range 16).find? fun n => (j.strand n).isNone

/-- The job of a partition, a strand that stands ready at a node of the kind, and the node's descriptor. -/
def State.readyAt (s : State) (pid n kind : Nat) : Option (Job × Strand × List Word) :=
  match s.job? pid with
  | none => none
  | some j =>
    match j.strand n with
    | none => none
    | some x =>
      let d := s.nodeOf j x.node
      if x.ready ≤ j.ref && !x.running && ndKind d = kind && j.ending.isNone then some (j, x, d) else none

/-- A strand moves on past a node that is not code; the 65th in a row fails the job (R326). -/
def State.pass (s : State) (j : Job) (x : Strand) (node ready : Nat) : State :=
  s.updJob j fun j =>
    if 64 ≤ x.passed then j.endAt stGraph 0 []
    else j.onStrand x.num fun x => { x with node := node, ready := ready, passed := x.passed + 1 }

/-- WALKER_BRANCH (R326). -/
def execWalkerBranch (pid n : Nat) (s : State) : Out :=
  match s.readyAt pid n 1 with
  | none => .next s
  | some (j, x, d) => .next (s.pass j x (ndSucc d (min x.cw.toNat (ndNsucc d - 1))) x.ready)

/-- WALKER_WHILE (R326). -/
def execWalkerWhile (pid n : Nat) (s : State) : Out :=
  match s.readyAt pid n 2 with
  | none => .next s
  | some (j, x, d) => .next (s.pass j x (ndSucc d (if x.cw = 0 then 1 else 0)) x.ready)

/-- Does a block pass (R332)? -/
def Jcb.passes (b : Jcb) : Bool := b.posted &&& b.bound == b.bound && b.expected ≤ b.completed

/-- WALKER_COLLECT (R326): once the block passes. A block that needs no post passes at once (R332). -/
def execWalkerCollect (pid n : Nat) (s : State) : Out :=
  match s.readyAt pid n 3 with
  | none => .next s
  | some (j, x, d) =>
    let b := j.jcbs.getD (ndJcb d) {}
    if b.passes then
      .next (s.pass j x (ndSucc d 0) (match b.passAt with
        | some y => max x.ready (y + 32 + j.td)
        | none => x.ready))
    else .next s

/-- WALKER_FINISH (R326): the strand ends, and the last one ends the job. -/
def execWalkerFinish (pid n : Nat) (s : State) : Out :=
  match s.readyAt pid n 4 with
  | none => .next s
  | some (j, x, _) =>
    if 64 ≤ x.passed then .next (s.updJob j fun j => j.endAt stGraph 0 [])
    else
      let j' := { j with strands := j.strands.filter (·.num != n) }
      let s := s.updJob j fun _ => j'
      .next (if j'.strands.isEmpty then s.finishJob j' stOk j'.ref 0 [] else s)

/-! ### Node start (R327, R328) -/

/-- Strands of a job whose nodes run on a group that meets this one (R328). -/
def State.meeting (s : State) (j : Job) (d : List Word) : List Strand :=
  j.strands.filter fun x => x.running && groupsMeet d (s.nodeOf j x.node)

/-- Tiles of a node's group in GRANK order: LTID and GRANK (R193). -/
def Job.groupLtids (j : Job) (d : List Word) : List (Nat × Nat) :=
  (List.range (4 * ndGw d * ndGh d)).map fun g =>
    (4 * quadNo (j.x + ndGc d + g / 4 % ndGw d) (j.y + ndGr d + g / 4 / ndGw d) + g % 4, g)

/-- GROUPID, GROUPSIZE (R193). -/
def groupidOf (d : List Word) (g : Nat) : Word :=
  BitVec.ofNat 64 (g + g % 4 * 2 ^ 15 + g / 4 % ndGw d * 2 ^ 17 + g / 4 / ndGw d * 2 ^ 24)
def groupsizeOf (d : List Word) : Word := BitVec.ofNat 64 (ndGw d + ndGh d * 2 ^ 7 + 4 * ndGw d * ndGh d * 2 ^ 14)

/-- Committed starts of a node of a job (R193). -/
def Job.starts (j : Job) (node : Nat) : Nat := ((j.stats.find? fun e => e.node == node).map (·.starts)).getD 0

/-- A tile starts a node (R94, R139, R269, R307, R327). -/
def Tile.startNode (t : Tile) (n node entry : Nat) (d : List Word) (g inst : Nat) : Tile :=
  let k := t.ct
  let now := k.now + k.lag
  let cx := { k.cx with
    groupid := groupidOf d g, groupsize := groupsizeOf d, nodeinst := BitVec.ofNat 64 (node + inst % 2 ^ 32 * 2 ^ 10) }
  { t with
    ct := { k with
      strand := some n, node := node, cx := cx, snap := cx, snapAcc := if k.cimUser then t.acc else []
      sq := { pc := entry, mustSeg := true }, y := Vector.replicate 16 {}, entry := entry, s0 := now, attempt := 0, run := .issue, after := .issue
      waiting := none
      stop := none, trap := none, handled := none, frozen := none, log := [], logPos := 0, logFull := false, waitLog := none, condw := none
      flags := 0, flSet := 0, guard := none, husk := 0, now := now, lag := 0, inflight := [], yAt := none, oor := none
      dqLate := none, mincLate := none, overlays := [], finjSeen := 0, finjBy := (0, 0), finjGone := [], util := Vector.replicate 6 0 }
    marks := [], lost := false, dets := [], post := [], late := [], owed := [], engineOor := none
    lastUe := [], landing := [] }

/-- WALKER_CODE_START (R327, R328): not while a running node's group meets its own. -/
def execWalkerCodeStart (pid n : Nat) (s : State) : Out :=
  match s.readyAt pid n 0 with
  | none => .next s
  | some (j, x, d) =>
    match s.imageOf j, s.meeting j d, j.preempting with
    | some im, [], false =>
      let inst := j.starts x.node
      let s := (j.groupLtids d).foldl (fun (s : State) e =>
        let entry := bits (((im.entries.getD x.node []).getD e.2 0).toNat) 16 0
        s.mapTiles (fun t => t.ltid == e.1 && t.ct.isOf pid) (·.startNode n x.node entry d e.2 inst)) s
      let s := (List.range (ndGw d * ndGh d)).foldl (fun (s : State) i =>
        let q := quadNo (j.x + ndGc d + i % ndGw d) (j.y + ndGr d + i / ndGw d)
        s.setQuad q { s.quad q with route := (im.routes.getD x.node []).getD i [] }) s
      .next (s.onJob pid fun j =>
        { j.onStrand n (fun x => { x with running := true, passed := 0, started := j.ref }) with
          vaultMarks := j.vaultMarks.filter (·.2 != n), published := j.published.filter (·.1 != n) })
    | _, _, _ => .next s

/-! ### Node end (R329-R333) -/

/-- Has everything that the drain waits for landed, with no cause detected or still to be detected on the way (R165, R255, R256)? -/
def Tile.drained (t : Tile) (j : Job) : Bool :=
  t.ct.run == .drain && t.dets.isEmpty && t.ct.inflight.isEmpty && !(t.ct.y.toList.any (·.valid)) && t.beats.isEmpty && t.ct.husk ≤ t.c &&
    t.pend.all (fun p => match p.kind with
      | .cimLock .. | .planeJoin .. => p.due ≤ t.c
      | _ => false) &&
    j.transfers.all fun x => x.ltid != t.ltid || x.done

/-- The tiles that run the node of a strand. -/
def State.strandTiles (s : State) (pid n : Nat) : List Tile := s.tiles.filter fun t => t.ct.isOf pid && t.ct.strand == some n

/-- The condition word (R330). -/
def combine (cop : Nat) (ws : List Word) : Word :=
  match ws with
  | [] => 0
  | w :: ws => ws.foldl (fun a b => match cop with
    | 0 => a ||| b
    | 1 => a &&& b
    | 2 => if a.toNat < b.toNat then b else a
    | _ => a + b) w

/-- The post of a node with condition word `cw` (R333), and the cycle of the post since which the block passes (R326). -/
def Jcb.post (b0 : Jcb) (slot : Nat) (raise : Bool) (cw : Word) (at_ : Nat) : Jcb :=
  let top := 2 ^ 32 - 1
  let bitv : Word := BitVec.ofNat 64 (2 ^ slot)
  let b := b0
  let b := if raise then
      if b.posted &&& bitv = 0 then
        { b with expected := min (b.expected + cw.toNat) top, clamp := b.clamp || top < b.expected + cw.toNat }
      else { b with late := min (b.late + 1) 65535 }
    else b
  let b := { b with clamp := b.clamp || b.completed == top, completed := min (b.completed + 1) top, posted := b.posted ||| bitv }
  { b with passAt := if !b.passes then none else if b0.passes then b0.passAt else some at_ }

/-- The node's DRAM lines enter the running digest (R406). -/
def Job.absorb (j : Job) (n node : Nat) : Job :=
  let mine := j.published.filter (·.1 == n)
  { j with
    digest := digest256 (j.digest ++ bytesOf 2 node ++ bytesOf 4 (j.starts node) ++
      mine.flatMap fun e => bytesOf 8 e.2.1 ++ bytesOf 64 e.2.2.toNat)
    published := j.published.filter (·.1 != n) }

/-- A committed start: the node's counts (R193, R348, R355, R382). -/
def Job.commitNode (j : Job) (node : Nat) : Job :=
  let st := (j.stats.find? fun e => e.node == node).getD { node := node }
  { j with stats := { st with starts := st.starts + 1, replays := 0, misses := 0 } :: j.stats.filter fun e => e.node != node }

/-- New strands for the successors beyond S0 (R325); none when a seventeenth is needed. -/
def Job.fork (x : Strand) (ready : Nat) : List Nat → Job → Option Job
  | [], j => some j
  | n0 :: rest, j =>
    match j.freeStrand with
    | none => none
    | some n => Job.fork x ready rest { j with strands := j.strands ++ [{ num := n, node := n0, ready := ready, cw := x.cw }] }

/-- The strand of an ended node goes on, and forks (R325, R329). -/
def Job.continue (j : Job) (n : Nat) (d : List Word) (cw : Word) : Job :=
  let ready := j.ref + 32 + j.td
  let j := j.onStrand n fun x => { x with node := ndSucc d 0, ready := ready, cw := cw, running := false }
  match j.strand n with
  | none => j
  | some x =>
    match Job.fork x ready ((List.range (ndNsucc d - 1)).map fun i => ndSucc d (i + 1)) j with
    | some j => j
    | none => j.endAt stGraph 0 []

/-- Strands that stood ready while this group's node ran, in the cycle of its end too, start 32 + TD_P after its end (R328). -/
def State.wakeStrands (s : State) (j : Job) (d : List Word) : State :=
  let waits (x : Strand) : Bool := !x.running && x.ready ≤ j.ref && ndKind (s.nodeOf j x.node) == 0 && groupsMeet d (s.nodeOf j x.node)
  s.updJob j fun j => { j with strands := updWhere waits (fun x => { x with ready := j.ref + 32 + j.td }) j.strands }

/-- Everything staged by the tile in focus is published: its scratchpad, its overlays, and its group's vault and DRAM lines
(R207, R329). -/
def State.publishAll (s : State) : State :=
  let rs := s.tile.ct.regions.zipIdx.filter fun e => e.1.staged
  (rs.foldl (fun s e => s.publishRegion e.2 e.1) s).publish 256

/-- Published lines of one cycle in order of DVA: those listed from position `i` on (R406). -/
def Job.sortPublished (j : Job) (i : Nat) : Job :=
  let late := j.published.drop i
  let mine (n : Nat) : List (Nat × Nat × Vec) := (sortLines ((late.filter (·.1 == n)).map (·.2))).map fun l => (n, l)
  { j with published := j.published.take i ++ (uniq (late.map (·.1))).flatMap mine }

/-- DQCAP with HELD zero (R135). -/
def dqRelease (v : Word) : Word :=
  let x := v.toNat
  dqMake (dqCap x) (dqWide x) (dqHead x) (dqCount x) 0

/-- A tile after its node's end (R135, R282). -/
def Tile.endNode (t : Tile) : Tile :=
  { t with
    ct := { t.ct with
      run := .idle, strand := none, sq := { t.ct.sq with prePoint := some (t.c + 1) }, log := [], logPos := 0, logFull := false
      cx := { t.ct.cx with dqcap := dqRelease t.ct.cx.dqcap } }
    landing := [], drops := t.drops + t.landing.length, dets := [] }

/-- The utilisation counts of a committed attempt (R343). -/
def ImageSlot.tally (i : ImageSlot) (node : Nat) (ts : List Tile) : ImageSlot :=
  ts.foldl (fun i t =>
    let old := ((i.util.find? fun e => e.1 == node && e.2.1 == t.grank).map (·.2.2)).getD (List.replicate 6 0)
    let new := (old.zip t.ct.util.toList).map fun p => min (2 ^ 64 - 1) (p.1 + p.2)
    { i with util := (node, t.grank, new) :: i.util.filter fun e => !(e.1 == node && e.2.1 == t.grank) }) i

/-- Change an image slot. -/
def Hilum.onImage (h : Hilum) (n : Nat) (f : ImageSlot → ImageSlot) : Hilum :=
  if hn : n < 16 then { h with images := h.images.set n (f h.images[n]) hn } else h

/-- What a checkpoint holds of a tile (R334): the node-start snapshot where another node still runs, with no node on it. The scratchpad
share is copied where the generation counts it as dirty, `old` being what the generation holds of the tile (R385). -/
def Tile.savedAs (t : Tile) (dirty : Bool) (old : Option SavedTile) : SavedTile :=
  let k := t.ct
  let cx := if k.strand.isSome then k.snap else k.cx
  { ltid := t.ltid
    ct := { pid := k.pid, cx := cx, isize := k.isize, segn := k.segn, ssize := k.ssize, regions := k.regions, cimUser := k.cimUser }
    sp := match dirty, old with
      | false, some o => o.sp
      | _, _ => memMove t.sp.pub k.sbase (k.sbase + k.ssize * 1024) 0
    acc := if k.strand.isSome then k.snapAcc else t.acc
    imem := memMove t.imem (k.ibase * 1024) ((k.ibase + k.isize) * 1024) 0 }

/-- What a generation has to copy: the units published since it was last written, or everything where it holds none yet (R385). -/
def Job.mustCopy (j : Job) (u : CkUnit) : Bool :=
  match j.checkpoints[1]? with
  | some c => c.dirty.contains u
  | none => true

/-- The copy of a memory into a generation: bytes of the units that are dirty, beside the bytes it holds of the others. -/
def copyUnits (dirty : Nat → Bool) (now old : Mem) : Mem := memSetAll (now.filter fun c => dirty c.1) (old.filter fun c => !dirty c.1)

/-- Does an uncorrectable error strike the write of a generation: in a page or share that is copied (R385)? -/
def State.writeSpoiled (s : State) (j : Job) : Bool :=
  (j.dram.soft.any fun e => !e.shadow && e.bad && j.mustCopy (j.pageUnit (8 * e.word))) ||
  (j.vault.soft.any fun e => !e.shadow && e.bad && j.mustCopy (.vault (8 * e.word / 2 ^ 24))) ||
  s.tiles.any fun t => j.ltids.contains t.ltid && t.ct.isOf j.pid && j.mustCopy (.share t.ltid) &&
    t.sp.soft.any fun e => !e.shadow && e.bad && t.ct.sbase ≤ 8 * e.word && 8 * e.word < t.ct.sbase + t.ct.ssize * 1024

/-- A checkpoint generation is written in place of the older one (R385); pulses are withheld until it is complete (R334). -/
def State.checkpointAt (s : State) (pid node : Nat) : State :=
  match s.job? pid with
  | none => s
  | some j =>
    let old := j.checkpoints[1]?
    let tiles := j.ltids.filterMap fun l => (s.tiles.find? fun t => t.ltid == l).map fun t =>
      t.savedAs (j.mustCopy (.share l)) (old.bind fun c => c.tiles.find? fun v => v.ltid == l)
    let c : Checkpoint := {
      num := j.ckNum + 1, node := node, at_ := j.ref, complete := false, digest := j.digest, flagWord := j.flagWord, jcbs := j.jcbs
      strands := j.strands, starts := j.stats.map fun e => (e.node, e.starts), spoiled := s.writeSpoiled j, tiles := tiles
      batches := s.pod.batches.filter (·.isOf pid), incoming := s.pod.incoming.filter (·.isOf pid)
      dram := copyUnits (fun a => j.mustCopy (j.pageUnit a)) j.dram.pub ((old.map (·.dram)).getD [])
      vault := copyUnits (fun a => j.mustCopy (.vault (a / 2 ^ 24))) j.vault.pub ((old.map (·.vault)).getD []) }
    s.onJob pid fun j => { j with
      saving := true, ckNum := j.ckNum + 1, ckAsked := false, ckAt := none, replays := { j.replays with lastck := j.ckNum + 1 }
      checkpoints := c :: j.checkpoints.take 1 }

/-- Is the checkpoint that was asked for to be taken at the end of this node, `inst` of its starts being committed (R399)? Both placements of a
dual job take it at the same node end (R385): the first that ends a node which the other has still to end. -/
def State.askedHere (s : State) (j : Job) (node inst : Nat) : Bool :=
  j.ckAt == some (node, inst) || (j.ckAsked && (s.twinOf j).all fun k => k.starts node ≤ inst)

/-- An asked checkpoint is taken here: the other placement takes it at its end of the same node. -/
def State.askTwin (s : State) (j : Job) (node inst : Nat) : State :=
  match s.twinOf j with
  | some k => if j.ckAsked then s.updJob k fun k => { k with ckAsked := false, ckAt := some (node, inst) } else s
  | none => s

/-- NODE_END (R329): once every tile of the group has drained. -/
def execNodeEnd (pid n : Nat) (s : State) : Out :=
  match s.job? pid, (s.job? pid).bind (·.strand n) with
  | some j, some x =>
    let ts := s.strandTiles pid n
    if !x.running || ts.isEmpty || !ts.all (·.drained j) || s.halting j then .next s
    else
      let d := s.nodeOf j x.node
      let before := j.published.length
      let s := ts.foldl (fun (s : State) t => (s.focus fun u => u.ltid == t.ltid && u.ct.isOf pid).publishAll) s
      let cw := combine (ndCop d) (ts.filterMap (·.ct.condw))
      let flags := ts.foldl (fun f t => f ||| t.ct.flags) 0
      let s := s.onHilum (·.onImage j.imageNo (·.tally x.node ts))
      let s := s.mapTiles (fun t => t.ct.isOf pid && t.ct.strand == some n) Tile.endNode
      let s := s.onJob pid fun j =>
        let j := ((j.sortPublished before).absorb n x.node).commitNode x.node
        let j := { j with flagWord := j.flagWord ||| flags, vaultMarks := j.vaultMarks.filter (·.2 != n) }
        let j := if ndPost d then
            { j with jcbs := updWhere (fun b => b.2 == ndJcb d) (fun b => (b.1.post (ndSlot d) (ndRaise d) cw j.ref, b.2)) j.jcbs.zipIdx |>.map (·.1) }
          else j
        j.continue n d cw
      let s := match s.job? pid with
        | some j => s.wakeStrands j d
        | none => s
      let inst := j.starts x.node
      if s.askedHere j x.node inst then .next ((s.askTwin j x.node inst).checkpointAt pid x.node)
      else .next (if ndCkpt d then s.checkpointAt pid x.node else s)
  | _, _ => .next s

/-- The latest checkpoint that every placement of the job has complete (R385), and of a pod job the latest that its members have agreed on,
or that another member's rollback names (R425). -/
def State.commonNum (s : State) (j : Job) : Nat :=
  let nums (k : Job) : List Nat := (k.checkpoints.filter (·.complete)).map (·.num)
  let common := match s.twinOf j with
    | some k => (nums j).filter (nums k).contains
    | none => nums j
  (common.filter fun n => j.plan.isEmpty || n ≤ j.rollTo.getD j.podNum).foldl max 0

/-- CHECKPOINT_COMPLETE (R385): the write of a checkpoint ends: COMPLETE is set and delivery resumes; MIGRATE_OUT ends the job here (R402). An error leaves
COMPLETE clear, and the other generation is restored. A newer checkpoint to roll back to clears the count of rollbacks to one (R383). -/
def execCheckpointComplete (pid : Nat) (s : State) : Out :=
  match s.job? pid with
  | none => .next s
  | some j =>
    if !j.saving then .next s
    else if j.checkpoints.head?.any (·.spoiled) then .next (s.updJob j fun j => { j.askRollback 0 with saving := false })
    else
      let done (c : Checkpoint) : Checkpoint := if c.num = j.ckNum then { c with complete := true } else c
      let j' := { j with saving := false, checkpoints := j.checkpoints.map done }
      let n := s.commonNum j
      let s := s.updJob j fun _ => j'
      let s := if n < s.commonNum j' then s.onPlacements j' fun k => { k with rollbacks := 0 } else s
      .next (if j.migrate then s.finishJob j' stMigrated j'.ref 0 [] else s)

/-- The members of a pod job agree that a checkpoint is common (R425): the count of rollbacks to one begins anew (R383, R420). -/
def Job.agree (j : Job) (n : Nat) : Job :=
  if !j.plan.isEmpty && j.podNum < n && j.checkpoints.any (fun c => c.num == n && c.complete) then { j with podNum := n, rollbacks := 0 } else j

/-! ### Job start (R336, R341) -/

/-- The 64 blocks at job start (R331): producer slots bound in the image. -/
def startBlocks (im : Image) : List Jcb :=
  (List.range 64).map fun b =>
    let bound := im.nodes.foldl (fun (m : Word) d =>
      if ndKind d = 0 && ndPost d && ndJcb d = b then m ||| BitVec.ofNat 64 (2 ^ ndSlot d) else m) 0
    { expected := popCount 64 bound.toNat, bound := bound }

/-- The last complete checkpoint (R385). -/
def Job.lastCheckpoint (j : Job) : Option Checkpoint := j.checkpoints.find? (·.complete)

/-- The counts of the nodes after a rollback or a re-placement: committed starts as they stood at the checkpoint (R193); replays in a row
go on until the node commits (R382), and misses and translations too (R348, R355). -/
def statsBack (starts : List (Nat × Nat)) (st : List NodeStat) : List NodeStat :=
  (st.map fun e => { e with starts := ((starts.find? fun p => p.1 == e.node).map (·.2)).getD 0 }) ++
    (starts.filter fun p => !st.any fun e => e.node == p.1).map fun p => { node := p.1, starts := p.2 }

/-- The state that a rollback or a re-placement gives a job's walker and memories: from its last complete checkpoint, or for
checkpoint 0 its start state (R325, R383, R385). -/
def Job.restored (j : Job) (im : Image) : Job :=
  match j.lastCheckpoint with
  | some c =>
    { j with
      refs := threeOf c.at_, digest := c.digest, flagWord := c.flagWord, jcbs := c.jcbs, dram := { pub := c.dram }, vault := { pub := c.vault }
      published := [], vaultMarks := [], bars := [], stats := statsBack c.starts j.stats
      strands := c.strands.map fun x => { x with running := false, ready := max x.ready (c.at_ + 32 + j.td) } }
  | none =>
    { j with
      refs := threeOf 0, digest := digest256 [], flagWord := 0, jcbs := startBlocks im, dram := {}, published := [], vaultMarks := [], bars := []
      stats := statsBack [] j.stats
      strands := [{ num := 0, node := im.entry, ready := 32 + j.td, cw := 0 }] }

/-- The streams of failed ports run on their alternates from a restart (R424). -/
def Job.takeAlts (j : Job) : Job := { j with alts := uniq (j.altsNext ++ j.alts), altsNext := [] }

/-- The state with which a job's walker starts (R325, R341, R389). -/
def Job.begin (j : Job) (im : Image) (wcyc tick : Nat) : Job :=
  let k := { j.takeAlts with
    state := .running, startWcyc := if j.resuming && j.tick != 0 then j.startWcyc else wcyc, tick := tick, withheld := false, preempting := false
    preemptAt := none, resuming := false
    late := match j.startTick with
      | some t => j.late || (!j.resuming && t < tick)
      | none => j.late }
  if j.resuming then k.restored im
  else
    { k with
      refs := threeOf 0, digest := digest256 [], flagWord := 0, jcbs := startBlocks im
      strands := [{ num := 0, node := im.entry, ready := 32 + j.td, cw := 0 }] }

/-- Does every tile of the job hold its context in the active slot, with no switch under way? -/
def State.allActive (s : State) (j : Job) : Bool :=
  j.ltids.all fun l => match s.tiles.find? fun t => t.ltid == l with
    | some t => t.ct.isOf j.pid && t.switchLeft.isNone
    | none => false

/-- Is a loaded placement ready to start at this tick (R341)? -/
def State.startReady (s : State) (j : Job) : Bool :=
  j.state == .loaded && !j.aside && s.allActive j &&
    (match j.loadedAt with
      | some t => t < s.tick
      | none => false) &&
    match j.startTick with
    | some t => j.resuming || t ≤ s.tick
    | none => true

/-- Is a loaded job to start at this tick edge (R341)? Both placements of a dual job start at one tick (R344). -/
def State.startsNow (s : State) (j : Job) : Bool :=
  s.wcyc % Config.tickCycles == 0 && s.startReady j && match s.twinOf j with
    | some k => s.startReady k || (k.state == .running && k.tick == s.tick)
    | none => true

/-- The batches of a job's streams that were under way at its last complete checkpoint are under way again (DEDUCED, log 66). -/
def State.batchesBack (s : State) (j : Job) : State :=
  match j.lastCheckpoint with
  | some c => { s with pod := s.pod.withBatches j.pid c.at_ c.batches c.incoming }
  | none => { s with pod := s.pod.withBatches j.pid 0 [] [] }

/-- A loaded job starts: delivery begins with reference count 0 on every quad; a re-placed job goes on from its checkpoint (R341,
R389). -/
def State.beginJob (s : State) (j : Job) : State :=
  match s.imageOf j with
  | none => s
  | some im =>
    let j' := j.begin im s.wcyc s.tick
    let fresh := !j.resuming
    let start (t : Tile) : Tile :=
      { t with
        ct := { t.ct with now := j'.ref, lag := 0, run := .idle, finj := 0, finjDue := 0, finjPrev := none }
        acc := if fresh && t.ct.cimUser then [] else t.acc }
    ((s.batchesBack j).updJob j fun _ => j').mapTiles (fun t => t.ct.isOf j.pid) start

/-- JOB_START (R341). -/
def execJobStart (pid : Nat) (s : State) : Out :=
  match s.jobs.find? fun j => j.pid == pid && s.startsNow j && (j.plan.isEmpty || j.resuming) with
  | none => .next s
  | some j => .next (s.beginJob j)

end Sys2Proof.Machine
end

