-- ==== Sys2Proof/Machine/Traps.lean ====
section
/-!
DEFINITION. Halts, replays and handlers (09 R252-R263), silent errors (09 R268), share reloads (09 R269), and the replay summary (14
R381, R382; 11 R313).
-/
namespace Sys2Proof.Machine

/-! ### The group and its causes -/

/-- The causes detected on the group of a tile, with their tiles. -/
def State.groupDets (s : State) (t : Tile) : List (Tile × Det) :=
  (s.tiles.filter fun u => u.sameGroup t || u.ltid == t.ltid).flatMap fun u => u.dets.map fun d => (u, d)

/-- The first cycle in which a cause of the list is detected. -/
def firstDet (ds : List (Tile × Det)) : Option Nat :=
  ds.foldl (fun m e => match m with
    | none => some e.2.det
    | some n => some (min n e.2.det)) none

/-- Is some cause of a class among them? -/
def hasClass (c : CauseClass) (ds : List (Tile × Det)) : Bool := ds.any fun e => e.2.cls == c

/-- Is a cause one that ends the job because a handler raised it (R262)? -/
def Det.endsNested (d : Det) : Bool := d.nest && d.cls == .precise

/-- Is the halt of the group of the tile in focus due (R252, R256)? Not with a class S cause, which halts the partition, and
with a cause of a handler only for class R (R262). -/
def State.haltDue (s : State) : Bool :=
  let ds := s.groupDets s.tile
  match firstDet ds with
  | none => false
  | some d =>
    d + s.tile.groupDelay ≤ s.tile.c && !hasClass .silent ds && (hasClass .replay ds || !ds.any (·.2.endsNested))

/-- Has the group of the tile in focus to freeze: its halt has come, and what happens next waits for the end of the job (R252, R256, R262)? -/
def State.freezeDue (s : State) : Bool :=
  match firstDet (s.groupDets s.tile), s.tile.ct.strand with
  | some d, some n =>
    d + s.tile.groupDelay ≤ s.tile.c && !s.haltDue && (s.strandTiles s.tile.ct.pid n).any (·.ct.run != .halt none)
  | _, _ => false

/-- The tiles of a strand's group issue nothing more. -/
def State.freeze (s : State) (pid n : Nat) : State :=
  s.mapTiles (fun u => u.ct.isOf pid && u.ct.strand == some n) fun u => { u with ct := { u.ct with run := .halt none } }

/-- Was a disagreement of counts or a slip of a link among the causes (R310, R313)? -/
def Cause.ofGrid (c : Cause) : Bool := c == .drift || c == .channelTag

/-- The transfers, staged lines and marks of a group go with its attempt (R206, R283, R356). -/
def Job.dropAttempt (j : Job) (n halt : Nat) : Job :=
  { j.dropTransfers (fun x => x.strand == n && halt < x.t) with
    vault := j.vault.discard (·.2 == n), dram := j.dram.discard (·.2 == n), vaultMarks := j.vaultMarks.filter (·.2 != n)
    published := j.published.filter (·.1 != n), bars := j.bars.filter fun b => b.strand != n || b.due.isSome }

/-- Outside the tiles, what a halted attempt leaves: its waits are disarmed and its commons loads forgotten (R259, R373). -/
def State.forget (s : State) (pid n : Nat) : State :=
  let ls := (s.strandTiles pid n).map (·.ltid)
  let mine (r : CReq) : Bool := r.pid == pid && ls.contains r.ltid && r.kind != 5
  { s with
    arms := s.arms.filter fun a => !(a.pid == pid && ls.contains a.ltid)
    commons := s.commons.map fun c => { c with queue := updWhere mine (fun r => { r with missed := true }) c.queue } }

/-- The count of the replay summary that a cause raises (R381). -/
def Replays.count (r : Replays) (c : Cause) : Replays :=
  match c with
  | .drift => { r with ndrift := r.ndrift + 1 }
  | .channelTag => { r with ntag := r.ntag + 1 }
  | .missedPromise => { r with nmiss := r.nmiss + 1 }
  | .translation => { r with ntrans := r.ntrans + 1 }
  | _ => { r with nue := r.nue + 1 }

/-- The class R cause under which a replay counts: the one detected first, CHANNEL_TAG before another of the same cycle (R313). -/
def replayCause (ds : List (Tile × Det)) : Option Cause :=
  let rs := ds.filter fun e => e.2.cls == .replay
  match firstDet rs with
  | none => none
  | some d =>
    let now := rs.filter fun e => e.2.det == d
    if now.any fun e => e.2.cause == .channelTag then some .channelTag else (now.head?).map (·.2.cause)

/-- Count a replay of a node (R381, R382). -/
def Job.countReplay (j : Job) (node : Nat) (c : Cause) : Job :=
  let st := (j.stats.find? fun e => e.node == node).getD { node := node }
  { j with
    replays := j.replays.count c
    stats := { st with replays := st.replays + 1 } :: j.stats.filter fun e => e.node != node }

/-- Replays of a node in a row. -/
def Job.replaysOf (j : Job) (node : Nat) : Nat := ((j.stats.find? fun e => e.node == node).map (·.replays)).getD 0

/-- A partition's copy in a quad is set to reference − LAG, which stands at offset `off`; DRIFTS counts one that was adrift (R304, R310). -/
def Quad.realign (q : Quad) (pid : Nat) (off : Int) : Quad :=
  { q.setSkew pid off with drifts := if q.skewOf pid = off then q.drifts else min 255 (q.drifts + 1) }

/-- Realign the copies of a partition in the quads of a group, and re-centre the buffers of these quads and those that lead into them
(R301, R310). -/
def State.realign (s : State) (pid : Nat) (qs : List Nat) : State :=
  let off := s.refOff pid
  let s := qs.foldl (fun (s : State) q => if (s.quad q).skewOf pid = off then s else s.setQuad q ((s.quad q).realign pid off)) s
  s.recentre fun q d => qs.contains q || qs.contains (quadBeyond q d)

/-! ### The halt (R256) -/

/-- The stop point: the class P cause whose bundle issued earliest, t_b (R256). -/
def stopIssue (ds : List (Tile × Det)) : Option Nat :=
  (ds.filter fun e => e.2.cls == .precise).foldl (fun m e => match m with
    | none => some e.2.issue
    | some n => some (min n e.2.issue)) none

/-- The cause of a tile at the stop point. -/
def Tile.ownAt (t : Tile) (tb : Nat) : Option Det := t.dets.find? fun d => d.cls == .precise && d.issue == tb

/-- GCODE and GSRC: the tile of lowest GRANK with a cause at the stop point (R253). -/
def groupCause (ts : List Tile) (tb : Nat) : BitVec 8 × BitVec 15 :=
  let best := ts.foldl (fun (m : Option (Nat × Nat)) t => match t.ownAt tb, m with
    | none, m => m
    | some d, none => some (t.grank, d.cause.code)
    | some d, some b => if t.grank < b.1 then some (t.grank, d.cause.code) else some b) none
  match best with
  | none => (0, 0)
  | some b => (BitVec.ofNat 8 b.2, BitVec.ofNat 15 b.1)

/-- Rewind the group of strand `n` for a re-run at `s1`, with a stop point or none (R256). -/
def State.rewindGroup (s : State) (pid n s1 : Nat) (tb : Option Nat) (halt : Nat) : State :=
  let g := match tb with
    | some b => groupCause (s.strandTiles pid n) b
    | none => (0, 0)
  let s := s.forget pid n
  let back (t : Tile) : Tile :=
    let stop := tb.map fun b => ({ at_ := s1 + (b - t.ct.s0), own := t.ownAt b, gcode := g.1, gsrc := g.2 } : Stop)
    let u := t.rewind s1
    { u with ct := { u.ct with stop := stop } }
  (s.mapTiles (fun t => t.ct.isOf pid && t.ct.strand == some n) back).onJob pid (·.dropAttempt n halt)

/-- GROUP_HALT (R256, R382): a replay for class R, a rewind to the stop point for class P; a full log, or a seventeenth replay
in a row, asks for a rollback instead. Where the job is to end for a cause, the group only stops. -/
def execGroupHalt (s : State) : Out :=
  let t := s.tile
  let ds := s.groupDets t
  match firstDet ds, t.ct.strand, s.myJob with
  | some d, some n, some j =>
    if !s.haltDue then .next (if s.freezeDue then s.freeze t.ct.pid n else s)
    else
      let pid := t.ct.pid
      let s1 := d + t.groupDelay + 96
      let full := (s.strandTiles pid n).any fun u => u.ct.logFull || logCap ≤ u.ct.log.length
      let stop (s : State) : State :=
        s.mapTiles (fun u => u.ct.isOf pid && u.ct.strand == some n) fun u =>
          { u with ct := { u.ct with run := .halt none }, dets := [] }
      match replayCause ds with
      | some c =>
        if full || 16 ≤ j.replaysOf t.ct.node then .next ((stop s).onJob pid (·.askRollback (t.c - d)))
        else
          let s := s.onJob pid (·.countReplay t.ct.node c)
          let qs := uniq ((s.strandTiles pid n).map (·.quadIndex))
          let s := if ds.any (·.2.cause.ofGrid) then s.realign pid qs else s
          .next (s.rewindGroup pid n s1 none t.c)
      | none =>
        if full then .next ((stop s).onJob pid (·.askRollback (t.c - d)))
        else .next (s.rewindGroup pid n s1 (stopIssue ds) t.c)
  | _, _, _ => .next s

/-- NODE_RERUN_START (R256). -/
def execNodeRerunStart (s : State) : Out :=
  onTile (fun t => match t.ct.run with
    | .halt (some s1) => if s1 ≤ t.c then { t with ct := { t.ct with run := .issue } } else t
    | _ => t) s

/-! ### The stop and the handler (R260-R263) -/

/-- The sequencer with its next bundle found (R29). -/
def Tile.settlePc (t : Tile) : Tile :=
  match t.nextAddr with
  | some a => t.onSq ({ · with pc := a })
  | none => t

/-- Does the context have a handler (R260)? -/
def Tile.hasHandler (t : Tile) : Bool := t.word 0 != padWord

/-- The end of a job at a stop point without a handler, with the record of the tile that GSRC names (R254, R260). -/
def State.faultEnd (s : State) (j : Job) (st : Stop) : State :=
  let t := s.tile
  let u := ((s.groupOf t).find? fun u => u.grank == st.gsrc.toNat).getD t
  let own := (u.ct.stop.bind (·.own)).orElse fun _ => st.own
  let slot := (own.map (·.slot)).getD 0
  let val := (own.map (·.tval)).getD 0
  s.finishJob j (0x100 + st.gcode.toNat) t.c 0
    (trapRecord st.gcode.toNat u.ltid u.ct.node false slot u.settlePc.ct.sq.pc t.c val)

/-- TRAP_STOP (R256, R260, R261): the tile leaves execution at the charged bundle, or the job ends where it has no handler. -/
def execTrapStop (s : State) : Out :=
  let t := s.tile
  match t.ct.stop, s.myJob with
  | some st, some j =>
    if t.c < st.at_ then .next s
    else if t.hasHandler then
      let own := (st.own.map (·.cause)).any (· == .guardGranule)
      let u := t.settlePc.takeTrap st
      .next { s with tile := if own then { u with ct := { u.ct with guard := none } } else u }
    else .next (s.faultEnd j st)
  | _, _ => .next s

/-- HANDLER_ENTRY (R261). -/
def execHandlerEntry (s : State) : Out :=
  onTile (fun t => match t.ct.run with
    | .stopped e => if e ≤ t.c then t.enterHandler else t
    | _ => t) s

/-- Bank uses held over a stop are booked again, `n` cycles on (R232). -/
def State.rebook (s : State) (us : List BankUse) (n : Nat) : State :=
  if us.isEmpty then s else s.bookNow (us.map fun b => { b with due := b.due + n })

/-- CONTEXT_RESUME (R263). -/
def execContextResume (s : State) : Out :=
  let t := s.tile
  match t.ct.run with
  | .resume u =>
    let held : List BankUse := match t.ct.trap with
      | some sv => sv.banks
      | none => []
    if u ≤ t.c then .next ({ s with tile := t.returnTrap }.rebook held t.c) else .next s
  | _ => .next s

/-- The cause raised in a handler whose end is due on the tile in focus (R262): the first detected, of the lowest GRANK. -/
def State.handlerFault (s : State) : Option (Tile × Det) :=
  match s.myJob with
  | none => none
  | some j =>
    let ds := (s.groupDets s.tile).filter (·.2.endsNested)
    match firstDet ds with
    | none => none
    | some d =>
      if d + j.td ≤ s.tile.c && !hasClass .replay (s.groupDets s.tile) && !hasClass .silent (s.groupDets s.tile) then
        (ds.filter fun e => e.2.det == d).foldl (fun m e => match m with
          | none => some e
          | some b => if e.1.grank < b.1.grank then some e else some b) none
      else none

/-- HANDLER_FAULT_END (R262). -/
def execHandlerFaultEnd (s : State) : Out :=
  match s.handlerFault, s.myJob with
  | some (t, d), some j =>
    let rec_ := trapRecord d.cause.code t.ltid t.ct.node true d.slot d.addr d.issue d.tval
    .next (s.finishJob j (0x100 + d.cause.code) (d.det + j.td) 0 rec_)
  | _, _ => .next s

/-! ### Silent errors (R268) -/

/-- The physical position that serves a logical tile (R270, R386). -/
def State.positionOf (s : State) (ltid : Nat) : Nat := (s.quad (ltid / 4)).serve.getD (ltid % 4) (ltid % 4)

/-- The unit word of a tile, or of its quad (R268). -/
def State.unitWord (s : State) (ltid : Nat) (quad : Bool) (cause : Nat) : BitVec 32 :=
  BitVec.ofNat 32 (ltid / 4 * 5 + (if quad then 0 else s.positionOf ltid) + (if quad then 2 ^ 15 else 0) + cause * 2 ^ 16)

/-- The silent errors of a partition whose end is due. -/
def State.silentDue (s : State) (pid : Nat) : List (Tile × Det) :=
  match s.job? pid with
  | none => []
  | some j =>
    let ds := (s.tiles.filter fun t => t.ct.isOf pid).flatMap fun t => (t.dets.filter fun d => d.cls == .silent).map fun d => (t, d)
    if ds.any fun e => e.2.det + j.td ≤ e.1.c then ds else []

/-- SILENT_ERROR_KILL (R268): the unit is quarantined and the job ends KILLED. -/
def execSilentErrorKill (s : State) : Out :=
  let ds := s.silentDue s.tile.ct.pid
  match ds.foldl (fun (m : Option (Tile × Det)) e => match m with
      | none => some e
      | some b => if e.2.det < b.2.det then some e else some b) none, s.myJob with
  | some (t, d), some j =>
    let both := 2 ≤ (uniq ((ds.filter fun e => e.1.quadIndex == t.quadIndex).map (·.1.ltid))).length
    let u := s.unitWord t.ltid both d.cause.code
    let s := { s with retireAsk := s.retireAsk ++ [u] }
    .next (s.finishJob j stKilled (d.det + j.td) u.toNat [])
  | _, _ => .next s

/-! ### IMEM reload (R269) -/

/-- IMEM_SHARE_RELOAD (R269): the share of the tile in focus comes again from the program image. -/
def execImemShareReload (s : State) : Out :=
  let t := s.tile
  if !t.reloadAsk then .next s
  else
    match s.myJob.bind fun j => (s.imageOf j).map fun im => (j, im) with
    | none => .next s
    | some (j, im) =>
      let i := (j.ltids.findIdx? (· == t.ltid)).getD 0
      onTile (fun t => { t with
        imem := memPaste t.imem (t.ct.ibase * 1024) (t.ct.isize * 1024) (shareCode im i), reloadAsk := false }) s

end Sys2Proof.Machine
end

