-- ==== Sys2Proof/Machine/Switch.lean ====
section
/-!
DEFINITION. Pulse delivery (11 R307, R315), and pre-emption: delivery of a request, the switch at a pre-emption point, and the
switch back (09 R264-R267, 11 R306, R307, R310; 12 R340).
-/
namespace Sys2Proof.Machine

/-! ### Delivery (R307, R315) -/

/-- rev4 (R315). -/
def rev4 (n : Nat) : Nat := n % 2 * 8 + n / 2 % 2 * 4 + n / 4 % 2 * 2 + n / 8 % 2

/-- Are pulses of the partition not withheld (R307, R334, R383, R411)? -/
def State.pulses (s : State) (j : Job) : Bool :=
  j.state == .running && !j.withheld && !j.saving && !j.restart && !s.power.paused

/-- Does this cycle deliver a pulse to the partition: neither swallowed nor withheld (R315, R316)? -/
def State.delivers (s : State) (j : Job) : Bool := s.pulses j && j.thr ≤ rev4 (s.wcyc % 16)

/-- Does the cycle reach the active context of a tile? A quad without a clock receives none (R303). -/
def State.live (s : State) (t : Tile) : Bool :=
  t.ct.full && t.ct.run != .out && t.switchLeft.isNone && (s.quad t.quadIndex).src != 3 &&
    match s.job? t.ct.pid with
    | some j => s.delivers j
    | none => false

/-! ### The request (R266) -/

/-- A pre-emption request is delivered now. -/
def Job.preemptNow (j : Job) : Job := { j with preempting := true, preemptFrom := j.ref, preemptAt := none, preemptAsk := false }

/-- PREEMPT_DELIVERY (R266): from now on the walker starts no node of the partition. -/
def execPreemptDelivery (pid : Nat) (s : State) : Out :=
  .next (s.onJob pid fun j => if j.preemptAt.any (· ≤ j.ref) then j.preemptNow else j)

/-! ### Leaving at a pre-emption point (R39, R168, R266) -/

/-- Is the tile at a pre-emption point: no node runs on it, or a loop-back with PRE = 1 outside a handler has been taken and no bundle
has issued since (R169, R261)? A wait of the body's last bundle may still hold issue. -/
def Tile.atPoint (t : Tile) : Bool :=
  if t.ct.strand.isNone then t.ct.run == .idle && t.ct.sq.prePoint.all (· ≤ t.c)
  else t.ct.sq.prePoint.any (· ≤ t.c) && !t.inHandler && match t.ct.run with
    | .issue | .wait .. | .bwait _ => true
    | _ => false

/-- The order in which effects still under way are done: by cycle, writes before vault reads. -/
def Pend.order (p : Pend) : Nat := 2 * p.due + if p.kind.isVaultRead then 1 else 0

/-- The pending effect that is not an engine's and comes first. -/
def Tile.firstPend (t : Tile) : Option Pend :=
  (t.pend.filter fun p => !p.isEngine).foldl (fun m p => match m with
    | none => some p
    | some q => if p.order < q.order then some p else some q) none

/-- The result whose source is read first of those still to be read. -/
def Tile.firstRead (t : Tile) : Option Result :=
  (t.ct.inflight.filter fun r => r.toRead r.rdAt).foldl (fun m r => match m with
    | none => some r
    | some q => if r.rdAt < q.rdAt then some r else some q) none

/-- One effect of the tile in focus is done. -/
def State.doPend (s : State) (p : Pend) : State :=
  let s := { s with tile := { s.tile with pend := s.tile.pend.erase p } }
  match p.kind with
  | .spWrite _ | .outWrite .sp _ _ => s.landSp p
  | .atomic .. => s.atomicWindow p
  | .barrier .. => s.barrierWindow p
  | .publish id => s.publish id
  | _ => s.vaultAccess p

/-- Everything but engine effects that is under way on the tile in focus is done, in its order. -/
def State.flush : Nat → State → State
  | 0, s => s
  | n + 1, s =>
    match s.tile.firstPend, s.tile.firstRead with
    | none, none => s
    | some p, none => (s.doPend p).flush n
    | none, some r => (s.readResult r).flush n
    | some p, some r => if p.due ≤ r.rdAt then (s.doPend p).flush n else (s.readResult r).flush n

/-- Enough for everything under way, and the writes that windows add. -/
def Tile.flushFuel (t : Tile) : Nat := 2 * t.pend.length + t.ct.inflight.length

/-- A context leaves: its results are captured, engine effects and beats are frozen, the slot is out (R39, R168, R232). -/
def Tile.switchOut (t : Tile) : Tile :=
  let n := t.c
  let k := t.ct.capture n
  { t with
    ct := { k with
      run := .out
      frozen := some {
        seq := k.sq, at_ := n, rotb := k.cx.rotb, run := k.run, after := k.after
        held := t.pend.map fun p => { p with due := p.due - n }
        banks := (t.banks.filter fun b => b.slot == 3 && n < b.due).map fun b => { b with due := b.due - n }
        beats := t.beats.map fun b => { b with at_ := b.at_ - n }
        landing := t.landing.map fun e => (e.1, n - e.2.1, e.2.2)
        cimBusy := t.cimBusy - n, denseBusy := t.denseBusy - n, pipBusy := t.pipBusy - n } }
    pend := [], banks := [], beats := [], landing := [], cimBusy := 0, denseBusy := 0, pipBusy := 0, decBusy := 0, dets := [] }

/-- Does a loaded job wait for this context to become active? -/
def State.awaits (s : State) (k : Context) : Bool :=
  k.full && s.jobs.any fun j => j.pid == k.pid && (j.state == .loaded || j.state == .held) && !j.aside

/-- Cycles of a switch (R266). -/
def switchCycles : Nat := 96

/-- The standby context becomes active, and the other standby. -/
def Tile.swap (t : Tile) (k : Context) : Tile :=
  { t with ct := k, standby := if t.ct.full then some t.ct else none, switchLeft := some switchCycles, dets := [], lost := false }

/-- A tile whose context is out takes an awaited standby context. -/
def State.bringIn (s : State) (t : Tile) : Tile :=
  match t.standby with
  | some k => if (t.ct.run == .out || !t.ct.full) && s.awaits k then t.swap k else t
  | none => t

/-- Every context of a partition. -/
def State.contextsOf (s : State) (pid : Nat) : List Context :=
  s.tiles.flatMap fun t => (t.ct :: t.standby.toList ++ t.streamed).filter (·.isOf pid)

/-- With its last context out, a partition that `ok` picks is pre-empted (R307). -/
def State.standStill (s : State) (pid : Nat) (ok : Job → Bool) : State :=
  if (s.contextsOf pid).all (·.run == .out) then
    s.onJob pid fun j => if j.preempting && ok j then { j with state := .preempted, preempting := false } else j
  else s

/-- With its last context out, the partition is pre-empted; that of a pod job only with the last of every member (R307, R422). -/
def State.allOut (s : State) (pid : Nat) : State := s.standStill pid (·.plan.isEmpty)

/-- The tiles that leave together with the one in focus: its group, or itself alone. -/
def State.leavers (s : State) : List Tile :=
  match s.tile.ct.strand with
  | some n => s.strandTiles s.tile.ct.pid n
  | none => [s.tile]

/-- Is the switch of the tile in focus due? A loop-back counts as a point when the request was delivered by the cycle of its bundle
(DEDUCED, log 31). -/
def State.switchDue (s : State) : Bool :=
  match s.myJob with
  | some j =>
    j.preempting && s.live s.tile &&
      s.leavers.all fun t => t.atPoint && (t.ct.strand.isNone || (t.dets.isEmpty && j.preemptFrom < j.ref))
  | none => false

/-- CONTEXT_SWITCH (R266): the group leaves at its point, unless what was under way raised a cause; an awaited standby context
comes in on its tiles. -/
def execContextSwitch (s : State) : Out :=
  if s.switchDue then
    let pid := s.tile.ct.pid
    let ls := s.leavers.map (·.ltid)
    let mine (t : Tile) : Bool := ls.contains t.ltid && t.ct.pid == pid
    let s1 := ls.foldl (fun (s : State) l =>
      let s := s.focus fun t => t.ltid == l
      s.flush s.tile.flushFuel) s
    if (s1.tiles.filter mine).any fun t => t.ct.strand.isSome && !t.dets.isEmpty then .next s1
    else
      let s2 := (s1.mapTiles mine Tile.switchOut).allOut pid
      .next (s2.mapTiles (fun t => ls.contains t.ltid) s2.bringIn)
  else .next { s with tile := s.bringIn s.tile }

/-! ### Coming back (R39, R168, R266, R307) -/

/-- The context of the tile resumes at its saved point; on a copy found adrift while it was out it replays its node instead
(R310). -/
def Tile.thaw (t : Tile) (sv : TrapSave) : Tile :=
  let n := t.c
  let t := { t with
    ct := { t.ct with
      sq := { t.restoreSeq sv.seq (n - sv.at_) with prePoint := none }
      frozen := none, yAt := some n, run := sv.run, after := sv.after, adrift := none
      cx := { t.ct.cx with rotb := sv.rotb } }
    pend := t.pend ++ sv.held.map fun (p : Pend) => { p with due := p.due + n }
    banks := t.banks ++ sv.banks.map fun (b : BankUse) => { b with due := b.due + n }
    beats := sv.beats.map fun (b : Beat) => { b with at_ := b.at_ + n }
    landing := sv.landing.map fun (e : Nat × Nat × Vec) => (e.1, n - e.2.1, e.2.2)
    cimBusy := sv.cimBusy + n, denseBusy := sv.denseBusy + n, pipBusy := sv.pipBusy + n }
  t

/-- The route table of the tile's node is in force again: each context slot has its own (R274). -/
def State.routeBack (s : State) : State :=
  let t := s.tile
  match t.ct.strand, (s.myJob.bind s.imageOf) with
  | some _, some im =>
    let g := t.ct.cx.groupid.toNat
    let i := bits g 29 24 * bits t.ct.cx.groupsize.toNat 6 0 + bits g 23 17
    s.setQuad t.quadIndex { s.quad t.quadIndex with route := (im.routes.getD t.ct.node []).getD i [] }
  | _, _ => s

/-- CONTEXT_SWITCH_IN (R266): the switch cycles are over; delivery goes on. -/
def execContextSwitchIn (s : State) : Out :=
  let t := s.tile
  if t.switchLeft ≠ some 0 then .next s
  else
    let t := { t with switchLeft := none }
    let u := match t.ct.frozen with
      | none => if t.ct.run == .out then { t with ct := { t.ct with run := .idle } } else t
      | some sv =>
        match t.ct.adrift, t.ct.strand with
        | some v, some _ => (t.thaw sv).raise .drift v.toNat 4
        | _, _ => t.thaw sv
    .next ({ s with tile := u }.routeBack.onJob t.ct.pid fun j => if j.endStatus.isNone then { j with withheld := false } else j)

/-- Do two placements share a quad? -/
def Job.overlaps (j k : Job) : Bool :=
  j.x < k.x + k.width && k.x < j.x + j.width && j.y < k.y + k.height && k.y < j.y + j.height

/-- Does the job stand out of the active slots, pre-empted or before its start? -/
def Job.isOut (j : Job) : Bool := j.state == .preempted || j.aside

/-- Jobs pre-empted and to be switched back, in class order, then in admission order (R340). -/
def State.waitingBack (s : State) : List Job :=
  (List.range 4).flatMap fun c => s.jobs.filter fun j => j.isOut && !j.heldOut && !j.replacing && j.cls == c

/-- The job may switch back: no active job on its quads, and none ahead of it in the order that needs them (R340). -/
def State.mayReturn (s : State) (j : Job) : Bool :=
  !(s.jobs.any fun k => k.active && !k.same j && k.overlaps j) &&
    !((s.waitingBack.takeWhile (!·.same j)).any (·.overlaps j))

/-- Is the job's context resident on the tile? -/
def Tile.holds (t : Tile) (pid : Nat) : Bool := t.ct.isOf pid || t.standby.any (·.isOf pid)

/-- A tile asks for a streamed context (R264). -/
def State.ask (s : State) (pid : Nat) (t : Tile) : Tile :=
  if t.want.isNone && t.streamed.any (·.isOf pid) then s.startMove { t with want := some pid, moveAt := none } else t

/-- A tile makes the context of a partition active: the one it holds there issues after `n` cycles, another takes the cycles of a
switch. -/
def Tile.activate (t : Tile) (pid n : Nat) : Tile :=
  if t.ct.isOf pid then { t with switchLeft := some n }
  else
    match t.standby with
    | some k => if k.isOf pid then t.swap k else t
    | none => t

/-- A pre-empted job that may switch back now, where `ok` says so. -/
def State.returner (s : State) (pid : Nat) (ok : Job → Bool) : Option Job := s.waitingBack.find? fun j => j.pid == pid && s.mayReturn j && ok j

/-- The partition of a pre-empted job switches in, once every tile holds its context resident; until then the streamed ones are brought in
(R264, R307). -/
def State.switchBack (s : State) (j : Job) : State :=
  let mine (t : Tile) : Bool := j.ltids.contains t.ltid
  if (s.tiles.filter mine).all (·.holds j.pid) then
    let n := if (s.tiles.filter mine).all (·.ct.isOf j.pid) then 0 else switchCycles
    let s := s.mapTiles mine (·.activate j.pid n)
    (s.updJob j fun j => if j.aside then { j with aside := false }
      else { j with state := .running, withheld := true, preempting := false, preemptAt := none }).runAdmission
  else s.mapTiles mine (s.ask j.pid)

/-- PARTITION_SWITCH_IN (R307; DEDUCED, log 32): once every tile holds its context resident, delivery is arranged on all of them in one cycle. A
pod job's tiles get their contexts here, and it comes back when every member does (R422). -/
def execPartitionSwitchIn (pid : Nat) (s : State) : Out :=
  let here (j : Job) : Bool := j.plan.isEmpty || (s.tiles.filter fun t => j.ltids.contains t.ltid).any (!·.holds pid)
  .next (match s.returner pid here with
    | some j => s.switchBack j
    | none => s)

/-- DUAL_COMPARE (R344): equal digests commit placement 0's pages with the status of the job; else nothing is committed. -/
def execDualCompare (jobid : Word) (s : State) : Out :=
  match s.jobs.find? fun j => j.jobid == jobid && j.place == 0 && j.endStatus.isSome with
  | none => .next s
  | some a =>
    match s.twinOf a with
    | none => .next s
    | some b =>
      match a.endStatus, b.endStatus with
      | some st, some _ =>
        if a.digest = b.digest then
          let swap (x : Job) : Job := { x with kept := [], keptDram := {} }
          .next ((s.closeDual a b st (max a.ref b.ref) 0 []).updJob { a with state := .ended } swap).runAdmission
        else .next ((s.closeDual a b stDiverged (max a.ref b.ref) 0 []).updJob { a with state := .ended } Job.dropShadows).runAdmission
      | _, _ => .next s

end Sys2Proof.Machine
end

