-- ==== Sys2Proof/Machine/Errors.lean ====
section
/-!
DEFINITION. Retirement, re-placement and rollback (14 R382-R390; 11 R303, R311; 13 R349; 10 R283; 09 R269), and the soft errors that
lead there.
-/
namespace Sys2Proof.Machine

/-! ### Oscillators (R303, R311) -/

/-- Entries of the map: one for each quad (R386). -/
def mapEntries : Nat := Config.quadCols * Config.quadRows

/-- A job is to leave its placement (R388): its groups halt at d + TD_P, and its pairs are broken. One that delivers nothing
leaves at once. -/
def State.vacate (s : State) (j : Job) : Job :=
  let at_ := if s.pulses j then j.ref + j.td else j.ref
  { j with replacing := true, rolling := some at_, breakAsk := j.breakAsk || j.started, saving := false }

/-- Cut out the oscillator of a quad (R303): a bypass from the west neighbour, or from the east one in column 0. A quad left
without a source has no clock, and is unavailable. -/
def State.cutOscillator (s : State) (q : Nat) : State :=
  let clock (s : State) (n src : Nat) : State :=
    let e := s.quad n
    s.setQuad n { e with src := src, state := if src = 3 then max 1 e.state else e.state }
  let west := q % Config.quadCols ≠ 0
  let source := if west then q - 1 else q + 1
  let src := if (s.quad source).src ≠ 0 then 3 else if west then 1 else 2
  let s := clock (s.setQuad q { s.quad q with fused := true }) q src
  let dead (s : State) (n via : Nat) : State := if (s.quad n).src = via then clock s n 3 else s
  let s := if q % Config.quadCols + 1 < Config.quadCols then dead s (q + 1) 1 else s
  if q % Config.quadCols = 1 then dead s (q - 1) 2 else s

/-- Has the oscillator of a quad been found adrift so often that its retirement cuts it out (R311)? -/
def Quad.driftedOut (q : Quad) : Bool := 3 ≤ q.found.length

/-- The quads that have no clock once the oscillator of a quad is cut out. -/
def State.unclocked (s : State) (q : Nat) : List Nat :=
  ((s.cutOscillator q).quads.filter fun e => e.2.src == 3 && (s.quad e.1).src != 3).map (·.1)

/-! ### Retirement (R387, R388) -/

/-- The jobs that a unit's retirement affects: those with a context on the tile or quad, or a share in it (R387), and those on a quad that
loses its clock with it (R303). A spare that serves no tile affects none. -/
def State.affected (s : State) (u : BitVec 32) : List Job :=
  let q := unitQuad u
  let p := u.toNat % 2 ^ 15 % 5
  let qs := q :: (if u.getLsbD 15 && (s.quad q).driftedOut then s.unclocked q else [])
  if u.getLsbD 15 || (s.quad q).serve.contains p then
    s.jobs.filter fun j => qs.any fun q => j.holdsQuad (q % Config.quadCols) (q / Config.quadCols)
  else []

/-- rebuild(u) (R388). -/
def Quad.rebuild (q : Quad) (u : BitVec 32) : Quad :=
  let p := u.toNat % 2 ^ 15 % 5
  if u.getLsbD 15 then { q with state := if bits u.toNat 23 16 = 0 then 1 else 2 }
  else
    let q' := { q with quar := q.quar ||| BitVec.ofNat 5 (2 ^ p) }
    match q.serve.findIdx? (· == p) with
    | none => q'
    | some t =>
      if !q'.quar.getLsbD 4 && !q.serve.contains 4 then { q' with serve := q.serve.set t 4 }
      else { q' with state := 1 }

/-- Beacons within which three finds retire an oscillator (R311). -/
def driftSpan : Nat := 2 ^ 20

/-- The entry of a quad is written to the map store and to every router's copy, and stands in them without an error (R388). -/
def State.writeEntry (s : State) (q : Nat) : State :=
  let others (l : List (Nat × List (BitVec 6))) : List (Nat × List (BitVec 6)) := l.filter (·.1 != q)
  { s with
    storeErr := others s.storeErr
    quads := s.quads.map fun e => (e.1, { e.2 with copyErr := others e.2.copyErr }) }

/-- The retirement of a unit that waits for it (R387, R388): first every affected job is asked to leave; with none left the map is rebuilt, and admission
runs. -/
def State.retire (s : State) (unit : BitVec 32) : State :=
  if !s.retireAsk.contains unit then s
  else
    match s.affected unit with
    | [] =>
      let q := unitQuad unit
      let old := s.quad q
      let s := (s.setQuad q { old.rebuild unit with found := [] }).writeEntry q
      let s := if unit.getLsbD 15 && old.driftedOut then s.cutOscillator q else s
      let hit (t : Tile) : Bool := t.ltid / 4 == q && (unit.getLsbD 15 || old.serve.getD (t.ltid % 4) 5 == unit.toNat % 2 ^ 15 % 5)
      let s := s.mapTiles hit fun t => { ltid := t.ltid }
      { s with retireAsk := s.retireAsk.filter (· != unit) }.runAdmission
    | js =>
      { s with jobs := updWhere (fun k => !k.replacing && js.any fun j => k.same j && k.placed) s.vacate s.jobs }

/-- UNIT_RETIREMENT (R387, R388): of a unit that waits for it; or the boot in progress learns what its tests find (R409). -/
def execUnitRetirement (found : UnitFound) (s : State) : Out :=
  match found with
  | .unit u => .next (s.retire u)
  | .tests b => .next (if s.hilum.booting then s.onHilum fun h => { h with test := b } else s)

/-! ### Re-placement (R389) -/

/-- A job as it leaves its placement: it waits, to resume from its last complete checkpoint where it had started. -/
def Job.leave (j : Job) : Job :=
  let ran := j.started
  { j with
    state := .waiting, hold := j.state == .held || j.heldOut || (j.state == .waiting && j.hold), heldOut := false
    aside := false, preemptAsk := false, resuming := j.resuming || ran, windows := [], bars := [], vault := {}, vaultMarks := [], strands := []
    ending := none, rolling := none, restart := false, saving := false, withheld := false, preempting := false, preemptAt := none
    endStatus := none, published := [], thr := 0, thrNext := none, rollbacks := if ran then j.rollbacks + 1 else j.rollbacks
    replays := { j.replays with nretire := j.replays.nretire + 1, nroll := if ran then j.replays.nroll + 1 else j.replays.nroll } }

/-- Checkpoints newer than the one that a rollback takes are gone, and the next is numbered after it. -/
def Job.onlyTo (j : Job) (n : Nat) : Job :=
  { j with
    checkpoints := j.checkpoints.filter fun c => c.num ≤ n && c.complete, ckNum := n, podNum := min j.podNum n, rollTo := none
    ckAsked := j.ckAsked || j.ckAt.isSome, ckAt := none }

/-- The placements of a job that go together: both of a dual job. -/
def State.placementsOf (s : State) (j : Job) : List Job := j :: (s.twinOf j).toList

/-- Has a halt that was asked for come (R383)? A job from which pulses are withheld has halted; one that only swallows some has not. -/
def State.halted (s : State) (j : Job) : Bool :=
  match j.rolling with
  | some r => r ≤ j.ref || !s.pulses j
  | none => false

/-- The job that leaves with this id. -/
def State.leaver (s : State) (jobid : Word) : Option Job :=
  s.jobs.find? fun j => j.jobid == jobid && j.replacing && j.placed && s.halted j

/-- Rollbacks to one checkpoint (R383): the next ends the job. -/
def rollbackCap : Nat := 3

/-- Put a job at the head of its class queue (R389). -/
def State.requeue (s : State) (j : Job) : State :=
  let c : Fin 4 := Fin.ofNat 4 j.cls
  (s.onPlacements j fun k => { k with since := s.tick }).setQueue c (j.serial :: s.hilum.admission[c])

/-- JOB_REPLACEMENT (R388, R389): contexts and shares go, and the job heads its class queue. A fourth rollback to one checkpoint
ends it instead (R383). -/
def execJobReplacement (jobid : Word) (s : State) : Out :=
  match s.leaver jobid with
  | none => .next s
  | some j =>
    if j.started && rollbackCap ≤ j.rollbacks then .next (s.finishJob j stRollback (j.rolling.getD j.ref) 0 [])
    else
      let n := s.commonNum j
      let js := s.placementsOf j
      let s := js.foldl (fun (s : State) k =>
        ((if k.breakAsk then s.oweBreaks k else s).discard k).updJob k fun k => { (k.onlyTo n).leave with replacing := true, breakAsk := false }) s
      .next (s.requeue j)

/-! ### Rollback in place (R383, R385, R425) -/

/-- The context of a partition on a tile is restored, wherever it stands. FINJ and DIGEST are no part of a checkpoint (R192, R196, R198). -/
def Tile.restoreTo (t : Tile) (k : Context) (v : SavedShare) : Tile :=
  let as (o : Context) : Context :=
    { k with
      ibase := o.ibase, sbase := o.sbase, run := if o.run == .out then .out else .idle
      digest := o.digest, finj := o.finj, finjDue := o.finjDue, finjPrev := none }
  if t.ct.isOf k.pid then
    { t with
      ct := as t.ct, pend := [], banks := [], dets := [], post := [], late := [], beats := [], landing := []
      cimBusy := 0, denseBusy := 0, pipBusy := 0, decBusy := 0, lost := false, rollAsk := false, reloadAsk := false
      marks := [], lastUe := [], owed := [], engineOor := none }.putShare (as t.ct) v
  else
    match t.standby with
    | some o =>
      if o.isOf k.pid then { t with standby := some (as o) }.putShare (as o) v
      else { t with
        streamed := updWhere (·.isOf k.pid) as t.streamed
        saved := if t.streamed.any (·.isOf k.pid) then v :: t.saved.filter (·.pid != k.pid) else t.saved }
    | none => { t with
        streamed := updWhere (·.isOf k.pid) as t.streamed
        saved := if t.streamed.any (·.isOf k.pid) then v :: t.saved.filter (·.pid != k.pid) else t.saved }

/-- Every tile and memory of a placement is restored from its last complete checkpoint; delivery waits. -/
def State.rollBack (s : State) (j : Job) (n : Nat) (im : Image) : State :=
  let j := j.onlyTo n
  let back (j : Job) : Job :=
    { (j.restored im) with
      rolling := none, restart := true, endStatus := none, ending := none, windows := [], saving := false
      preemptAt := none, rollbacks := j.rollbacks + 1, replays := { j.replays with nroll := j.replays.nroll + 1 }
      withheld := j.withheld && j.endStatus.isNone }
  let j' := back { j with resuming := false }
  let s := { s with
    arms := s.arms.filter fun a => a.pid != j.pid
    commons := s.commons.map fun c => { c with queue := updWhere (fun r => r.pid == j.pid && r.kind != 5) (fun r => { r with missed := true }) c.queue } }
  let s := j.ltids.zipIdx.foldl (fun (s : State) e =>
    let kv := { j with resuming := true }.startOn im e.2 e.1
    s.mapTiles (fun t => t.ltid == e.1) (·.restoreTo { kv.1 with now := j'.ref } kv.2)) s
  (s.batchesBack j).updJob j fun _ => j'

/-- The job whose rollback in place is due. -/
def State.rollerOf (s : State) (pid : Nat) : Option Job :=
  s.jobs.find? fun j => j.pid == pid && (j.state == .running || j.state == .preempted) && !j.replacing && s.halted j

/-- Another member of a pod job rolls back to the common checkpoint `n`: so does this one (R425). -/
def Job.rollWith (j : Job) (n : Nat) : Job :=
  if !j.plan.isEmpty && (j.state == .running || j.state == .preempted) then { j.askRollback 0 with rollTo := some n } else j

/-- CHECKPOINT_ROLLBACK (R383): the halt that a rollback asked for has come: the last complete checkpoint is restored, under dual execution on both placements
(R385). The fourth in a row to one checkpoint ends the job. -/
def execCheckpointRollback (pid : Nat) (s : State) : Out :=
  match s.rollerOf pid with
  | none => .next s
  | some j =>
    match s.imageOf j with
    | none => .next s
    | some im =>
      if rollbackCap ≤ j.rollbacks then .next (s.finishJob j stRollback (j.rolling.getD j.ref) 0 [])
      else
        let n := s.commonNum j
        let prep (k : Job) : Job := if n = 0 then { k with vault := { pub := k.vaultStart im } } else k
        .next ((s.placementsOf j).foldl (fun (s : State) k => s.rollBack (prep k) n im) s)

/-- ROLLBACK_RESTART (R383): delivery goes on from the restored reference; every strand waits for AT + 32 + TD_P at least. -/
def execRollbackRestart (pid : Nat) (s : State) : Out :=
  let mine (j : Job) : Bool := j.pid == pid && (j.state == .running || j.state == .preempted) && j.restart
  .next { s with jobs := updWhere mine (fun j => { j.takeAlts with restart := false }) s.jobs }

/-! ### Soft errors (R269, R283, R349, R386) -/

/-- Toggle bits of one word in a list of struck words. -/
def strike (l : List (Nat × List (BitVec 6))) (w : Nat) (bs : List (BitVec 6)) : List (Nat × List (BitVec 6)) :=
  let old := ((l.find? fun e => e.1 == w).map (·.2)).getD []
  let new := toggleBits old bs
  let rest := l.filter (·.1 != w)
  if new.isEmpty then rest else (w, new) :: rest

/-- Where an error at address `a` of a space strikes: in the shadow copy of the staged region whose shadow storage holds `a`, if that
line is written, else in the published copy. -/
def Space.strikeAt (sp : Space) (rs : List Region) (space a : Nat) (bs : List (BitVec 6)) : Space :=
  match rs.find? fun r => r.staged && r.space == space && r.base + r.size ≤ a && a < r.base + 2 * r.size with
  | some r => if (sp.writer (a - r.size)).isSome then sp.strike ((a - r.size) / 8) true bs else sp
  | none => sp.strike (a / 8) false bs

/-- An error strikes a map word of an engine; a level-1 word, or with `l2` a word of the level-2 table that it points to (R347). -/
def State.strikeSram (s : State) (engine pid l1 : Nat) (l2 : Option Nat) (bs : List (BitVec 6)) : State :=
  let here (e : SramErr) : Bool := e.engine == engine && e.pid == pid && e.l1 == l1 && e.l2 == l2
  let bits := toggleBits (((s.sramErr.find? here).map (·.bits)).getD []) bs
  let rest := s.sramErr.filter (!here ·)
  { s with sramErr := if bits.isEmpty then rest else ⟨engine, pid, l1, l2, bits⟩ :: rest }

/-- The region table of a job's image. -/
def State.regionsOf (s : State) (pid : Nat) : List Region := (((s.job? pid).bind s.imageOf).map (·.regions)).getD []

/-- An uncorrectable error in replayable storage of a tile other than scratchpad (R269). -/
def Tile.ue (t : Tile) (key : Nat) : Tile := if t.ct.strand.isNone then t else t.ueAt key 4 t.c t.ct.sq.pc

/-- A corrected error is counted. -/
def Tile.correct (t : Tile) : Tile := { t with corrected := t.corrected + 1 }

/-- Keys under which words of a tile's other storage are told apart. -/
def keyRegister : Nat := 2 ^ 20
def keyAccumulator : Nat := 2 ^ 24
def keyImem : Nat := 2 ^ 28

/-- SOFT_ERROR (R269, R283, R347, R349, R386): bits of a word are inverted. Words of scratchpad, vault, commons, DRAM and the maps keep the
error until they are read, compared or written; the other storage of a tile is taken as read at once (DESIGN CHOICE, log 27). -/
def execSoftError (site : SoftSite) (bs : List (BitVec 6)) (s : State) : Out :=
  let n := (uniq bs).length
  let onT (l : Nat) (f : Tile → Tile) : Out := .next (s.mapTiles (fun t => t.ltid == l && t.ct.full) f)
  if n = 0 then .next s
  else
    match site with
    | .scratchpad l a => onT l fun t => if a < t.ct.ssize * 1024 then t.flipWord (t.ct.sbase + a) false bs else t
    | .spShadow l a =>
      onT l fun t => if a < t.ct.ssize * 1024 && (t.sp.writer (t.ct.sbase + a)).isSome then t.flipWord (t.ct.sbase + a) true bs else t
    | .register l i => onT l fun t => if n < 2 then t.correct else t.ue (keyRegister + i)
    | .accumulator l i => onT l fun t => if n < 2 then t.correct else t.ue (keyAccumulator + i)
    | .imem l a =>
      onT l fun t =>
        if n < 2 || (n < 3 && t.ct.codeEnd ≤ a) then t.correct
        else { t.ue (keyImem + a / 8) with reloadAsk := true }
    | .snapshot l => onT l fun t => if n < 2 then t.correct else { t with rollAsk := true }
    | .vault pid qc qr a => .next (s.onJob pid fun j => { j with vault := j.vault.strikeAt (s.regionsOf pid) 1 (a + qc * 2 ^ 24 + qr * 2 ^ 31) bs })
    | .commons cid a => .next (s.onCommons cid fun c => { c with soft := strike c.soft (a / 8) bs })
    | .dram pid a => .next (s.onJob pid fun j => { j with dram := j.dram.strikeAt (s.regionsOf pid) 2 a bs })
    | .mapCopy q e => .next (if q < mapEntries && e < mapEntries then s.setQuad q { s.quad q with copyErr := strike (s.quad q).copyErr e bs } else s)
    | .mapStore e => .next (if e < mapEntries then { s with storeErr := strike s.storeErr e bs } else s)
    | .mapSram engine pid l1 l2 => .next (if s.jobs.any fun j => j.pid == pid && j.mapSet then s.strikeSram engine pid l1 l2 bs else s)

end Sys2Proof.Machine
end

