-- ==== Sys2Proof/Machine/Clock.lean ====
section
/-!
DEFINITION. The oscillator grid and its counts (11 R299-R313, R316; 14 R386), beacons and drift, faults of copies and retiming buffers, and TICK
(16 R414).
-/
namespace Sys2Proof.Machine

/-! ### The grid -/

/-- Is there a quad beyond quad `q` in a direction: N, E, S, W? -/
def hasNeighbour (q dir : Nat) : Bool :=
  match dir with
  | 0 => q / Config.quadCols + 1 < Config.quadRows
  | 1 => q % Config.quadCols + 1 < Config.quadCols
  | 2 => 0 < q / Config.quadCols
  | _ => 0 < q % Config.quadCols

/-- The neighbours of a quad with their directions. -/
def neighbours (q : Nat) : List (Nat × Nat) :=
  ((List.range 4).filter (hasNeighbour q)).map fun d => (d, quadBeyond q d)

/-- Is the link a stitch crossing, between two fields (R297, R299)? -/
def isStitch (q dir : Nat) : Bool :=
  let n := quadBeyond q dir
  hasNeighbour q dir &&
    (q % Config.quadCols / 8 != n % Config.quadCols / 8 || q / Config.quadCols / 8 != n / Config.quadCols / 8)

/-- The THR that a quad holds for a job (R316). -/
def Quad.thrOf (q : Quad) (j : Job) : Nat := ((q.thrs.find? fun e => e.1 == j.pid).map (·.2)).getD j.thr

/-- COUNTER_COPY_FAULT (R305, R306, R316): a fault moves a quad's copy of a count, one copy of a reference, or the THR that a quad holds. -/
def execCounterCopyFault (quad : Nat) (site : CountSite) (delta : Int) (s : State) : Out :=
  let x := s.quad quad
  match site with
  | .wcyc => .next (s.setQuad quad { x with wskew := x.wskew + delta })
  | .dcyc pid => .next (s.setQuad quad (x.setSkew pid (x.skewOf pid + delta)))
  | .tick => .next (s.setQuad quad { x with tickSkew := x.tickSkew + delta })
  | .reference pid i => .next (s.onJob pid fun j => { j with refs := j.refs.set i (ofInt 64 (j.refs[i] + delta)) })
  | .throttle pid =>
    match s.job? pid with
    | some j => .next (s.setQuad quad { x with thrs := (pid, ofInt 4 (x.thrOf j + delta)) :: x.thrs.filter (·.1 != pid) })
    | none => .next s

/-- A beat that has not yet crossed a link takes a cycle longer once its buffer slips. -/
def Beat.slip (b : Beat) (q dir now : Nat) : Beat :=
  match b.via.findIdx? (· == (q, dir)) with
  | none => b
  | some i => if now + 2 * (b.via.length - 1 - i) < b.at_ then { b with at_ := b.at_ + 1 } else b

/-- RETIMING_BUFFER_SLIP (R301): by one beat; only stitch crossings have retiming buffers. -/
def execRetimingBufferSlip (quad dir : Nat) (s : State) : Out :=
  if isStitch quad dir then
    let q := s.quad quad
    let s := s.setQuad quad { q with slipped := Vector.ofFn fun i => if i.val = dir then q.slipped[i] + 1 else q.slipped[i] }
    .next (s.mapTiles (fun t => !t.beats.isEmpty) fun t => { t with beats := t.beats.map (·.slip quad dir t.c) })
  else .next s

/-! ### Beacons (R308, R309, R312) -/

/-- A throttle change whose beacon cycle has come (R316). -/
def Job.throttled (j : Job) (wcyc : Nat) : Job :=
  match j.thrNext with
  | some (n, w) => if w ≤ wcyc then { j with thr := n, thrFrom := w, thrNext := none } else j
  | none => j

/-- Throttle changes whose beacon cycle has come take effect: the new word has reached every quad (R316). -/
def State.throttle (s : State) : State :=
  let new (e : Nat × Nat) : Bool := s.jobs.any fun j => j.pid == e.1 && j.thrNext.any (·.2 ≤ s.wcyc)
  { s with
    jobs := s.jobs.map (·.throttled s.wcyc)
    quads := s.quads.map fun e => (e.1, { e.2 with thrs := e.2.thrs.filter (!new ·) }) }

/-- Can a comparison with this quad find something? -/
def Quad.off (q : Quad) : Bool := q.latchW != 0 || !q.latchC.isEmpty || q.latchK != 0 || q.slipped.toList.any (· != 0)

/-- The entry that every router compares with the map store at this beacon: one a beacon, in quad order (R386; DESIGN CHOICE, log 62). -/
def State.mapTurn (s : State) : Nat := s.wcyc / Config.beaconCycles % mapEntries

/-- The routers compare an entry of their copies with the map store (R386): up to two inverted bits are corrected and counted; a copy with
more retires its own quad, unless it is out already. An error of the store itself is explained by the store's code. -/
def State.compareMaps (s : State) : State :=
  let n := s.mapTurn
  let of (l : List (Nat × List (BitVec 6))) : List (BitVec 6) := ((l.find? fun e => e.1 == n).map (·.2)).getD []
  let fixed (l : List (Nat × List (BitVec 6))) : List (Nat × List (BitVec 6)) := l.filter fun e => e.1 != n || !eccCorrects e.2
  let hit := s.quads.filter fun e => !(of e.2.copyErr).isEmpty
  let bad := (hit.filter fun e => !eccCorrects (of e.2.copyErr) && e.2.state == 0).map fun e => BitVec.ofNat 32 (5 * e.1 + 2 ^ 15)
  let good := (hit.filter fun e => eccCorrects (of e.2.copyErr)).map (·.1) ++
    (if !(of s.storeErr).isEmpty && eccCorrects (of s.storeErr) then [n] else [])
  good.foldl (fun (s : State) q => s.onErrors (·.counts (.quad q))) { s with
    quads := s.quads.map fun e => (e.1, { e.2 with copyErr := fixed e.2.copyErr })
    storeErr := fixed s.storeErr
    retireAsk := s.retireAsk ++ bad.filter (!s.retireAsk.contains ·) }

/-- The partitions of a quad's occupied context slots (P0 and P1 of R308). -/
def State.occupied (s : State) (q : Nat) : List Nat :=
  uniq ((s.tiles.filter fun t => t.quadIndex == q).flatMap fun t => ((t.ct :: t.standby.toList).filter (·.full)).map (·.pid))

/-- BEACON (R308): a throttle change takes effect, CALIGN realigns, each quad latches its counts and sends its beacons, with the partitions
that its context slots hold in this cycle, and the routers compare their map copies (R386). Beacons between quads that agree with
everything are left out: they find nothing. -/
def execBeacon (s : State) : Out :=
  if s.beaconDone || s.wcyc % Config.beaconCycles ≠ 0 then .next s
  else
    let s := s.throttle.alignArmed.compareMaps
    let s : State := { s with quads := s.quads.map fun e => (e.1, e.2.latch) }
    let odd := (s.quads.filter (·.2.off)).map (·.1)
    let links := odd.flatMap fun q => (neighbours q).flatMap fun n => [(q, n.1), (n.2, (n.1 + 2) % 4)]
    .next { s with
      arrivals := uniq links, beaconSlots := (uniq (links.map fun l => quadBeyond l.1 l.2)).map fun q => (q, s.occupied q)
      beaconDone := true, driftDone := false }

/-- The partitions that the beacon of a quad on its way names (R308). -/
def State.named (s : State) (q : Nat) : List Nat := ((s.beaconSlots.find? fun e => e.1 == q).map (·.2)).getD []

/-- The latched count of a partition, as its offset. -/
def Quad.latchOf (q : Quad) (pid : Nat) : Int := ((q.latchC.find? fun e => e.1 == pid).map (·.2)).getD 0

/-- The skew of the TICK copy in the lead quad of the job on a quad (R306, R309). -/
def State.leadTick (s : State) (q : Nat) : Int :=
  match s.jobs.find? fun j => j.placed && j.holdsQuad (q % Config.quadCols) (q / Config.quadCols) with
  | some j => (s.quad (j.y * Config.quadCols + j.x)).tickSkew
  | none => 0

/-- What a beacon shows to the quad that receives it (R309): AT is the sender's count of the arrival, two cycles on, and a slipped buffer
brings it later. -/
def State.beaconShows (s : State) (quad dir : Nat) : List Finding :=
  let own := s.quad quad
  let from_ := quadBeyond quad dir
  let other := s.quad from_
  let slip : Int := other.slipOf ((dir + 2) % 4)
  (if own.latchW ≠ other.latchW then [⟨dir, 0, 0⟩] else []) ++
    ((s.occupied quad).filter fun p => (s.named from_).contains p && own.latchOf p != other.latchOf p).map (fun p => ⟨dir, 1, p⟩) ++
    (if (other.latchW - (own.wskew + slip)) % 16 ≠ 0 then [⟨dir, 2, 0⟩] else [])

/-- BEACON_ARRIVAL (R309): the quad compares what the neighbour in a direction has latched with its own; a TICK copy that differs takes
the lead quad's value. -/
def execBeaconArrival (quad dir : Nat) (s : State) : Out :=
  if !s.arrivals.contains (quad, dir) then .next s
  else
    let own := s.quad quad
    let own' := { own with
      findings := own.findings ++ s.beaconShows quad dir
      tickSkew := if own.latchK = (s.quad (quadBeyond quad dir)).latchK then own.tickSkew else s.leadTick quad }
    .next { s.setQuad quad own' with arrivals := s.arrivals.filter (· != (quad, dir)) }

/-! ### Drift (R310, R311) -/

/-- A quad found adrift or an end of a slipped link: KIND, link, and the difference. -/
structure Adrift where
  quad : Nat
  kind : Nat
  link : Nat
  diff : Int
  deriving DecidableEq, Repr

/-- TVAL of DRIFT, for a quad at partition-relative coordinates (R311). -/
def Adrift.tval (a : Adrift) (rel : Nat × Nat) : Nat :=
  rel.1 + rel.2 * 2 ^ 7 + a.kind * 2 ^ 13 + (if a.kind = 2 then a.link * 2 ^ 15 else ofInt 32 a.diff * 2 ^ 32)

/-- The value on which two or more neighbours agree against a quad's own (R310). -/
def State.outvoted (s : State) (q : Nat) : Option Int :=
  let vs := (neighbours q).map fun n => (s.quad n.2).latchW
  vs.find? fun v => v != (s.quad q).latchW && 2 ≤ (vs.filter (· == v)).length

/-- Quads with findings that `p` picks, and the neighbours they concern. -/
def State.pairsOf (s : State) (p : Finding → Bool) : List (Nat × Nat) :=
  s.quads.flatMap fun e => (e.2.findings.filter p).map fun f => (e.1, quadBeyond e.1 f.dir)

/-- WCYC copies adrift, with the value each is set to (R310). -/
def State.adriftW (s : State) : List (Nat × Int) :=
  let ps := s.pairsOf (·.kind == 0)
  let ends := uniq (ps.flatMap fun p => [p.1, p.2])
  let lost := ends.filterMap fun q => (s.outvoted q).map fun v => (q, v)
  let split := ps.flatMap fun p => if [p.1, p.2].any fun q => lost.any (·.1 == q) then [] else [p.1, p.2]
  lost ++ (uniq split).map fun q => (q, 0)

/-- The contexts of a partition that a tile holds, wherever they stand. -/
def Tile.contextsOf (t : Tile) (pid : Nat) : List Context := (t.ct :: t.standby.toList ++ t.streamed).filter (·.isOf pid)

/-- The strands whose nodes the contexts of a partition on a quad are in. -/
def State.strandsOn (s : State) (pid q : Nat) : List Nat :=
  (s.tiles.filter fun t => t.quadIndex == q).flatMap fun t => (t.contextsOf pid).filterMap (·.strand)

/-- Quads of the groups at the two ends of a DCYC disagreement of a partition whose count differs from the reference (R310). -/
def State.adriftC (s : State) (pid : Nat) : List Nat :=
  let ends := uniq ((s.pairsOf fun f => f.kind == 1 && f.pid == pid).flatMap fun p => [p.1, p.2])
  if ends.isEmpty then []
  else
    let qs := uniq (ends ++ s.tiles.map (·.quadIndex))
    qs.filter fun n => (s.quad n).skewOf pid != s.refOff pid &&
      (ends.contains n || ends.any fun q => (s.strandsOn pid q).any (s.strandsOn pid n).contains)

/-- Does a running node's route use the link out of a quad (R273)? -/
def State.routed (s : State) (q dir : Nat) : Bool :=
  (s.tiles.any fun t => t.quadIndex == q && t.ct.strand.isSome && t.ct.run != .out) &&
    (((s.quad q).route.drop (16 * dir)).take 16).any fun b => bit b.toNat 7

/-- Raise DRIFT on the node of a partition that runs on a quad. Where its own count was adrift (`own`) and it is switched out inside a
node, wherever the context stands, it replays that node when it comes back. -/
def Tile.drifted (t : Tile) (pid : Nat) (own : Bool) (v : Word) : Tile :=
  if t.ct.isOf pid && t.ct.strand.isSome && t.ct.run != .out then t.raise .drift v.toNat 4
  else if own then
    let mark (k : Context) : Context := if k.isOf pid && k.strand.isSome then { k with adrift := some v } else k
    { t with ct := mark t.ct, standby := t.standby.map mark, streamed := t.streamed.map mark }
  else t

/-- Does a node of the partition run on the quad? -/
def State.busy (s : State) (pid q : Nat) : Bool :=
  s.tiles.any fun t => t.quadIndex == q && t.ct.isOf pid && t.ct.strand.isSome && s.live t

/-- The first of the events that lies in a job's partition, in row-major order, as TVAL (R311). -/
def firstTval (j : Job) (es : List Adrift) : Word :=
  match j.quadsOf.findSome? fun p => (es.find? (·.quad == p.1)).map fun a => a.tval p.2 with
  | some v => BitVec.ofNat 64 v
  | none => 0

/-- A quad whose copies were found adrift now; the third find within 2^20 cycles retires its oscillator (R311). -/
def State.found (s : State) (q : Nat) : State :=
  let e := s.quad q
  let fs := s.wcyc :: e.found.filter fun w => s.wcyc < w + driftSpan
  let u : BitVec 32 := BitVec.ofNat 32 (5 * q + 2 ^ 15)
  let s := s.setQuad q { e with found := fs }
  if 3 ≤ fs.length && !s.retireAsk.contains u then { s with retireAsk := s.retireAsk ++ [u] } else s

/-- The events of a job, and the replays they ask for: DCYC copies of its own, and WCYC copies and slipped links of nodes that run there
(R310). -/
def State.driftJob (ws : List Adrift) (ls : List Adrift) (s : State) (j : Job) : State :=
  let cs := s.adriftC j.pid
  let es : List Adrift := cs.map (fun q => ⟨q, 0, 0, (s.quad q).skewOf j.pid - s.refOff j.pid⟩) ++ ws ++ ls
  let v := firstTval j es
  let hit := uniq (es.map (·.quad))
  let s := s.mapTiles (fun t => hit.contains t.quadIndex && t.ltid % 4 == 0 && j.ltids.contains t.ltid)
    fun t => t.drifted j.pid (cs.contains t.quadIndex) v
  s.realign j.pid (cs.filter (!s.busy j.pid ·))

/-- DRIFT (R310): disagreements are resolved; groups that run on adrift quads or on slipped routes are halted and replayed, everything
else is realigned at once. -/
def execDrift (s : State) : Out :=
  if s.driftDone then .next s
  else
    let ws := s.adriftW
    let links := s.quads.flatMap fun e => (e.2.findings.filter (·.kind == 2)).map fun f => (quadBeyond e.1 f.dir, (f.dir + 2) % 4)
    let used := links.filter fun l => s.routed l.1 l.2
    let wEs : List Adrift := ws.map fun e => ⟨e.1, 1, 0, (s.quad e.1).wskew - e.2⟩
    let lEs : List Adrift := used.flatMap fun l => [⟨l.1, 2, l.2, 0⟩, ⟨quadBeyond l.1 l.2, 2, (l.2 + 2) % 4, 0⟩]
    let js := s.jobs.filter fun j => j.started && j.placed
    let cs := js.flatMap fun j => s.adriftC j.pid
    let s := ws.foldl (fun (s : State) e =>
      let q := s.quad e.1
      s.setQuad e.1 { q with wskew := e.2, drifts := min 255 (q.drifts + 1) }) s
    let s := (uniq (cs ++ ws.map (·.1))).foldl State.found s
    let s := js.foldl (State.driftJob wEs lEs) s
    let idle := links.filter (!used.contains ·)
    let s := s.recentre fun q d => idle.contains (q, d)
    .next { s with quads := s.quads.map fun e => (e.1, { e.2 with findings := [] }), arrivals := [], driftDone := true }

/-! ### TICK (R414) -/

/-- TICK_EDGE (R414). -/
def execTickEdge (s : State) : Out :=
  if s.edge || s.wcyc % Config.tickCycles ≠ 0 then .next s
  else .next { s with tick := (s.tick + 1) % 2 ^ 64, edge := true }

/-- Most that a module steers its grid (R414). -/
def maxPpm : Int := 100

/-- PTP_MESSAGE (R414): every module of a pod but the grandmaster steers its grid, by at most 100 ppm; one that has just joined takes the TICK
of the pod's time base, the grandmaster's of this edge (DEDUCED, log 63). -/
def execPtpMessage (time : PtpTime) (s : State) : Out :=
  if s.pod.members.length < 2 || s.pod.grandmaster = s.pod.id then .next s
  else .next { s with
    tick := if s.pod.synced then s.tick else time.tick % 2 ^ 64
    pod := { s.pod with ppm := max (-maxPpm) (min maxPpm time.ppm), synced := true } }

end Sys2Proof.Machine
end

