-- ==== Sys2Proof/Machine/Power.lean ====
section
/-!
DEFINITION. Power, cooling and thermal limits (15 R410, R411; 11 R314, R316; 16 R422), and what a loss of power or a reset leaves (15
R409).
-/
namespace Sys2Proof.Machine

/-- Largest THR (R314). -/
def maxThr : Nat := 12

/-- The THR that a job will have once its changes have taken effect; of a pod job, what this member asks for (R422). -/
def Job.thrGoal (j : Job) : Nat := if j.plan.isEmpty then (j.thrNext.map (·.1)).getD j.thr else j.thrAsk

/-- The first beacon cycle at least `n` cycles from now (R316, R422). -/
def beaconAfter (wcyc n : Nat) : Nat := (wcyc + n + Config.beaconCycles - 1) / Config.beaconCycles * Config.beaconCycles

/-- Cycles from a decision to the beacon at which every quad applies it: in a pod job, from the request (R316, R422). -/
def thrLead (pod : Bool) : Nat := if pod then 4096 else 2048

/-- Set a job's THR from the beacon at which every quad applies it; a pod job's members have to agree on it first (R316, R422). -/
def Job.setThr (j : Job) (n wcyc : Nat) : Job :=
  if j.plan.isEmpty then { j with thrNext := some (n, beaconAfter wcyc (thrLead false)) } else { j with thrAsk := n, thrAskAt := some wcyc }

/-- The class whose running partitions take a step: the first of the list with a partition that can (R410). -/
def State.stepClass (s : State) (cs : List Nat) (can : Job → Bool) : Option Nat :=
  cs.find? fun c => s.jobs.any fun j => j.state == .running && j.cls == c && can j

/-- Change THR of the partitions of a class that can take the step. -/
def State.stepThr (s : State) (c : Nat) (can : Job → Bool) (f : Nat → Nat) : State :=
  { s with jobs := updWhere (fun j => j.state == .running && j.cls == c && can j) (fun j => j.setThr (f j.thrGoal) s.wcyc) s.jobs }

/-- Cycles of low power and temperature before THR is lowered (R410). -/
def coolCycles : Nat := 2 ^ 24

/-- Cycles over which power is averaged, each with one decision (R410). -/
def powerPeriod : Nat := 2 ^ 20

/-- POWER_DECISION (R410): the average power of the period that is over, in watts, and the temperature of the hottest quad. There is one
decision for a period. -/
def execPowerDecision (watts hottest : Nat) (s : State) : Out :=
  let since (c : Option Nat) (s : State) : State :=
    { s with power := { s.power with coolSince := c, decided := s.wcyc / powerPeriod } }
  if s.wcyc / powerPeriod ≤ s.power.decided then .next s
  else if 26000 < watts || 95 < hottest then
    let can (j : Job) : Bool := j.thrGoal < maxThr
    match s.stepClass [3, 2, 1, 0] can with
    | some c => .next (since none (s.stepThr c can (· + 1)))
    | none => .next (since none s)
  else if watts < 24000 && hottest < 90 then
    let start := s.power.coolSince.getD s.wcyc
    let can (j : Job) : Bool := 0 < j.thrGoal
    if s.wcyc < start + coolCycles then .next (since (some start) s)
    else
      match s.stepClass [0, 1, 2, 3] can with
      | some c => .next (since (some start) (s.stepThr c can (· - 1)))
      | none => .next (since (some start) s)
  else .next (since none s)

/-- THERMAL_PAUSE (R411): pulses are withheld from every partition. -/
def execThermalPause (s : State) : Out := .next { s with power := { s.power with paused := true } }

/-- THERMAL_RESUME (R411): delivery resumes on every partition in one cycle. -/
def execThermalResume (s : State) : Out := .next { s with power := { s.power with paused := false } }

/-- The placed jobs by partition id, the order in which ends of one cycle are entered (R407). -/
def State.byPid (s : State) : List Nat := (List.range 256).filter fun p => s.jobs.any fun j => j.placed && j.pid == p

/-- The end of a waiting record for heat (R411): one that waits to be placed again keeps its pages, as every ended job does (R401). -/
def State.thermalWaiter (c : Nat) (s : State) (n : Nat) : State :=
  match s.waiter c n with
  | none => s
  | some j =>
    let s := (if j.replacing then s.freeCommons j else s).endEntry j stThermal j.finalRef 0 []
    let mine (k : Job) : Bool := k.jobid == j.jobid && k.serial == j.serial && k.state == .waiting
    { s with jobs := (s.jobs.filter fun k => !mine k) ++ (if j.replacing then [j.retireOut] else []) }

/-- THERMAL_TIMEOUT (R411): after a pause of ten seconds every job ends with THERMAL, those that wait among them, and nothing is admitted. -/
def execThermalTimeout (s : State) : Out :=
  if !s.power.paused then .next s
  else
    let s := s.byPid.foldl (fun (s : State) p => match s.jobs.find? fun j => j.placed && j.pid == p with
      | some j => s.endJob j stThermal j.ref 0 []
      | none => s) s
    let s := (List.finRange 4).foldl (fun (s : State) c => (s.hilum.admission[c]).foldl (State.thermalWaiter c) s) s
    .next { s.onHilum fun h => { h with admission := Vector.replicate 4 [], stalls := Vector.replicate 4 0 } with
      power := { s.power with paused := false, hot := true } }

/-- THERMAL_ADMISSION_RESUME (R411): every quad is below 60 °C. -/
def execThermalAdmissionResume (s : State) : Out := .next { s with power := { s.power with hot := false } }.runAdmission

/-- What a boot finds of a quad in the fuse maps (R409): is its oscillator cut out? -/
def Quad.kept (q : Quad) : Quad := { fused := q.fused }

/-- The machine as its boot brings the grid to lock (R305, R409): nothing of a job is left, every memory is zeroed, ownership is UNOWNED and
WCYC 0. BOOTS, the fuse maps, and events still to come stay. -/
def State.cleared (s : State) : State :=
  { State.reset with
    quads := s.quads.map fun e => (e.1, e.2.kept)
    hilum := { State.reset.hilum with boots := s.hilum.boots, linkUp := s.hilum.linkUp }
    inbox := s.inbox, launches := s.launches }

/-- CARRIER_TRIP (R411): the carrier cuts power; all state is lost and no entry is written. -/
def execCarrierTrip (s : State) : Out :=
  .next { s.cleared with power := { on := false }, hilum := { s.cleared.hilum with linkUp := Vector.replicate 2 false } }

/-- POWER_GOOD (R409): the boot sequence starts. -/
def execPowerGood (s : State) : Out :=
  .next { s.cleared with hilum := { s.cleared.hilum with boots := s.hilum.boots + 1, linkUp := Vector.replicate 2 true } }

/-- MODULE_RESET (R392, R409): the boot sequence starts, and the module is UNOWNED. -/
def execModuleReset (s : State) : Out :=
  .next { s.cleared with hilum := { s.cleared.hilum with boots := s.hilum.boots + 1 } }

/-- D(0) of a queue (R407). -/
def chainStart (q boots : Nat) : List Byte := digest256 (ascii "CORTAL CHAIN" ++ bytesOf 1 q ++ bytesOf 8 boots)

/-! ### What the boot's tests write into the map (R299, R303, R386, R409) -/

/-- A retirement unit that names position `p` of quad `q`, or with `p` = 5 the quad as unavailable. -/
def unitOf (q p : Nat) : BitVec 32 := BitVec.ofNat 32 (if p < 5 then 5 * q + p else 5 * q + 2 ^ 15)

/-- The map entry of a quad is as a retirement of the unit leaves it (DESIGN CHOICE for boot tests, log 62). -/
def State.mapOut (s : State) (q p : Nat) : State := s.setQuad q ((s.quad q).rebuild (unitOf q p))

/-- A quad's LINKS with the link in a direction marked failed (R386). -/
def Quad.linkOut (q : Quad) (dir : Nat) : Quad := { q with links := q.links ||| BitVec.ofNat 4 (2 ^ dir) }

/-- A link out of a quad is marked failed, in the entries of the quads at its two ends (R299, R386). -/
def State.linkOut (s : State) (e : Nat × Nat) : State :=
  let s := s.setQuad e.1 ((s.quad e.1).linkOut e.2)
  let n := quadBeyond e.1 e.2
  s.setQuad n ((s.quad n).linkOut ((e.2 + 2) % 4))

/-- Physical lanes of a stitch crossing in each direction, of which 8 carry the logical lanes (R299). -/
def stitchLanes : Nat := 9

/-- The failed physical lanes of one direction of a crossing. -/
def Quad.lanesOut (q : Quad) (dir : Nat) : List Nat := (q.laneFail.filter fun e => e.1 == dir).map (·.2)

/-- The working physical lanes onto which the logical lanes 0 to 7 of a crossing are mapped, in order (R299). -/
def Quad.laneMap (q : Quad) (dir : Nat) : List Nat := ((List.range stitchLanes).filter fun l => !(q.lanesOut dir).contains l).take 8

/-- The failed lane of a stitch crossing is recorded; a crossing with two in one direction is marked failed (R299). -/
def State.laneOut (s : State) (e : Nat × Nat × Nat) : State :=
  if isStitch e.1 e.2.1 && e.2.2 < stitchLanes then
    let q := s.quad e.1
    let q := if q.laneFail.contains e.2 then q else { q with laneFail := q.laneFail ++ [e.2] }
    let s := s.setQuad e.1 q
    if 2 ≤ (q.lanesOut e.2.1).length then s.linkOut (e.1, e.2.1) else s
  else s

/-- Steps 2, 3 and 5 of the boot (R409): oscillators cut out, and what fails its test entered in the map. -/
def State.tested (s : State) (b : BootTest) : State :=
  let onQuads (l : List Nat) : List Nat := l.filter (· < mapEntries)
  let fused := onQuads (uniq (((s.quads.filter (·.2.fused)).map (·.1)) ++ b.oscillators))
  let s := fused.foldl State.cutOscillator s
  let s := (b.positions.filter fun e => e.1 < mapEntries && e.2 < 5).foldl (fun (s : State) e => s.mapOut e.1 e.2) s
  let s := (onQuads b.quads).foldl (fun (s : State) q => s.mapOut q 5) s
  let s := (b.links.filter fun e => e.1 < mapEntries && e.2 < 4 && hasNeighbour e.1 e.2).foldl State.linkOut s
  (b.lanes.filter fun e => e.1 < mapEntries && e.2.1 < 4).foldl State.laneOut s

/-! ### The forming of a pod (R412-R414) -/

/-- Pod ids there are (R412). -/
def podIds : Nat := 64

/-- Largest one-way delay of a link that is used (R413). -/
def maxDelay : Nat := 4096

/-- FL for the delays of a pod's links: the largest, as a multiple of 16, at least 16 (R413). -/
def flOf (delays : List Nat) : Nat := (delays.filter (· ≤ maxDelay)).foldl (fun m d => max m ((d + 15) / 16 * 16)) 16

/-- The pod ids of this module and the others reached (R412): those in a pod keep theirs, and the rest take the lowest free ones in
increasing order of serial; none beyond the 64th. -/
def podIdsOf (own : Word) (modules : List (Word × Option Nat)) : List (Word × Nat) :=
  let kept := modules.filterMap fun m => m.2.map fun i => (m.1, i)
  let free := (List.range podIds).filter fun i => !kept.any (·.2 == i)
  let new := uniq (own :: (modules.filter (·.2.isNone)).map (·.1))
  kept ++ new.filterMap fun w => (free[(new.filter fun v => v.toNat < w.toNat).length]?).map fun i => (w, i)

/-- The pod that the training at boot forms (R412-R414). A module that joins a pod takes its grandmaster, and its time base at the next
synchronisation. -/
def podFormed (own : Word) (b : BootTest) : Pod :=
  let ids := podIdsOf own b.modules
  let idOf (w : Word) : Option Nat := (ids.find? fun e => e.1 == w).map (·.2)
  match idOf own with
  | none => {}
  | some i =>
    let links := b.fabric.filter fun l => l.delay ≤ maxDelay && l.port < 32
    let olds := b.modules.filterMap (·.2)
    let master := if olds.isEmpty then (ids.map (·.2)).foldl min 63 else b.master.getD (olds.foldl min 63)
    { id := i, members := ids.map (·.2), grandmaster := master, synced := i == master
      fl := flOf (links.map (·.delay) ++ b.delays)
      ports := links.map fun l => (l.port, { peer := (idOf l.serial).map fun k => (k, l.peerPort) }) }

/-- BOOT_COMPLETE (R407, R409, R412): the map is as the fuse maps and the tests give it, the pod is formed, chains are set to D(0), and ports
are enabled. -/
def execBootComplete (s : State) : Out :=
  if !s.hilum.booting then .next s
  else
    let test := s.hilum.test
    let s := { s.tested test with pod := podFormed Config.serial test }
    let rings := s.hilum.queues.toList.zipIdx.map fun e => { e.1 with chain := chainStart e.2 s.hilum.boots, count := 0 }
    .next (s.onHilum fun h => { h with
      booting := false, test := {}, queues := Vector.ofFn fun i => rings.getD i.val {} })

end Sys2Proof.Machine
end

