-- ==== Sys2Proof/Machine/Hilum.lean ====
section
/-!
DEFINITION. Ports, ownership, rings and completion entries (15 R391-R398, R404).
-/
namespace Sys2Proof.Machine

/-! ### Port links (R392) -/

/-- Is a port's link up? -/
def Hilum.up (h : Hilum) (p : BitVec 1) : Bool := h.linkUp[portIx p]

/-- PORT_LINK_DOWN (R392): five seconds start. -/
def execPortLinkDown (port : BitVec 1) (s : State) : Out :=
  .next (s.onHilum fun h => { h with linkUp := h.linkUp.set (portIx port) false })

/-- PORT_LINK_UP (R392). -/
def execPortLinkUp (port : BitVec 1) (s : State) : Out :=
  .next (s.onHilum fun h => { h with linkUp := h.linkUp.set (portIx port) true })

/-- Without an owner no queue has a completion ring, and none is enabled (R397). -/
def Hilum.disown (h : Hilum) : Hilum :=
  { h with own := .unowned, queues := h.queues.map fun q => { q with caddr := 0, csize := 0, enabled := false } }

/-- LINK_DOWN_TIMEOUT (R392): the owner's link has been down for five seconds; counted. -/
def execLinkDownTimeout (s : State) : Out :=
  match s.hilum.own with
  | .owned p =>
    if s.hilum.up p then .next s
    else .next ((s.onHilum Hilum.disown).onErrors fun e => { e.counts (.link p.toNat) with linkDowns := e.linkDowns + 1 })
  | _ => .next s

/-- A pending HANDOVER completes with this status. -/
def State.endHandover (s : State) (status : Nat) : State :=
  match s.hilum.handover with
  | some c => (s.onHilum fun h => { h with handover := none }).reply c status
  | none => s

/-- HANDOVER_TIMEOUT (R392): ownership stays, and HANDOVER completes with TIMEOUT. -/
def execHandoverTimeout (s : State) : Out :=
  match s.hilum.own with
  | .pending p => .next ((s.onHilum fun h => { h with own := .owned p }).endHandover stTimeoutS)
  | _ => .next s

/-! ### Rings (R394-R397) -/

/-- Largest value of a 32-bit count. -/
def maxIgn : Nat := 2 ^ 32 - 1

/-- Slots of a ring (R395, R396). -/
def ringSlots : RingId → Nat
  | .queue _ => 256
  | .mgmt _ => 16

/-- A write of STAIL (R394, R395): an overrunning one is counted, else the maximum rule. -/
def Ring.writeStail (q : Ring) (slots v : Nat) : Ring :=
  if q.head + slots < v then { q with ovr := min maxIgn (q.ovr + 1) }
  else if q.stail < v then { q with stail := v }
  else if v < q.stail then { q with ignS := min maxIgn (q.ignS + 1) }
  else q

/-- STAIL_WRITE (R395). -/
def execStailWrite (ring : RingId) (v : Word) (s : State) : Out :=
  .next (s.onHilum (·.onRing ring (·.writeStail (ringSlots ring) v.toNat)))

/-- A write of CHEAD (R394, R396). -/
def Ring.writeChead (q : Ring) (v : Nat) : Ring :=
  if q.chead < v then { q with chead := v }
  else if v < q.chead then { q with ignC := min maxIgn (q.ignC + 1) }
  else q

/-- CHEAD_WRITE (R396). -/
def execCheadWrite (ring : RingId) (v : Word) (s : State) : Out :=
  .next (s.onHilum (·.onRing ring (·.writeChead v.toNat)))

/-- A legal value of MCRING (R396). -/
def mcringOk (v : Nat) : Bool := (bits v 3 0 == 0 || (4 ≤ bits v 3 0 && bits v 3 0 ≤ 8)) && bits v 11 4 == 0

/-- A write of MCRING: an ill-formed one is ignored and counted (R396). -/
def State.writeMcring (s : State) (port : BitVec 1) (v : Word) : State :=
  if mcringOk v.toNat then
    s.onHilum (·.onRing (.mgmt port) fun q => { q with
      mcring := v, caddr := v.toNat / 4096 * 4096, csize := if bits v.toNat 3 0 = 0 then 0 else 2 ^ bits v.toNat 3 0 })
  else s.onErrors fun e => { e with mcring := e.mcring + 1 }

/-- MCRING_WRITE (R396). -/
def execMcringWrite (port : BitVec 1) (v : Word) (s : State) : Out := .next (s.writeMcring port v)

/-- The slot that window position `w` of a block's SLOTS names: the block has room for 16 slots, so it shows the slots of the next 16
stream positions not yet consumed (DEDUCED, log 28). -/
def Ring.slotAt (q : Ring) (slots w : Nat) : Nat := (q.head + (w + 16 - q.head % 16) % 16) % slots

/-- A write of one word of a slot. -/
def Ring.writeSlot (q : Ring) (slot word : Nat) (v : Word) (port : BitVec 1) : Ring :=
  let old := ((q.slots.find? fun e => e.1 == slot).map (·.2)).getD (List.replicate 17 0)
  { q with slots := (slot, (old.set word v).set 16 (port.setWidth 64)) :: q.slots.filter (·.1 != slot) }

/-- A write inside a register block (R396). RO registers ignore it. -/
def State.blockWrite (s : State) (port : BitVec 1) (ring : RingId) (o : Nat) (v : Word) : State :=
  let on (f : Ring → Ring) : State := s.onHilum (·.onRing ring f)
  if 0x800 ≤ o then on fun q => q.writeSlot (q.slotAt (ringSlots ring) ((o - 0x800) / 128)) (o / 8 % 16) v port
  else if o = 0x000 then on (·.writeStail (ringSlots ring) v.toNat)
  else if o = 0x010 then on (·.writeChead v.toNat)
  else
    match ring with
    | .mgmt p => if o = 0x038 then s.writeMcring p v else s
    | .queue _ => s

/-- The word that a register block shows at an offset (R396). -/
def State.blockRead (s : State) (ring : RingId) (o : Nat) : Word :=
  let q := s.hilum.ring ring
  if 0x800 ≤ o then
    (((q.slots.find? fun e => e.1 == q.slotAt (ringSlots ring) ((o - 0x800) / 128)).map (·.2)).getD []).getD (o / 8 % 16) 0
  else
    match o with
    | 0x000 => BitVec.ofNat 64 q.stail
    | 0x008 => BitVec.ofNat 64 q.head
    | 0x010 => BitVec.ofNat 64 q.chead
    | 0x018 => BitVec.ofNat 64 q.ctail
    | 0x020 => BitVec.ofNat 64 (q.ignS + q.ignC * 2 ^ 32)
    | 0x028 => BitVec.ofNat 64 q.ovr
    | 0x030 => BitVec.ofNat 64 (q.cls + if q.enabled then 4 else 0)
    | 0x038 => q.mcring
    | _ => 0

/-- The ring whose block holds a BAR offset, and the offset in it (R396): queue blocks from 0, the port's own management block at 0x1_0000. -/
def blockOf (port : BitVec 1) (offset : BitVec 24) : Option (RingId × Nat) :=
  let o := offset.toNat / 8 * 8
  if o < 0x10000 then some (.queue (BitVec.ofNat 4 (o / 0x1000)), o % 0x1000)
  else if o < 0x11000 then some (.mgmt port, o - 0x10000)
  else none

/-- BAR_REGISTER_WRITE (R391, R396): a write of the value given, or without one a read, whose word the host gets. -/
def execBarRegisterWrite (port : BitVec 1) (offset : BitVec 24) (v : Option Word) (s : State) : Out :=
  match blockOf port offset, v with
  | some (r, o), some v => .next (s.blockWrite port r o v)
  | some (r, o), none => .next (s.onHilum fun h => { h with barData := s.blockRead r o })
  | none, _ => .next s

/-! ### Consumption (R395, R398) -/

/-- The slot of the next stream position, when the host has made it ready. -/
def State.nextSlot (s : State) (ring : RingId) : Option (List Word) :=
  let q := s.hilum.ring ring
  let on := match ring with
    | .queue _ => q.enabled
    | .mgmt _ => true
  if on && q.head < q.stail then some (((q.slots.find? fun e => e.1 == q.head % (ringSlots ring)).map (·.2)).getD (List.replicate 17 0)) else none

/-- SEQ of a slot agrees with its stream position (R395). -/
def seqAgrees (ws : List Word) (head : Nat) : Bool := bits (ws.getD 0 0).toNat 31 16 == head % 2 ^ 16

/-- The command of a slot. -/
def cmdOf (ring : RingId) (ws : List Word) (data : List Byte) (image : Option Image) : Cmd :=
  { port := match ring with
      | .mgmt p => p
      | .queue _ => (ws.getD 16 0).setWidth 1
    ring := ring, ctag := (ws.getD 0 0).extractLsb' 32 32, buf := ws.getD 1 0, params := (ws.drop 2).take 14, data := data, image := image }

/-- BAD_SEQ (R395): after 1 ms the position completes with BAD_SEQ and the firmware moves on. -/
def execBadSeq (ring : RingId) (s : State) : Out :=
  match s.nextSlot ring with
  | none => .next s
  | some ws =>
    if seqAgrees ws (s.hilum.ring ring).head then .next s
    else
      let s := s.onHilum (·.onRing ring fun q => { q with head := q.head + 1 })
      .next (s.reply (cmdOf ring ws [] none) stBadSeq)

/-! ### Completion entries (R397, R404) -/

/-- Is the end of a job due? Its count is reached, or pulses are withheld from it. -/
def State.endDue (s : State) (j : Job) : Bool :=
  match j.ending with
  | some e => j.placed && (e.1 ≤ j.ref || !s.pulses j)
  | none => false

/-- The job of a ring whose end comes next, by partition id (R407). -/
def State.nextEnd (s : State) (ring : RingId) : Option Job :=
  (s.jobs.filter fun j => s.endDue j && j.ring == ring).foldl (fun m j => match m with
    | none => some j
    | some k => if j.pid < k.pid then some j else some k) none

/-- May the ring take its next entry (R397)? -/
def Ring.room (q : Ring) : Bool := q.csize != 0 && q.ctail < q.chead + q.csize && !q.waiting.isEmpty

/-- Word 23 of entry `n` (R404). -/
def entryWord23 (n size : Nat) : Word := BitVec.ofNat 64 (n % 2 ^ 63 + (if n / size % 2 = 0 then 2 ^ 63 else 0))

/-- Bytes of a completion entry (R404). -/
def entryBytes : Nat := 192

/-- The first waiting entry goes to its slot of the completion ring: entry `n` to slot `n` mod size (R397). -/
def Ring.deliver (q : Ring) : Ring :=
  match q.waiting with
  | [] => q
  | e :: es =>
    if q.room then { q with
      waiting := es, ctail := q.ctail + 1
      written := (q.caddr + entryBytes * (q.ctail % q.csize), ⟨e.words ++ [entryWord23 q.ctail q.csize]⟩) :: q.written }
    else q

/-- The port and the vector of the interrupt that tells of a ring's entry: a queue's goes to the owner (R391; DEDUCED, log 65). -/
def Hilum.vectorOf (h : Hilum) (r : RingId) : Option (BitVec 1 × Nat) :=
  match r, h.own with
  | .mgmt p, _ => some (p, 16)
  | .queue q, .owned p => some (p, q.toNat)
  | .queue q, .pending p => some (p, q.toNat)
  | .queue _, .unowned => none

/-- A waiting entry is written to its ring, and the host interrupted (R391, R397). -/
def Hilum.deliver (h : Hilum) (r : RingId) : Hilum :=
  if (h.ring r).room then { h.onRing r Ring.deliver with irqs := (h.vectorOf r).toList ++ h.irqs } else h

/-- COMPLETION_ENTRY_WRITE (R397, R404): the entry of a job that ends is made, with its end; else a waiting entry is written. -/
def execCompletionEntryWrite (ring : RingId) (s : State) : Out :=
  match s.nextEnd ring with
  | some j =>
    match j.ending with
    | some (at_, st, unit, trap) => .next (s.finishJob j st at_ unit trap)
    | none => .next s
  | none => .next (s.onHilum (·.deliver ring))

end Sys2Proof.Machine
end

