-- ==== Sys2Proof/Machine/Commands.lean ====
section
/-!
DEFINITION. The commands (15 R392, R393, R396, R399-R403, R407, R408; 12 R331, R338, R343; 16 R412, R414) and their consumption from a
ring (15 R395, R398).
-/
namespace Sys2Proof.Machine

/-! ### Who may ask, and where (R393, R398, R409) -/

/-- Is the port the owner? -/
def Hilum.owner (h : Hilum) (p : BitVec 1) : Bool :=
  match h.own with
  | .owned q => p == q
  | .pending q => p == q
  | .unowned => false

/-- A command of a management ring: on another ring BAD_OPCODE, and while the module boots BUSY. -/
def mgmtCommand (c : Cmd) (f : State → State) (s : State) : Out :=
  match c.ring with
  | .queue _ => .next (s.reply c stBadOpcode)
  | .mgmt _ => .next (if s.hilum.booting then s.reply c stBusy else f s)

/-- A command of a submission queue, for the owner only. -/
def queueCommand (c : Cmd) (f : State → State) (s : State) : Out :=
  match c.ring with
  | .mgmt _ => .next (s.reply c stBadOpcode)
  | .queue _ =>
    .next (if s.hilum.booting then s.reply c stBusy else if !s.hilum.owner c.port then s.reply c stNotOwner else f s)

/-- A parameter word. -/
def par (c : Cmd) (i : Nat) : Word := c.params.getD i 0
/-- A parameter word as a cardinal. -/
def parN (c : Cmd) (i : Nat) : Nat := (par c i).toNat

/-- The bytes of a list of words. -/
def wordBytes (ws : List Word) : List Byte := ws.flatMap fun w => bytesOf 8 w.toNat

/-- A number as a word. -/
def wd (n : Nat) : Word := BitVec.ofNat 64 n

/-! ### Identity and attestation (R408) -/

/-- OWN (R408). -/
def Hilum.ownCode (h : Hilum) : Nat :=
  match h.own with
  | .unowned => 0
  | .owned p => 1 + p.toNat
  | .pending p => 3 + p.toNat

/-- IDENTIFY (R399, R409): part number, serial, boot count, ownership state, public key and certificate, in this order (DESIGN CHOICE, log 29). -/
def execIdentify (c : Cmd) (s : State) : Out :=
  match c.ring with
  | .queue _ => .next (s.reply c stBadOpcode)
  | .mgmt _ =>
    .next (s.reply c stOk 0 [] (ascii "CG-W72" ++ bytesOf 8 Config.serial.toNat ++ bytesOf 8 s.hilum.boots ++ bytesOf 8 s.hilum.ownCode ++
      Config.publicKey ++ Config.certificate))

/-- A map entry (R386). -/
def Quad.mapEntry (q : Quad) : Word :=
  wd (q.state + q.serve.getD 0 0 * 2 ^ 2 + q.serve.getD 1 1 * 2 ^ 5 + q.serve.getD 2 2 * 2 ^ 8 + q.serve.getD 3 3 * 2 ^ 11 + q.quar.toNat * 2 ^ 14
    + q.links.toNat * 2 ^ 19)

/-- A clock word (R304). -/
def Quad.clockWord (q : Quad) : Word := wd (q.src + (if q.fused then 4 else 0) + q.drifts * 2 ^ 3 + q.slips * 2 ^ 11)

/-- The first 103 words of the report (R408). -/
def State.report (s : State) (c : Cmd) : List Word :=
  let h := s.hilum
  let slots := h.images.toList.zipIdx.filter (·.1.verified)
  [wd (1 + c.port.toNat * 2 ^ 8 + h.ownCode * 2 ^ 9 + h.boots % 2 ^ 32 * 2 ^ 32)] ++ (c.params ++ List.replicate 4 0).take 4 ++ word4 Config.romHash ++
    word4 (digest256 (wordBytes ((List.range (Config.quadCols * Config.quadRows)).map fun q => (s.quad q).mapEntry))) ++
    word4 (digest256 (slots.flatMap fun e => bytesOf 1 e.2 ++ e.1.digest)) ++ [wd s.wcyc, wd s.tick] ++
    h.queues.toList.flatMap (fun q => word4 q.chain) ++ h.queues.toList.map (fun q => wd q.count) ++ word4 (digest256 Config.publicKey)

/-- ATTEST (R408): the report and its signature. -/
def execAttest (c : Cmd) (s : State) : Out :=
  mgmtCommand c (fun s =>
    let body := wordBytes (s.report c)
    s.reply c stOk 0 [] (body ++ Config.signature (shake256 body 64))) s

/-! ### Ownership (R392, R396) -/

/-- One entry of a queue table: CLASS and enable as the CLASS register has them, the ring's entry count in bits 63:32, and its host
address (DESIGN CHOICE, log 30). -/
structure TableRow where
  cls : Nat
  enabled : Bool
  size : Nat
  addr : Nat
  deriving DecidableEq, Repr

/-- The queue table read from host memory: sixteen pairs of words. -/
def tableOf (data : List Byte) : List TableRow :=
  (List.range 16).map fun q =>
    let w := ofBytes ((data.drop (16 * q)).take 8)
    { cls := bits w 1 0, enabled := bit w 2, size := bits w 63 32, addr := ofBytes ((data.drop (16 * q + 8)).take 8) }

/-- Entry counts that a completion ring may have (R396). -/
def ringSizeOk (n : Nat) : Bool := 16 ≤ n && n ≤ 65536 && 2 ^ Nat.log2 n == n

/-- Is a table good: a ring for each enabled queue, and an enabled queue for each class (R396)? -/
def tableOk (t : List TableRow) : Bool :=
  t.all (fun r => !r.enabled || ringSizeOk r.size) &&
    (List.range 4).all fun c => t.any fun r => r.enabled && r.cls == c

/-- Install a table (R396): only ring addresses, class bindings and enable bits change. A queue that is not enabled has its ring too. -/
def Hilum.install (h : Hilum) (t : List TableRow) : Hilum :=
  { h with queues := Vector.ofFn fun i => match t[i.val]? with
      | some r => { h.queues[i] with cls := r.cls, enabled := r.enabled, csize := if ringSizeOk r.size then r.size else 0, caddr := r.addr }
      | none => h.queues[i] }

/-- Is a good CLAIM of port 0 among the events still to be served in this cycle (R392)? -/
def State.claimsToo (s : State) : Bool :=
  s.inbox.any fun i => match i with
    | .claim c => c.ring == .mgmt 0 && tableOk (tableOf c.data)
    | .submissionConsume (.mgmt 0) data _ =>
      tableOk (tableOf data) && (s.nextSlot (.mgmt 0)).any fun ws =>
        seqAgrees ws (s.hilum.ring (.mgmt 0)).head && bits (ws.getD 0 0).toNat 15 0 == 3
    | _ => false

/-- CLAIM (R392): of two in one cycle, that of port 0 takes the module. -/
def execClaim (c : Cmd) (s : State) : Out :=
  mgmtCommand c (fun s =>
    match s.hilum.own with
    | .unowned =>
      if c.port = 1 && tableOk (tableOf c.data) && s.claimsToo then s.reply c stBadState
      else if tableOk (tableOf c.data) then
        (s.onHilum fun h => { h with own := .owned c.port }.install (tableOf c.data)).reply c stOk
      else s.reply c stBadRecord
    | .owned _ => s.reply c stBadState
    | .pending p => s.reply c (if p = c.port then stBadState else stNotOwner)) s

/-- HANDOVER (R392): a one-second timer starts, and the command completes when the handover ends. -/
def execHandover (c : Cmd) (s : State) : Out :=
  mgmtCommand c (fun s =>
    if !s.hilum.owner c.port then s.reply c stNotOwner
    else
      match s.hilum.own with
      | .owned p => s.onHilum fun h => { h with own := .pending p, handover := some c }
      | _ => s.reply c stBadState) s

/-- ACCEPT (R392): by the other port while a handover is pending. -/
def execAccept (c : Cmd) (s : State) : Out :=
  mgmtCommand c (fun s =>
    match s.hilum.own with
    | .pending p =>
      if p = c.port then s.reply c stBadState
      else if tableOk (tableOf c.data) then
        ((s.onHilum fun h => { h with own := .owned c.port }.install (tableOf c.data)).endHandover stOk).reply c stOk
      else s.reply c stBadRecord
    | _ => s.reply c (if s.hilum.owner c.port then stBadState else stNotOwner)) s

/-- RELEASE (R392): it cancels a pending handover, or gives up the module. -/
def execRelease (c : Cmd) (s : State) : Out :=
  mgmtCommand c (fun s =>
    if !s.hilum.owner c.port then s.reply c stNotOwner
    else
      match s.hilum.own with
      | .pending p => ((s.onHilum fun h => { h with own := .owned p }).endHandover stTimeoutS).reply c stOk
      | _ => (s.onHilum Hilum.disown).reply c stOk) s

/-! ### Queries (R399) -/

/-- The four words of a block (R331). -/
def Jcb.words (b : Jcb) : List Word :=
  [wd (b.expected + b.completed * 2 ^ 32), b.bound, b.posted, wd (b.late + if b.clamp then 2 ^ 16 else 0)]

/-- The age word of a class (R338). -/
def State.ageWord (s : State) (c : Fin 4) : Word :=
  let n := (s.hilum.admission[c]).length
  wd ((if n = 0 then 0 else (s.tick - s.hilum.headSince[c]) % 2 ^ 32) + min 65535 s.hilum.stalls[c] * 2 ^ 32 + min 65535 n * 2 ^ 48)

/-- The throttle word (R314). -/
def Job.throttleWord (j : Job) : Word := wd (j.thr + j.thrFrom / 1024 * 1024)

/-- A number for where a job stands (DESIGN CHOICE, log 29). -/
def JobState.code : JobState → Nat
  | .waiting => 0
  | .held => 1
  | .loaded => 2
  | .running => 3
  | .preempted => 4
  | .ended => 5

/-- QUERY_JOB (R399): state, partition id and origin, throttle word, blocks, age words. -/
def execQueryJob (c : Cmd) (s : State) : Out :=
  mgmtCommand c (fun s =>
    match s.jobOf (par c 0) with
    | none => s.reply c stBadJob
    | some j =>
      s.reply c stOk j.jobid [] (wordBytes ([wd (j.state.code + j.pid * 2 ^ 8 + j.x * 2 ^ 16 + j.y * 2 ^ 24), j.throttleWord] ++
        ((j.jcbs ++ List.replicate 64 ({} : Jcb)).take 64).flatMap Jcb.words ++ (List.finRange 4).map s.ageWord))) s

/-- A port of the fabric, as QUERY_MAP reports it (R412): peer pod id and port, bit 63 when there is one. -/
def Pod.portWord (p : Pod) (k : Nat) : Word :=
  match ((p.ports.find? fun e => e.1 == k).bind fun e => e.2.peer) with
  | some q => wd (2 ^ 63 + q.1 + q.2 * 2 ^ 8)
  | none => 0

/-- QUERY_MAP (R399, R412): map entry and clock word of each quad asked for, then the 32 fabric ports. -/
def execQueryMap (c : Cmd) (s : State) : Out :=
  mgmtCommand c (fun s =>
    if Config.quadCols * Config.quadRows < parN c 0 + parN c 1 then s.reply c stBadRecord
    else
      s.reply c stOk 0 [] (wordBytes (((List.range (parN c 1)).flatMap fun i =>
        [(s.quad (parN c 0 + i)).mapEntry, (s.quad (parN c 0 + i)).clockWord]) ++ (List.range 32).map s.pod.portWord))) s

/-- READ_DIGEST (R407): of a queue, D and n; with bit 63 of word 2 set, of the job in word 3, RD as of its last committed end. -/
def execReadDigest (c : Cmd) (s : State) : Out :=
  mgmtCommand c (fun s =>
    if bit (parN c 0) 63 then
      match s.jobOf (par c 1) with
      | some j => s.reply c stOk j.jobid j.digest
      | none => s.reply c stBadJob
    else if 16 ≤ parN c 0 then s.reply c stBadRecord
    else
      let q := s.hilum.ring (.queue (BitVec.ofNat 4 (parN c 0)))
      s.reply c stOk 0 q.chain (bytesOf 8 q.count)) s

/-- The image slot that a command names. -/
def Hilum.slot? (h : Hilum) (n : Nat) : Option ImageSlot := h.images.toList[n]?

/-- The utilisation table of a slot (R343): for each code node and GRANK its six counts, in an unverified slot all zero (R400). A slot
without an image gives one zero entry (DESIGN CHOICE, log 29). -/
def ImageSlot.utilTable (i : ImageSlot) : List (Nat × Nat × List Nat) :=
  match i.image with
  | none => [(0, 0, List.replicate 6 0)]
  | some im =>
    (im.nodes.zipIdx.filter fun d => ndKind d.1 == 0).flatMap fun d => (List.range (4 * ndGw d.1 * ndGh d.1)).map fun g =>
      let counts := if i.verified then (i.util.find? fun e => e.1 == d.2 && e.2.1 == g).map (·.2.2) else none
      (d.2, g, counts.getD (List.replicate 6 0))

/-- READ_UTIL (R343, R400). -/
def execReadUtil (c : Cmd) (s : State) : Out :=
  mgmtCommand c (fun s =>
    match s.hilum.slot? (parN c 0) with
    | none => s.reply c stBadRecord
    | some i =>
      s.reply c stOk 0 [] (wordBytes (i.utilTable.flatMap fun e => wd (e.1 + e.2.1 * 2 ^ 16) :: e.2.2.map wd))) s

/-- A unit as READ_ERRORS names it: its kind above its number (DESIGN CHOICE, log 29). -/
def ErrUnit.word : ErrUnit → Word
  | .quad n => wd n
  | .engine n => wd (n + 2 ^ 16)
  | .link n => wd (n + 2 ^ 17)

/-- Every count that this manual sends to READ_ERRORS, in the order of the fields (DESIGN CHOICE, log 29). -/
def State.errorWords (s : State) : List Word :=
  let e := s.hilum.errors
  [wd e.linkDowns, wd e.noreg, wd e.mcring, wd e.undelivered, wd e.units.length] ++ e.units.flatMap (fun u => [u.1.word, wd u.2]) ++ e.fabric.flatMap (fun f => [wd f.1, wd f.2]) ++
    s.tiles.flatMap (fun t => [wd t.ltid, wd t.corrected, wd t.drops]) ++
    s.quads.flatMap fun q => [wd q.1, q.2.clockWord]

/-- READ_ERRORS (R399). -/
def execReadErrors (c : Cmd) (s : State) : Out := mgmtCommand c (fun s => s.reply c stOk 0 [] (wordBytes s.errorWords)) s

/-! ### Images (R399, R400) -/

/-- Does a waiting, held, running or pre-empted job name the slot (R400)? -/
def State.slotBusy (s : State) (n : Nat) : Bool := s.jobs.any fun j => j.state != .ended && j.imageNo == n

/-- Longest image: 2 GiB (R400). -/
def maxImage : Nat := 2 ^ 31

/-- LOAD_IMAGE (R400). -/
def execLoadImage (c : Cmd) (s : State) : Out :=
  queueCommand c (fun s =>
    if 16 ≤ parN c 0 || parN c 2 = 0 || maxImage < parN c 2 || parN c 2 % 64 ≠ 0 then s.reply c stBadRecord
    else if s.slotBusy (parN c 0) then s.reply c stBusy
    else
      let d := digest256 c.data
      (s.onHilum (·.onImage (parN c 0) fun _ => { image := c.image, digest := d, verified := false, util := [] })).reply c stOk 0 d) s

/-- VERIFY_IMAGE (R399). -/
def execVerifyImage (c : Cmd) (s : State) : Out :=
  queueCommand c (fun s =>
    match s.hilum.slot? (parN c 0) with
    | none => s.reply c stBadRecord
    | some i =>
      if !i.digest.isEmpty && i.digest == wordBytes ((c.params.drop 1).take 4) then
        (s.onHilum (·.onImage (parN c 0) fun i => { i with verified := true })).reply c stOk
      else s.reply c stBadImage) s

/-! ### Jobs (R338, R399-R403) -/

/-- The words of the fabric plan that PARAM words 10 and 11 point to (R415). -/
def planOf (c : Cmd) : List Word := if parN c 9 = 0 then [] else wordsOf (c.data.length / 8) c.data

/-- The job of a launch record: `at_` the parameter at which the record begins. -/
def State.jobFrom (s : State) (c : Cmd) (at_ : Nat) (hold : Bool) : Job :=
  let r := (List.range 8).map fun i => par c (at_ + i)
  { jobid := r.getD 6 0, serial := s.launches, record := r, hold := hold, ctag := c.ctag, digest := digest256 []
    queue := match c.ring with
      | .queue q => q.toNat
      | .mgmt _ => 0 }

/-- Submit a new job: the command completes, and the record enters admission (R338). -/
def State.submit (s : State) (c : Cmd) (j : Job) : State :=
  (({ s with launches := s.launches + 1 }.reply c stOk j.jobid).enqueue j).runAdmission

/-- ADMIT (R338, R399): once loaded the job is held. -/
def execAdmit (c : Cmd) (s : State) : Out :=
  queueCommand c (fun s => s.submit c { s.jobFrom c 0 true with plan := planOf c }) s

/-- Release a held job, or one that PREEMPT holds out (R399). A job that this LAUNCH lets start ends with its CTAG (R431; DEDUCED, log 69). -/
def Job.release (j : Job) (tick : Nat) (ctag : BitVec 32) : Job :=
  match j.state with
  | .held => { j with state := .loaded, hold := false, loadedAt := some tick, ctag := ctag }
  | .waiting => { j with hold := false, ctag := ctag }
  | .preempted | .running => { j with heldOut := false }
  | _ => j

/-- May LAUNCH release the job? -/
def Job.releasable (j : Job) : Bool := j.state == .held || (j.state == .waiting && j.hold) || j.heldOut

/-- LAUNCH (R399, R402): a record is admitted and starts; with bit 63 of word 2 set, the job in word 3 is released. -/
def execLaunch (c : Cmd) (s : State) : Out :=
  queueCommand c (fun s =>
    if bit (parN c 0) 63 then
      match s.jobOf (par c 1) with
      | none => s.reply c stBadJob
      | some j =>
        if j.releasable then (s.onPlacements j (·.release s.tick c.ctag)).reply c stOk j.jobid else s.reply c stBadState j.jobid
    else s.submit c { s.jobFrom c 0 false with plan := planOf c }) s

/-- A waiting job leaves its queue. -/
def State.unqueue (s : State) (j : Job) : State :=
  let c : Fin 4 := Fin.ofNat 4 j.cls
  s.setQueue c (s.hilum.admission[c].erase j.serial)

/-- The halt of a placement for CANCEL: d + TD_P, or now where nothing is delivered (R401, R404). -/
def Job.cancelled (j : Job) : Job := { j.endAt stCancelled 0 [] with breakAsk := true, rolling := none, replacing := false }

/-- CANCEL of a job, by its state (R401). -/
def State.cancelJob (s : State) (j : Job) : State :=
  let gone (s : State) : State := { s with jobs := s.jobs.filter fun k => !(k.jobid == j.jobid && k.serial == j.serial) }
  match j.state with
  | .ended => (gone s).runAdmission
  | .waiting =>
    let s := s.endEntry j stCancelled j.finalRef 0 []
    (gone ((if j.replacing then s.freeCommons j else s).unqueue j)).runAdmission
  | .held | .loaded => (gone (s.endJob j stCancelled 0 0 [])).runAdmission
  | .running | .preempted => s.onPlacements j Job.cancelled

/-- CANCEL (R401). -/
def execCancel (c : Cmd) (s : State) : Out :=
  queueCommand c (fun s =>
    match s.jobOf (par c 0) with
    | none => s.reply c stBadJob
    | some j => (s.reply c stOk j.jobid).cancelJob j) s

/-- PREEMPT (R402): of a job of a class below the queue's own; it stays out until LAUNCH releases it. -/
def execPreempt (c : Cmd) (s : State) : Out :=
  queueCommand c (fun s =>
    match s.jobOf (par c 0) with
    | none => s.reply c stBadJob
    | some j =>
      if (j.state = .running ∨ j.state = .preempted) ∧ (s.hilum.ring c.ring).cls < j.cls then
        (s.onPlacements j fun k => { k.request with heldOut := true }).reply c stOk j.jobid
      else s.reply c stBadState j.jobid) s

/-- MIGRATE_OUT (R402): the job runs to its next checkpoint node end; one without such a node runs on unchanged. -/
def execMigrateOut (c : Cmd) (s : State) : Out :=
  queueCommand c (fun s =>
    match s.jobOf (par c 0) with
    | none => s.reply c stBadJob
    | some j =>
      if (j.state = .running ∨ j.state = .preempted) ∧ (s.imageOf j).any imageCkpt then
        (s.onPlacements j fun k => { k with migrate := true, heldOut := false }).reply c stOk j.jobid
      else s.reply c stBadState j.jobid) s

/-- CHECKPOINT (R399): a checkpoint at the next code node end; the result gives its NUM. -/
def execCheckpoint (c : Cmd) (s : State) : Out :=
  queueCommand c (fun s =>
    match s.jobOf (par c 0) with
    | none => s.reply c stBadJob
    | some j =>
      if j.state = .running ∨ j.state = .preempted then
        (s.onPlacements j fun k => { k with ckAsked := true }).reply c stOk j.jobid (bytesOf 8 (j.ckNum + 1))
      else s.reply c stBadState j.jobid) s

/-- The pages of a retained job pass to a new one; under dual execution each placement takes pages of its own beside them (R344, R403). -/
def Job.takeOver (new old : Job) : Job :=
  if new.dual then { new with kept := old.pages, keptDram := old.dram.published } else { new with pages := old.pages }

/-- What passes from a retained job to the one that RESTORE starts (R403): none where the mode's requirement fails. -/
def Job.handDown (old new : Job) (mode : Nat) : Option Job :=
  if mode = 0 then
    if old.p2m = new.p2m && old.p2g = new.p2g then
      some { new.takeOver old with ckStore := old.ckStore, dram := old.dram.published }
    else none
  else if mode = 1 then
    if old.imageNo = new.imageNo && old.width = new.width && old.height = new.height && old.checkpoints.any (·.complete) then
      some { new.takeOver old with
        ckStore := old.ckStore, ckNum := old.ckNum, checkpoints := old.checkpoints.filter (·.complete), resuming := true
        pid := old.pid, fenceDigests := old.fenceDigests
        dram := { soft := old.dram.published.soft } }
    else none
  else none

/-- RESTORE (R403): word 2 the retained job, words 3 to 10 the launch record, word 11 the mode. -/
def execRestore (c : Cmd) (s : State) : Out :=
  queueCommand c (fun s =>
    match s.jobOf (par c 0) with
    | none => s.reply c stBadJob
    | some old =>
      match old.state, old.handDown (s.jobFrom c 1 false) (parN c 9) with
      | .ended, some new =>
        let s' : State := { s with jobs := s.jobs.filter fun k => !(k.same old && k.state == .ended) }
        s'.submit c new
      | _, _ => s.reply c stBadState old.jobid) s

/-- RETIRE_UNIT (R387, R399): the unit of word 2 in the layout of R268, without a cause. -/
def execRetireUnit (c : Cmd) (s : State) : Out :=
  queueCommand c (fun s =>
    let u := parN c 0
    if 23040 ≤ u % 2 ^ 15 || u / 2 ^ 24 ≠ 0 then s.reply c stBadRecord
    else
      let w : BitVec 32 := BitVec.ofNat 32 (if bit u 15 then u % 2 ^ 15 / 5 * 5 + 2 ^ 15 else u % 2 ^ 15)
      { s with retireAsk := if s.retireAsk.contains w then s.retireAsk else s.retireAsk ++ [w] }.reply c stOk) s

/-- Are the lines of a copy good: whole lines, every one in a page (R346, R399)? -/
def Job.copyOk (j : Job) (a n : Nat) : Bool := a % 64 == 0 && n % 64 == 0 && (List.range (n / 64)).all fun i => j.paged (a + 64 * i)

/-- COPY_IN (R399): host bytes into the pages of a held job. -/
def execCopyIn (c : Cmd) (s : State) : Out :=
  queueCommand c (fun s =>
    match s.jobOf (par c 0) with
    | none => s.reply c stBadJob
    | some j =>
      if j.state ≠ .held then s.reply c stBadState j.jobid
      else if !j.copyOk (parN c 1) (parN c 3) then s.reply c stBadRecord j.jobid
      else
        let b := c.data.take (parN c 3)
        (s.onPlacements j fun k => { k with
          dram := k.dram.putPublished (parN c 1) b }).reply c stOk j.jobid (digest256 b)) s

/-- COPY_OUT (R399): bytes of the pages of a held job, or of an ended one that keeps them, to host memory. -/
def execCopyOut (c : Cmd) (s : State) : Out :=
  queueCommand c (fun s =>
    match s.jobOf (par c 0) with
    | none => s.reply c stBadJob
    | some j =>
      if j.state ≠ .held ∧ j.state ≠ .ended then s.reply c stBadState j.jobid
      else if !j.copyOk (parN c 1) (parN c 3) then s.reply c stBadRecord j.jobid
      else
        (s.onHilum fun h => { h with bufs := (par c 2, memBytes j.dram.pub (parN c 1) (parN c 3)) :: h.bufs }).reply c stOk j.jobid) s

/-- SET_TIME (R399, R414): TICK takes the value at the WCYC given; one that is past counts the edges since. -/
def execSetTime (c : Cmd) (s : State) : Out :=
  queueCommand c (fun s =>
    if 1 < s.pod.members.length then s.reply c stBadState
    else
      let v := parN c 0
      let w := parN c 1
      (if w ≤ s.wcyc then
        { s with tick := (v + (s.wcyc / Config.tickCycles - w / Config.tickCycles)) % 2 ^ 64, timeAt := none }
      else { s with timeAt := some (v, w) }).reply c stOk) s

/-! ### Consumption (R395, R398) -/

/-- The command of an OPC on its kind of ring (R399); none for a code that is not listed, or on the wrong ring. -/
def runCommand (opc : Nat) (c : Cmd) (s : State) : Option Out :=
  match c.ring, opc with
  | .mgmt _, 0x01 => some (execIdentify c s)
  | .mgmt _, 0x02 => some (execAttest c s)
  | .mgmt _, 0x03 => some (execClaim c s)
  | .mgmt _, 0x04 => some (execHandover c s)
  | .mgmt _, 0x05 => some (execAccept c s)
  | .mgmt _, 0x06 => some (execRelease c s)
  | .mgmt _, 0x07 => some (execQueryJob c s)
  | .mgmt _, 0x08 => some (execQueryMap c s)
  | .mgmt _, 0x09 => some (execReadDigest c s)
  | .mgmt _, 0x0A => some (execReadUtil c s)
  | .mgmt _, 0x0B => some (execReadErrors c s)
  | .queue _, 0x10 => some (execLoadImage c s)
  | .queue _, 0x11 => some (execVerifyImage c s)
  | .queue _, 0x12 => some (execAdmit c s)
  | .queue _, 0x13 => some (execLaunch c s)
  | .queue _, 0x14 => some (execCancel c s)
  | .queue _, 0x15 => some (execPreempt c s)
  | .queue _, 0x16 => some (execMigrateOut c s)
  | .queue _, 0x17 => some (execCheckpoint c s)
  | .queue _, 0x18 => some (execRestore c s)
  | .queue _, 0x19 => some (execRetireUnit c s)
  | .queue _, 0x1A => some (execCopyIn c s)
  | .queue _, 0x1B => some (execCopyOut c s)
  | .queue _, 0x1C => some (execSetTime c s)
  | _, _ => none

/-- Is a slot of the queue ready to be consumed (R395)? -/
def State.slotReady (s : State) (ring : RingId) : Bool := (s.nextSlot ring).any fun ws => seqAgrees ws (s.hilum.ring ring).head

/-- The queue of a class from which the next command is taken: the next one in turn with a slot ready, lowest first (R399). -/
def State.turnOf (s : State) (cls : Nat) : Option Nat :=
  ((List.range 16).map fun i => (s.hilum.turn.toList.getD cls 15 + 1 + i) % 16).find? fun q =>
    let r : RingId := .queue (BitVec.ofNat 4 q)
    (s.hilum.ring r).cls == cls && s.slotReady r

/-- Is it the ring's turn (R399)? Each management ring stands alone. -/
def State.onTurn (s : State) (ring : RingId) : Bool :=
  match ring with
  | .mgmt _ => true
  | .queue q => s.turnOf (s.hilum.ring ring).cls == some q.toNat

/-- The queue has had its turn. -/
def Hilum.tookTurn (h : Hilum) (ring : RingId) : Hilum :=
  match ring with
  | .mgmt _ => h
  | .queue q => { h with turn := Vector.ofFn fun i => if i.val = (h.ring ring).cls then q.toNat else h.turn[i] }

/-- SUBMISSION_CONSUME (R395, R398, R399): of the queue whose turn it is, the position is consumed and its command carried out; a slot that names no command of this ring,
or with a nonzero zero field, completes with BAD_OPCODE. `data` and `image` are what the firmware reads from host memory. -/
def execSubmissionConsume (ring : RingId) (data : List Byte) (image : Option Image) (s : State) : Out :=
  match s.nextSlot ring with
  | none => .next s
  | some ws =>
    if !seqAgrees ws (s.hilum.ring ring).head || !s.onTurn ring then .next s
    else
      let c := cmdOf ring ws data image
      let s := s.onHilum fun h => (h.tookTurn ring).onRing ring fun q => { q with head := q.head + 1 }
      let w := (ws.getD 0 0).toNat
      match (if bits w 15 8 = 0 then runCommand (bits w 7 0) c s else none) with
      | some r => r
      | none => .next (s.reply c stBadOpcode)

end Sys2Proof.Machine
end

