-- ==== Sys2Proof/Machine/Defer.lean ====
section
/-!
DEFINITION. The deferral queue (04 R128-R136): a ring of 32-byte entries in the scratchpad.
-/
namespace Sys2Proof.Machine

/-- Lane width of the queue (R129). -/
def Ctx.dqLane (x : Ctx) : Nat := if dqWide x.dqcap.toNat then 32 else 64

/-- Byte address of ring slot `i` (R131). -/
def Ctx.dqSlot (x : Ctx) (i : Nat) : Nat := x.dqbase.toNat + 32 * (i % dqCap x.dqcap.toNat)

/-- The vectors that a VDEFER or VDRAIN names (R132). -/
def dqVecs (o : RRR) : List (BitVec 6) := [o.d, o.a, o.b].take (o.m.toNat % 4)

/-- The active lanes of a queue op. -/
def Tile.dqActive (t : Tile) (x : Ext) : List Nat := (List.range (laneCount t.ct.cx.dqLane)).filter (t.active x)

/-- The bytes of an entry (R131). -/
def dqEntry (vals : List Nat) (ln nv : Nat) : List Byte :=
  bytesOf 8 (vals.getD 0 0) ++ bytesOf 8 (vals.getD 1 0) ++ bytesOf 8 (vals.getD 2 0) ++ bytesOf 8 (ln + nv * 64)

/-- VDEFER (R132). -/
def execVdefer (o : RRR) (x : Ext) (s : State) : Out :=
  let t := s.tile
  let cap := t.ct.cx.dqcap.toNat
  let act := t.dqActive x
  let n := act.length
  if dqCap cap < dqCount cap + dqHeld cap + n then
    trapOut .deferqOverflow (dqCount cap + dqHeld cap * 2 ^ 14 + n * 2 ^ 28) 1 s
  else if n = 0 then .next s
  else
    onTile (fun t =>
      let slot (e : Nat × Nat) : Nat := t.ct.cx.dqSlot (dqHead cap + dqCount cap + e.2)
      let cells := (act.zipIdx.filter fun e => !t.ct.spOutRange (slot e) 32).flatMap fun e =>
        cellsAt (slot e) (dqEntry ((dqVecs o).map fun v => lane t.ct.cx.dqLane e.1 (t.v v)) e.1 (o.m.toNat % 4))
      let t := t.spNote (act.zipIdx.map slot) 32
      let t := if cells.isEmpty then t
        else (t.bookSp (t.c + 3) (cells.map (·.1)) true false 1).pending (t.c + 3) 1 (.spWrite cells)
      t.later (.dqPush n)) s

/-- The bytes that word `v` of queue entries gives to the lanes of a destination, none reading zero (R133). -/
def Tile.dqBytes (t : Tile) (act : List Nat) (n v : Nat) : List (Option Nat) :=
  let w := t.ct.cx.dqLane
  let head := dqHead t.ct.cx.dqcap.toNat
  (List.range (laneCount w)).flatMap fun i =>
    match findIdx (· == i) act with
    | some e =>
      let a := t.ct.cx.dqSlot (head + e.1)
      (List.range (w / 8)).map fun k =>
        if e.1 < n && !t.ct.spOutRange a 32 then some (a + 8 * v + k) else none
    | none => List.replicate (w / 8) none

/-- VDRAIN (R133): entries are read at c+3 and land at c+4. -/
def execVdrain (o : RRR) (x : Ext) (s : State) : Out :=
  let t := s.tile
  let cap := t.ct.cx.dqcap.toNat
  let act := t.dqActive x
  let n := min (dqCount cap) act.length
  if dqCount cap = 0 then trapOut .deferqUnderflow (dqHead cap) 1 s
  else
    onTile (fun t =>
      let starts := (List.range n).map fun j => t.ct.cx.dqSlot (dqHead cap + j)
      let t := (t.spNote starts 32).bookSp (t.c + 3) (t.spReached starts 32) false false 1
      let be := laneBytes (t.ct.cx.dqLane / 8) (t.active x)
      let whole := t.spReached starts 32
      let t := (dqVecs o).zipIdx.foldl (fun (t : Tile) e =>
        t.addResult (.v (t.ct.cx.phys (e.1.setWidth 5))) (t.c + 4) (t.c + 3) (.drain (if e.2 = 0 then whole else []) (t.dqBytes act n e.2)) be 0 1) t
      t.later (.dqPull n)) s

/-- DQCNT (R134). -/
def execDqcnt (o : RRR) (s : State) : Out :=
  onTile (fun t => t.landS o.d (BitVec.ofNat 64 (dqCount t.ct.cx.dqcap.toNat)) 2 1) s

end Sys2Proof.Machine
end

