-- ==== Sys2Proof/Machine/Pod.lean ====
section
/-!
DEFINITION. The pod fabric as one module sees it (16 R412-R425): membership, the start of a pod job, batches, fabric beacons and
failures.
-/
namespace Sys2Proof.Machine

/-! ### Membership (R412, R414) -/

/-- The lowest pod id that no member has (R412). -/
def Pod.freeId (p : Pod) : Nat := ((List.range 64).find? fun i => !p.members.contains i).getD 64

/-- Change a fabric port. -/
def Pod.onPort (p : Pod) (k : Nat) (f : Port → Port) : Pod :=
  { p with ports := (k, f (((p.ports.find? fun e => e.1 == k).map (·.2)).getD {})) :: p.ports.filter (·.1 != k) }

/-- POD_JOIN (R412, R413): a module that boots after the pod has formed takes the lowest free pod id, and the delays of its links, to this
module and to the others, count in FL. A module that boots itself joins as
BOOT_COMPLETE says. -/
def execPodJoin (member : PodMember) (s : State) : Out :=
  let id := member.id
  if s.hilum.booting || s.pod.freeId ≠ id.toNat then .next s
  else
    let used := member.links.filter fun l => l.1 < 32 && l.2.2 ≤ maxDelay
    let p := used.foldl (fun (p : Pod) l => p.onPort l.1 fun q => { q with peer := some (id.toNat, l.2.1) }) s.pod
    .next { s with pod := { p with members := p.members ++ [id.toNat], fl := max p.fl (flOf (used.map (·.2.2) ++ member.delays)) } }

/-! ### Start (R415) -/

/-- A pod job ends on this member with the status that another member's end has given it: before its start as a refusal does, or by CANCEL,
and after it with the halt of its partition (R401, R417, R422, R424). -/
def State.endMember (s : State) (j : Job) (status : Nat) : State :=
  let gone (s : State) : State := { s with jobs := s.jobs.filter fun k => !(k.jobid == j.jobid && k.serial == j.serial) }
  if status = stCancelled then s.cancelJob j
  else if j.state = .waiting then
    let s := gone (((if j.replacing then s.freeCommons j else s).endEntry j status j.finalRef 0 []).unqueue j)
    (if j.replacing then { s with jobs := s.jobs ++ [j.retireOut] } else s).runAdmission
  else if j.state = .loaded ∨ j.state = .held then
    let s := s.endJob j status j.finalRef 0 []
    (if noChain.contains status then gone s else s).runAdmission
  else s.onPlacements j (·.endAt status 0 [])

/-- The THR that the members of a pod job agree on, the largest that any of them asks for, from a beacon cycle at least 4,096 cycles after the
request (R422). -/
def Job.agreeThr (j : Job) (thr wcyc : Nat) : Job :=
  { j with thrNext := some (min maxThr (max thr j.thrAsk), beaconAfter (max wcyc ((j.thrAskAt.map (· + thrLead true)).getD 0)) 0) }

/-- What the members of a pod job agree, carried out on this one (R415, R417, R422). They start, are pre-empted, and come back from a
pre-emption, at a tick. -/
def State.podNews (s : State) (j : Job) (news : PodNews) : State :=
  match news with
  | .start tick => if s.startsNow j && s.tick == tick.toNat then s.beginJob j else s
  | .ended st => s.endMember j st
  | .throttle thr w => s.updJob j (·.agreeThr thr (max w s.wcyc))
  | .preempt =>
    if s.wcyc % Config.tickCycles = 0 then s.updJob j fun j => if j.state == .running && !j.preempting then j.preemptNow else j else s
  | .allOut => s.standStill j.pid fun k => k.same j
  | .comeBack =>
    match s.returner j.pid fun k => k.same j with
    | some k => if s.wcyc % Config.tickCycles = 0 && s.tiles.all (fun t => !k.ltids.contains t.ltid || t.holds k.pid) then s.switchBack k else s
    | none => s
  | .checkpoint n => s.onPlacements j (·.agree n)
  | .rollback n => s.updJob j (·.rollWith n)

/-- POD_JOB_START (R415, R417, R422): the members of a pod job have agreed: on the first tick, at or after TICKT, at which every member is
ready, and on what they do together later. -/
def execPodJobStart (jobid : Word) (news : PodNews) (s : State) : Out :=
  match s.jobs.find? fun j => j.jobid == jobid && !j.plan.isEmpty && j.state != .ended with
  | none => .next s
  | some j => .next (s.podNews j news)

/-! ### Streams (R419) -/

/-- The job and the plan entry of a stream number. A member that is switched out receives too (R419, R422). -/
def State.stream (s : State) (n : Nat) : Option (Job × List Word) :=
  match s.jobs.find? fun j => j.pid == n / 2 ^ 16 && (j.state == .running || j.state == .preempted) with
  | none => none
  | some j => ((planStreams j.plan)[n % 2 ^ 16]?).map fun e => (j, e)

/-- Lines of a batch that its stream's slots have carried at count `now`: SLOTS in 16 cycles, from P + 1 (R416, R419; the place of the slots in
the 16 cycles DESIGN CHOICE, log 66). -/
def Batch.carried (b : Batch) (e : List Word) (now : Nat) : Nat := min b.lines.length (strmSlots e * (now - b.at_) / 16)

/-- FABRIC_SLOT_SEND (R419): lines of the oldest batch of the stream leave in its slots; a batch that is sent is done with. -/
def execFabricSlotSend (stream : Nat) (s : State) : Out :=
  match s.stream stream, s.pod.batches.find? fun b => b.stream == stream with
  | some (j, e), some b =>
    let n := b.carried e j.ref
    let gone := ((b.lines.take n).drop b.sent).map fun l => (stream, l)
    .next { s with pod := { s.pod with
      out := gone.reverse ++ s.pod.out
      batches := if b.lines.length ≤ n then s.pod.batches.erase b else s.pod.batches.replace b { b with sent := max n b.sent } } }
  | _, _ => .next s

/-- LF of a stream (R419). -/
def Pod.lf (p : Pod) (e : List Word) : Nat := 640 + p.fl + (16 * strmLines e + strmSlots e - 1) / strmSlots e

/-- The receiver's region of a stream whose batches this member receives. -/
def State.streamRegion (s : State) (j : Job) (e : List Word) : Option Region :=
  if strmDpod e = s.pod.id then ((s.imageOf j).bind fun im => im.regions[strmDreg e]?).filter (·.space == 2) else none

/-- Lines of a batch become the published lines of DREG, in one cycle; they do not enter this member's digest (R419). -/
def Job.receive (j : Job) (lines : List (Nat × Vec)) : Job :=
  { j.soil (lines.map fun l => j.pageUnit l.1) with
    dram := lines.foldl (fun d l => d.putPublished l.1 (bytesOf 64 l.2.toNat)) j.dram }

/-- FABRIC_BATCH_PUBLISH (R419): a batch published at count `at_` of its sender. What has arrived stays in DREG's
shadow until P + LF on this member's reference, and is published then. -/
def execFabricBatchPublish (stream : Nat) (batch : SentLines) (s : State) : Out :=
  let at_ := batch.at_
  match s.stream stream with
  | none => .next s
  | some (j, e) =>
    match s.streamRegion j e with
    | none => .next s
    | some r =>
      let rest := s.pod.incoming.filter fun b => !(b.stream == stream && b.at_ == at_)
      let mine := batch.lines.filter fun l => l.1 % 64 == 0 && r.base ≤ l.1 && l.1 < r.base + r.size
      if j.ref < at_ + s.pod.lf e then .next { s with pod := { s.pod with incoming := rest ++ [{ stream := stream, at_ := at_, lines := mine }] } }
      else .next ({ s with pod := { s.pod with incoming := rest } }.updJob j (·.receive mine))

/-! ### Fabric beacons (R421) -/

/-- Partition cycles between fabric beacons (R421). -/
def fabricBeaconCycles : Nat := 1024

/-- The own count latched at the last fabric beacon cycle. -/
def Job.latched (j : Job) : Nat := j.ref / fabricBeaconCycles * fabricBeaconCycles

/-- Slots that the streams of the job have passed on a port by the latched count (R416). -/
def Job.slotsAt (j : Job) (p : Pod) (port : Nat) : Nat :=
  j.latched / 16 * sumNat (((planStreams j.plan).filter fun e => p.carries port e (j.portOf e)).map strmSlots)

/-- The lead member of a pod job (R415). -/
def Job.lead (j : Job) : Option Nat := (List.range podIds).find? fun m => bit (j.plan.getD 0 0).toNat m

/-- The fabric beacons that this module sends in this cycle: on every port that carries a stream of a running pod job, in every 1,024th cycle
of its partition count (R421). -/
def State.beaconsOut (s : State) : List (Nat × Word × Nat × Nat) :=
  (s.jobs.filter fun j => !j.plan.isEmpty && s.delivers j && j.ref % fabricBeaconCycles == 0).flatMap fun j =>
    ((List.range 32).filter fun k => (planStreams j.plan).any fun e => s.pod.carries k e (j.portOf e)).map fun k =>
      (k, j.jobid, j.ref, j.slotsAt s.pod k)

/-- A member's count and its copies move to the lead member's (R421). -/
def State.podAlign (s : State) (j : Job) (count : Nat) : State :=
  let move (n : Nat) : Nat := n + count - j.latched
  let s := s.onJob j.pid fun j => { j with refs := threeOf (move j.ref), podArmed := false }
  s.mapTiles (fun t => t.ct.isOf j.pid) fun t => { t with ct := { t.ct with now := move t.ct.now } }

/-- The pod id of the module beyond a fabric port. -/
def Pod.beyond (p : Pod) (port : Nat) : Option Nat := ((p.ports.find? fun e => e.1 == port).bind (·.2.peer)).map (·.1)

/-- FABRIC_BEACON (R421): where CALIGN .pod has armed the members' counts, they move to the lead member's with its beacon; a count or slot
counter that differs otherwise is counted for the port, and rolls the pod job back. -/
def execFabricBeacon (src : BeaconSource) (count slots : Word) (s : State) : Out :=
  match s.jobs.find? fun j => j.jobid == src.jobid && j.state == .running && !j.plan.isEmpty with
  | none => .next s
  | some j =>
    if j.podArmed then
      .next (if j.lead = some s.pod.id then s.onJob j.pid fun j => { j with podArmed := false }
        else if j.lead.isSome && s.pod.beyond src.port = j.lead then s.podAlign j count.toNat else s)
    else if count.toNat = j.latched && slots.toNat = j.slotsAt s.pod src.port then .next s
    else
      let bump (l : List (Nat × Nat)) : List (Nat × Nat) :=
        (src.port, ((l.find? fun f => f.1 == src.port).map (·.2)).getD 0 + 1) :: l.filter (·.1 != src.port)
      .next ((s.onJob j.pid (·.askRollback 0)).onErrors fun e => { e with fabric := bump e.fabric })

/-! ### Failures (R424) -/

/-- Does a fabric port work? -/
def Pod.works (p : Pod) (k : Nat) : Bool := !(p.ports.any fun e => e.1 == k && e.2.failed)

/-- Does the alternate port of a stream work, at the sender, or as a link that reaches this receiver (R424)? -/
def Pod.altWorks (p : Pod) (e : List Word) : Bool :=
  strmAltv e && (if strmSpod e = p.id then p.works (strmAlt e) else (List.range 32).any fun k => p.works k && p.carries k e (strmAlt e))

/-- What the failure of port `k` does to a pod job, `old` being the pod before it (R424): the job is rolled back, and its streams on the port
run on their alternates from the restart, or it ends with ROLLBACK on every member. -/
def State.portFailed (old : Pod) (k : Nat) (s : State) (j : Job) : State :=
  let es := (planStreams j.plan).filter fun e => old.carries k e (j.portOf e)
  if es.isEmpty then s
  else if es.all fun e => s.pod.altWorks e && j.portOf e != strmAlt e then
    s.updJob j fun j =>
      let j := { j with altsNext := uniq (es.map strmPort ++ j.altsNext) }
      if j.state == .running || j.state == .preempted then j.askRollback 0 else j
  else s.endMember j stRollback

/-- The pod jobs of this module that have not ended, one placement of each. -/
def State.podJobs (s : State) : List Job := s.jobs.filter fun j => !j.plan.isEmpty && j.state != .ended && j.place == 0

/-- Act on each of some jobs as it stands by then: the end of one may admit another. -/
def State.eachJob (s : State) (js : List Job) (f : State → Job → State) : State :=
  js.foldl (fun s j => match s.jobs.find? fun k => k.same j && k.state != .ended with
    | some k => f s k
    | none => s) s

/-- A fabric port fails: it has no peer, and every pod job with a stream on it goes the way of R424, wherever it stands. -/
def State.failPort (s : State) (k : Nat) : State :=
  let s' : State := { s with pod := s.pod.onPort k fun q => { q with failed := true, peer := none } }
  s'.eachJob s.podJobs (State.portFailed s.pod k)

/-- FABRIC_PORT_FAIL (R424). -/
def execFabricPortFail (port : Nat) (s : State) : Out := .next (if port < 32 then s.failPort port else s)

/-- FABRIC_LANE_FAIL (R413, R424): the spare lane takes the place of the first failed one; a second failure leaves too few. -/
def execFabricLaneFail (port lane : Nat) (s : State) : Out :=
  if 32 ≤ port || 9 ≤ lane then .next s
  else
    let p := s.pod.onPort port fun q => { q with lanes := if q.lanes.contains lane then q.lanes else lane :: q.lanes }
    let lost := ((p.ports.find? fun e => e.1 == port).map (·.2.lanes.length)).getD 0
    .next (if 2 ≤ lost && s.pod.works port then { s with pod := p }.failPort port else { s with pod := p })

/-- A member leaves the pod (R412, R414, R424): no port has it for its peer, every pod job with it ends with ROLLBACK, and a lost grandmaster is
replaced by the lowest remaining id; TICK goes on without a step. -/
def State.loseMember (s : State) (m : Nat) : State :=
  let ms := s.pod.members.filter (· != m)
  let cut (q : Port) : Port := if q.peer.any (·.1 == m) then { q with peer := none } else q
  let s' : State := { s with pod := { s.pod with
    members := ms, grandmaster := if s.pod.grandmaster = m then ms.foldl min 63 else s.pod.grandmaster
    ports := s.pod.ports.map fun e => (e.1, cut e.2) } }
  s'.eachJob (s.podJobs.filter fun j => bit (j.plan.getD 0 0).toNat m) fun s j => s.endMember j stRollback

/-- POD_MEMBER_LOST (R414, R424). -/
def execPodMemberLost (id : BitVec 6) (s : State) : Out :=
  .next (if id.toNat = s.pod.id || !s.pod.members.contains id.toNat then s else s.loseMember id.toNat)

/-- GRANDMASTER_LOSS (R414, R424): the member that is the grandmaster is lost. -/
def execGrandmasterLoss (s : State) : Out :=
  .next (if s.pod.grandmaster = s.pod.id || (s.pod.members.filter (· != s.pod.grandmaster)).isEmpty then s else s.loseMember s.pod.grandmaster)

end Sys2Proof.Machine
end

