-- ==== Sys2Proof/Machine/Scalar.lean ====
section
/-!
DEFINITION. The scalar integer ops (spec 06 R170, R172-R176): operands are read at c and results land at c + L.
-/
namespace Sys2Proof.Machine

/-- s[d] ← f(s[a], s[b]), landing at c + lat (R172). -/
def scalarOp (lat : Nat) (o : RRR) (f : Word → Word → Word) (s : State) : Out :=
  onTile (fun t => t.landS o.d (f (t.s o.a) (t.s o.b)) lat 0) s

/-- s[d] ← f(s[a], sext(imm)), L = 1 (R175). -/
def scalarImm (o : RI) (x : Ext) (f : Word → Word → Word) (s : State) : Out :=
  onTile (fun t => t.landS o.d (f (t.s o.a) (wordOf (riImm o x))) 1 0) s

/-- Shift amount s[b][5:0] (R172). -/
def shiftAmount (b : Word) : Nat := b.toNat % 64

/-- Bits 127:64 of the exact product (R172): m 0 signed, 1 cardinal, 2 signed × cardinal. -/
def mulHigh (m : Nat) (a b : Word) : Word :=
  let x : Int := if m = 1 then a.toNat else a.toInt
  let y : Int := if m = 0 then b.toInt else b.toNat
  BitVec.ofInt 64 (x * y / 2 ^ 64)

/-- Quotient and remainder of R173, truncating toward zero. -/
def divRem (m : Nat) (a b : Word) : Word × Word :=
  if b = 0 then (BitVec.allOnes 64, a)
  else if m = 0 then
    if a.toInt = -2 ^ 63 ∧ b.toInt = -1 then (BitVec.ofNat 64 (2 ^ 63), 0)
    else (BitVec.ofInt 64 (a.toInt.tdiv b.toInt), BitVec.ofInt 64 (a.toInt.tmod b.toInt))
  else (BitVec.ofNat 64 (a.toNat / b.toNat), BitVec.ofNat 64 (a.toNat % b.toNat))

/-- Is a below b, signed (m = 0) or cardinal (m = 1)? -/
def below (m : Nat) (a b : Word) : Bool := if m = 0 then a.toInt < b.toInt else a.toNat < b.toNat

def execAdd (o : RRR) (s : State) : Out := scalarOp 1 o (· + ·) s
def execSub (o : RRR) (s : State) : Out := scalarOp 1 o (· - ·) s
def execAnd (o : RRR) (s : State) : Out := scalarOp 1 o (· &&& ·) s
def execOr (o : RRR) (s : State) : Out := scalarOp 1 o (· ||| ·) s
def execXor (o : RRR) (s : State) : Out := scalarOp 1 o (· ^^^ ·) s
def execAndn (o : RRR) (s : State) : Out := scalarOp 1 o (fun a b => a &&& ~~~b) s
def execShl (o : RRR) (s : State) : Out := scalarOp 1 o (fun a b => a <<< shiftAmount b) s
def execShr (o : RRR) (s : State) : Out := scalarOp 1 o (fun a b => a >>> shiftAmount b) s
def execSra (o : RRR) (s : State) : Out := scalarOp 1 o (fun a b => a.sshiftRight (shiftAmount b)) s
def execRol (o : RRR) (s : State) : Out := scalarOp 1 o (fun a b => a.rotateLeft (shiftAmount b)) s
def execMul (o : RRR) (s : State) : Out := scalarOp 3 o (· * ·) s
def execMulh (o : RRR) (s : State) : Out := scalarOp 3 o (mulHigh o.m.toNat) s

/-- DIV (R173). -/
def execDiv (o : RRR) (s : State) : Out := scalarOp 18 o (fun a b => (divRem o.m.toNat a b).1) s
/-- REM (R173). -/
def execRem (o : RRR) (s : State) : Out := scalarOp 18 o (fun a b => (divRem o.m.toNat a b).2) s

def execMin (o : RRR) (s : State) : Out := scalarOp 1 o (fun a b => if below o.m.toNat b a then b else a) s
def execMax (o : RRR) (s : State) : Out := scalarOp 1 o (fun a b => if below o.m.toNat a b then b else a) s
def execClz (o : RRR) (s : State) : Out := scalarOp 1 o (fun a _ => BitVec.ofNat 64 (leadZeros 64 a.toNat)) s
def execCtz (o : RRR) (s : State) : Out := scalarOp 1 o (fun a _ => BitVec.ofNat 64 (trailZeros 64 a.toNat)) s
def execPopc (o : RRR) (s : State) : Out := scalarOp 1 o (fun a _ => BitVec.ofNat 64 (popCount 64 a.toNat)) s

/-- SEXT: the low 8, 16 or 32 bits, sign-extended. -/
def execSext (o : RRR) (s : State) : Out := scalarOp 1 o (fun a _ => sextWord (8 * 2 ^ o.m.toNat) a.toNat) s
/-- ZEXT: the low 8, 16 or 32 bits, zero-extended. -/
def execZext (o : RRR) (s : State) : Out :=
  scalarOp 1 o (fun a _ => BitVec.ofNat 64 (a.toNat % 2 ^ (8 * 2 ^ o.m.toNat))) s

/-- CLMUL: bits 63:0 of the carry-less product. -/
def execClmul (o : RRR) (s : State) : Out :=
  scalarOp 2 o (fun a b => BitVec.ofNat 64 (clMul 64 a.toNat b.toNat)) s
/-- CLMULH: bits 126:64 of the carry-less product. -/
def execClmulh (o : RRR) (s : State) : Out :=
  scalarOp 2 o (fun a b => BitVec.ofNat 64 (clMul 64 a.toNat b.toNat / 2 ^ 64)) s

/-- The condition of SEL (R174): a q bit, inverted by m[3], or bit 0 of the scalar that a prefix names. -/
def Tile.selects (t : Tile) (o : RRR) (x : Ext) : Bool :=
  if x.bits.getLsbD 6 then (t.s (x.bits.setWidth 6)).getLsbD 0
  else (t.ct.cx.q.getLsbD (o.m.toNat % 8)) != o.m.getLsbD 3

/-- SEL (R174). -/
def execSel (o : RRR) (x : Ext) (s : State) : Out :=
  onTile (fun t => t.landS o.d (if t.selects o x then t.s o.a else t.s o.b) 1 0) s

def execAddi (o : RI) (x : Ext) (s : State) : Out := scalarImm o x (· + ·) s
def execAndi (o : RI) (x : Ext) (s : State) : Out := scalarImm o x (· &&& ·) s
def execOri (o : RI) (x : Ext) (s : State) : Out := scalarImm o x (· ||| ·) s
def execXori (o : RI) (x : Ext) (s : State) : Out := scalarImm o x (· ^^^ ·) s
def execShli (o : RI) (s : State) : Out := scalarImm o none (fun a _ => a <<< (o.imm.toNat % 64)) s
def execShri (o : RI) (s : State) : Out := scalarImm o none (fun a _ => a >>> (o.imm.toNat % 64)) s
def execSrai (o : RI) (s : State) : Out := scalarImm o none (fun a _ => a.sshiftRight (o.imm.toNat % 64)) s

/-- LIMM: s[d] ← sext(imm) (R176). -/
def execLimm (o : I16) (x : Ext) (s : State) : Out := onTile (fun t => t.landS o.d (wordOf (i16Imm o x)) 1 0) s

/-- The word with its 16-bit part `p` replaced (R176). -/
def insertPart (old : Word) (p : Nat) (v : BitVec 16) : Word :=
  (old &&& ~~~((0xFFFF : Word) <<< (16 * p))) ||| (v.setWidth 64 <<< (16 * p))

/-- LINS (R176): p from a prefix, 0 without. -/
def execLins (o : I16) (x : Ext) (s : State) : Out :=
  onTile (fun t => t.landS o.d (insertPart (t.s o.d) (x.bits.toNat % 4) o.imm) 1 0) s

end Sys2Proof.Machine
end

