-- ==== Sys2Proof/Machine/ScalarFp.lean ====
section
/-!
DEFINITION. The scalar binary64 ops (spec 06 R177-R179).
-/
namespace Sys2Proof.Machine

/-- A binary64 result under FMODE, its flags set in BFL or trapped (R177). -/
def floatOp (lat : Nat) (o : RRR) (f : BFmt → Nat → Nat → Nat → FRes) (s : State) : Out :=
  onTile (fun t =>
    let r := f (bfmt 11) t.fmode (t.sN o.a) (t.sN o.b)
    t.landArith o.d (BitVec.ofNat 64 r.val) (bFlags r.fl) lat) s

def execFadd (o : RRR) (s : State) : Out := floatOp 4 o fAdd s
def execFsub (o : RRR) (s : State) : Out := floatOp 4 o fSub s
def execFmul (o : RRR) (s : State) : Out := floatOp 4 o fMul s
def execFdiv (o : RRR) (s : State) : Out := floatOp 20 o fDiv s
def execFsqrt (o : RRR) (s : State) : Out := floatOp 24 o (fun b rm x _ => fSqrt b rm x) s
def execFmin (o : RRR) (s : State) : Out := floatOp 2 o (fun b _ x y => fMinMax b false x y) s
def execFmax (o : RRR) (s : State) : Out := floatOp 2 o (fun b _ x y => fMinMax b true x y) s

/-- The addend of FMA and DFMA: s[d], or the scalar a prefix names (R177). -/
def Tile.addend (t : Tile) (o : RRR) (x : Ext) : Nat :=
  if x.bits.getLsbD 6 then t.sN (x.bits.setWidth 6) else t.sN o.d

/-- FMA (R177). -/
def execFma (o : RRR) (x : Ext) (s : State) : Out :=
  onTile (fun t =>
    let r := fMulAdd (bfmt 11) t.fmode (t.sN o.a) (t.sN o.b) (t.addend o x)
    t.landArith o.d (BitVec.ofNat 64 r.val) (bFlags r.fl) 5) s

/-- FCMP (R178). -/
def execFcmp (o : RRR) (s : State) : Out :=
  onTile (fun t =>
    let r := fCompare (bfmt 11) o.m.toNat (t.sN o.a) (t.sN o.b)
    t.landCond (low3 o.d) r.1 (bFlags r.2) 1) s

/-- A converted value as a scalar: an .i result is sign-extended, any other zero-extended (R179). -/
def placeScalar (code v : Nat) : Word := if code < 4 then sextWord (typeWidth code) v else BitVec.ofNat 64 v

/-- FCVT (R179): m the source type, b[3:0] the target type. -/
def execFcvt (o : RRR) (s : State) : Out :=
  onTile (fun t =>
    let src := o.m.toNat
    let dst := o.b.toNat
    let r := fConvert t.fmode src dst (t.sN o.a % 2 ^ typeWidth src)
    t.landArith o.d (placeScalar dst r.val) (bFlags r.fl) 4) s

/-- FCLASS (R90). -/
def execFclass (o : RRR) (s : State) : Out :=
  onTile (fun t => t.landS o.d (BitVec.ofNat 64 (fClass (bfmt 11) (t.sN o.a))) 1 0) s

end Sys2Proof.Machine
end

