-- ==== Sys2Proof/Machine/ScalarDec.lean ====
section
/-!
DEFINITION. The scalar decimal64 ops (spec 06 R180, R181; 03 R85-R89).
-/
namespace Sys2Proof.Machine

/-- A decimal64 result under DMODE, its flags set in DFL or trapped (R180). -/
def decimalOp (lat : Nat) (o : RRR) (f : Nat → Nat → Nat → FRes) (s : State) : Out :=
  onTile (fun t =>
    let r := f t.dmode (t.sN o.a) (t.sN o.b)
    t.landArith o.d (BitVec.ofNat 64 r.val) (dFlags r.fl) lat) s

def execDadd (o : RRR) (s : State) : Out := decimalOp 6 o dAdd s
def execDsub (o : RRR) (s : State) : Out := decimalOp 6 o dSub s
def execDmul (o : RRR) (s : State) : Out := decimalOp 10 o dMul s
def execDdiv (o : RRR) (s : State) : Out := decimalOp 44 o dDiv s
def execDquant (o : RRR) (s : State) : Out := decimalOp 6 o dQuant s

/-- DFMA: as FMA, exact before one rounding (R180). -/
def execDfma (o : RRR) (x : Ext) (s : State) : Out :=
  onTile (fun t =>
    let r := dMulAdd t.dmode (t.sN o.a) (t.sN o.b) (t.addend o x)
    t.landArith o.d (BitVec.ofNat 64 r.val) (dFlags r.fl) 12) s

/-- DRINT: its m names the rounding, 0 being DMODE (R180). -/
def execDrint (o : RRR) (s : State) : Out :=
  decimalOp 6 o (fun rm x _ => dRint (if o.m = 0 then rm else o.m.toNat - 1) x) s

/-- DCMP (R181). -/
def execDcmp (o : RRR) (s : State) : Out :=
  onTile (fun t =>
    let r := dCompare o.m.toNat (t.sN o.a) (t.sN o.b)
    t.landCond (low3 o.d) r.1 (dFlags r.2) 2) s

/-- DCVT (R181): exactly one type is .d64. -/
def execDcvt (o : RRR) (s : State) : Out :=
  onTile (fun t =>
    let src := o.m.toNat
    let dst := o.b.toNat
    let r := dConvert t.dmode t.fmode src dst (t.sN o.a % 2 ^ typeWidth src)
    t.landArith o.d (placeScalar dst r.val) (dFlags r.fl) 10) s

/-- DCLASS (R90). -/
def execDclass (o : RRR) (s : State) : Out :=
  onTile (fun t => t.landS o.d (BitVec.ofNat 64 (dClass (t.sN o.a))) 1 0) s

end Sys2Proof.Machine
end

