-- ==== Sys2Proof/Machine/Streams.lean ====
section
/-!
DEFINITION. The stream ops (07 R223-R226).
-/
namespace Sys2Proof.Machine

/-- SETS (R223): the record is read and validated at c+3 and replaces the stream at c+4. -/
def execSets (o : MM) (x : Ext) (s : State) : Out :=
  let ea := s.tile.ea o x 64
  checked (fun _ => [alignFault ea 64]) 2 (onTile fun t =>
    let src : Src := .read .sp (t.spSources [ea] 64) none
    ((t.spNote [ea] 64).bookSp (t.c + 3) (t.spReached [ea] 64) false false 2).addResult
      (.stream (o.t.setWidth 4)) (t.c + 4) (t.c + 3) src (BitVec.allOnes 64) 0 2) s

/-- The stream that an SRD, SWR or SGET names. -/
def mmStream (o : MM) : BitVec 4 := o.base.setWidth 4

/-- Move one element and advance the stream (R221, R224). -/
def streamElement (o : MM) (write : Bool) (f : Tile → Nat → Nat → Tile) (s : State) : Out :=
  let n := accessSize o.ty
  let st := s.tile.ct.cx.rdA (mmStream o)
  checked (fun _ => [streamFault st (mmStream o).toNat write n]) 2 (onTile fun t =>
    (f t (recAddr st.record st.pos) n).later (.stream (mmStream o) (streamNext st 1))) s

/-- SRD (R224). -/
def execSrd (o : MM) (s : State) : Out :=
  streamElement o false (fun t a n => t.spLoad (.s o.t) [a] n (accessSext o.ty)) s

/-- SWR (R224). -/
def execSwr (o : MM) (s : State) : Out :=
  streamElement o true (fun t a n => t.spStore [(a, t.sN o.t)] n 3 2) s

/-- SRST (R225). -/
def execSrst (o : MM) (s : State) : Out :=
  let n : BitVec 4 := o.t.setWidth 4
  if (s.tile.ct.cx.rdA n).valid then onTile (·.later (.srst n)) s
  else trapOut .shapeFault (shapeTval 9 n.toNat 0) 2 s

/-- The field of a stream that SGET selects (R226). The index digits are those of POS, before the permutation that R219 applies with SHUF = 1
(DEDUCED, log 59). -/
def Stream.field (st : Stream) (sel : Nat) : Nat :=
  let r := st.record
  let i (k : Nat) : Nat := recIndex r st.pos k
  if !st.valid then
    if sel = 5 then (if recWrite r then 2 else 0) + (if recShuf r then 4 else 0) + (if recBlk r then 8 else 0)
      + recNdim r * 16 + recFmt r * 256
    else 0
  else
    match sel with
    | 0 => st.pos
    | 1 => recN r
    | 2 => if st.pos = recN r then 0 else recAddr r st.pos
    | 3 => i 0 + i 1 * 2 ^ 32
    | 4 => i 2 + (if st.pos = recN r then (Config.freeIndex r).toNat else i 3) * 2 ^ 32
    | 5 => 1 + (if recWrite r then 2 else 0) + (if recShuf r then 4 else 0) + (if recBlk r then 8 else 0)
        + recNdim r * 16 + recFmt r * 256
    | _ => recBase r

/-- SGET (R226). -/
def execSget (o : MM) (s : State) : Out :=
  onTile (fun t => t.landS o.t (BitVec.ofNat 64 ((t.ct.cx.rdA (mmStream o)).field (o.off.toNat % 8))) 1 2) s

end Sys2Proof.Machine
end

