-- ==== Sys2Proof/Machine/VectorMove.lean ====
section
/-!
DEFINITION. Reductions (03 R103; 04 R124), lane moves (04 R125) and the vector shadow compare (04 R137).
-/
namespace Sys2Proof.Machine

/-! ### Reductions -/

/-- A leaf or node of the tree of R103: its value and the lowest active lane that feeds it; none for NONE. -/
abbrev RNode := Option (Nat × Nat)

/-- One node of the tree, with the flags it raised by that lane. An input beside NONE goes on unchanged, a NaN or a decimal that is not
canonical too, as R103 says (DEDUCED, log 60). -/
def reduceNode (f : Nat → Nat → FRes) (x y : RNode) : RNode × List (Nat × Nat) :=
  match x, y with
  | none, y => (y, [])
  | x, none => (x, [])
  | some a, some b => let r := f a.1 b.1; (some (r.val, a.2), [(a.2, r.fl)])

/-- One level of the tree. -/
def reduceLevel (f : Nat → Nat → FRes) : List RNode → List RNode × List (Nat × Nat)
  | x :: y :: r =>
    let n := reduceNode f x y
    let l := reduceLevel f r
    (n.1 :: l.1, n.2 ++ l.2)
  | l => (l, [])

/-- The tree over at most 2^k leaves (R103). -/
def reduceTree (f : Nat → Nat → FRes) : Nat → List RNode → RNode × List (Nat × Nat)
  | 0, l => ((l.headD none), [])
  | k + 1, l =>
    let s := reduceLevel f l
    let r := reduceTree f k s.1
    (r.1, s.2 ++ r.2)

/-- A reduction of the active lanes of a into lane 0 of d, the other lanes zero (R124). -/
def reduceLanes (o : RRR) (x : Ext) (f : Tile → Nat → Nat → FRes) (empty : Nat) (dec : Bool) (s : State) : Out :=
  let w := typeWidth o.m.toNat
  checked (vecFaults [o.a] (some o.d) (w / 8)) 1 (onTile fun t =>
    let leaves := (t.lanesOf o.a w).zipIdx.map fun e => if t.active x e.2 then some e else none
    let r := reduceTree (f t) 6 leaves
    let fl := (List.range (laneCount w)).map fun i =>
      ((r.2.filter fun e => e.1 == i).map (·.2)).foldl (· ||| ·) 0
    let v := (r.1.map (·.1)).getD empty
    (t.useAll [o.a] (w / 8)).arith (fl.map fun n => if dec then dFlags n else bFlags n) 6 1 fun t fl =>
      t.vWrite o.d (w / 8) (laneCount w) (ofLanes w [v]) (fun _ => true) fl 6 1) s

/-- The node of VRADD (R103). -/
def raddNode (m : Nat) (t : Tile) (x y : Nat) : FRes :=
  if m = 12 then dAdd t.dmode x y
  else if m < 8 then ⟨(x + y) % 2 ^ typeWidth m, 0⟩
  else fAdd (bfmt m) t.fmode x y

/-- The node of VRMAX and VRMIN (R103). -/
def rminMaxNode (isMax : Bool) (m : Nat) (_t : Tile) (x y : Nat) : FRes :=
  let w := typeWidth m
  if m < 8 then ⟨if decide (laneInt m w x < laneInt m w y) == isMax then y else x, 0⟩
  else fMinMax (bfmt m) isMax x y

/-- VRADD (R124); the empty reduction of .d64 is 0 with q = 0. -/
def execVradd (o : RRR) (x : Ext) (s : State) : Out :=
  reduceLanes o x (raddNode o.m.toNat) (if o.m = 12 then 0x31C0_0000_0000_0000 else 0) (o.m == 12) s
def execVrmax (o : RRR) (x : Ext) (s : State) : Out := reduceLanes o x (rminMaxNode true o.m.toNat) 0 false s
def execVrmin (o : RRR) (x : Ext) (s : State) : Out := reduceLanes o x (rminMaxNode false o.m.toNat) 0 false s

/-! ### Moving lanes (R125) -/

/-- A move into the active lanes of d, from lanes read at c. -/
def moveLanes (o : RRR) (x : Ext) (fs : List (BitVec 6)) (f : Tile → Nat → List Nat) (s : State) : Out :=
  let w := typeWidth o.m.toNat
  checked (vecFaults fs (some o.d) (w / 8)) 1 (onTile fun t =>
    (t.useAll fs (w / 8)).vWrite o.d (w / 8) (laneCount w) (ofLanes w (f t w)) (t.active x) 0 2 1) s

/-- VBCAST: s[a] into every lane. -/
def execVbcast (o : RRR) (x : Ext) (s : State) : Out :=
  moveLanes o x [] (fun t w => List.replicate (laneCount w) (t.sN o.a % 2 ^ w)) s

/-- VEXT: a lane to a scalar; an .i lane is sign-extended. -/
def execVext (o : RRR) (s : State) : Out :=
  let w := typeWidth o.m.toNat
  checked (vecFaults [o.a] none (w / 8)) 1 (onTile fun t =>
    let v := (t.lanesOf o.a w).getD (t.sN o.b % laneCount w) 0
    (t.useAll [o.a] (w / 8)).landS o.d (placeScalar o.m.toNat v) 2 1) s

/-- VINS: a scalar into one lane of d; the byte enables are those of that lane alone, none when it is inactive. -/
def execVins (o : RRR) (x : Ext) (s : State) : Out :=
  let w := typeWidth o.m.toNat
  onTile (fun t =>
    let j := t.sN o.b % laneCount w
    t.vWrite o.d (w / 8) (laneCount w) (ofLanes w (List.replicate (laneCount w) (t.sN o.a)))
      (fun i => i == j && t.active x i) 0 2 1) s

/-- VPERM: lane b[i] mod N of a. -/
def execVperm (o : RRR) (x : Ext) (s : State) : Out :=
  moveLanes o x [o.a, o.b] (fun t w =>
    let l := t.lanesOf o.a w
    (t.lanesOf o.b w).map fun i => l.getD (i % laneCount w) 0) s

/-- VSLIDE: lane i − t of a, zero outside. -/
def execVslide (o : RRR) (x : Ext) (s : State) : Out :=
  moveLanes o x [o.a] (fun t w =>
    let l := t.lanesOf o.a w
    let k := (t.s o.b).toInt
    (List.range (laneCount w)).map fun (i : Nat) =>
      let j : Int := i - k
      if 0 ≤ j then l.getD j.toNat 0 else 0) s

/-- VCOMPRESS: the selected lanes of a, packed in ascending order. -/
def execVcompress (o : RRR) (x : Ext) (s : State) : Out :=
  moveLanes o x [o.a] (fun t w =>
    ((t.lanesOf o.a w).zipIdx.filter fun e => (t.ct.cx.rdK (low3 o.b)).getLsbD e.2).map (·.1)) s

/-- VIOTA: selector bits below each lane. -/
def execViota (o : RRR) (x : Ext) (s : State) : Out :=
  moveLanes o x [] (fun t w => (List.range (laneCount w)).map fun i => popCount i (t.ct.cx.rdK (low3 o.a)).toNat) s

/-! ### Shadow compare (R137) -/

/-- VCHK: a differing active byte is a silent error. -/
def execVchk (o : RRR) (x : Ext) (s : State) : Out :=
  checked (vecFaults [o.a, o.b] none 1) 1 (fun s =>
    let t := s.tile
    let diff := ((t.lanesOf o.a 8).zip (t.lanesOf o.b 8)).zipIdx.find? fun e => e.1.1 != e.1.2 && t.active x e.2
    match diff with
    | some e => trapOut .shadowMismatch (e.2 + o.a.toNat * 2 ^ 6 + o.b.toNat * 2 ^ 12) 1 s
    | none => onTile (·.useAll [o.a, o.b] 1) s) s

end Sys2Proof.Machine
end

