-- ==== Sys2Proof/Machine/Dispatch.lean ====
section
/-!
DEFINITION. One arm per instruction: the meaning it calls, or its rejection by name.
-/
namespace Sys2Proof.Machine

/-- The meaning of one instruction or event. -/
def exec (i : Instr) (s : State) : Host.Outcome State Fault Refusal :=
  match i with
  | .nop => Sys2Proof.Machine.execNop s
  | .bprep o => Sys2Proof.Machine.execBprep o s
  | .bprepr o => Sys2Proof.Machine.execBprepr o s
  | .bt o => Sys2Proof.Machine.execBt o s
  | .bf o => Sys2Proof.Machine.execBf o s
  | .ba o => Sys2Proof.Machine.execBa o s
  | .call o => Sys2Proof.Machine.execCall o s
  | .ret o => Sys2Proof.Machine.execRet o s
  | .binv o => Sys2Proof.Machine.execBinv o s
  | .loop o x => Sys2Proof.Machine.execLoop o x s
  | .loopi o x => Sys2Proof.Machine.execLoopi o x s
  | .loopp o x => Sys2Proof.Machine.execLoopp o x s
  | .lexit o => Sys2Proof.Machine.execLexit o s
  | .lidx o => Sys2Proof.Machine.execLidx o s
  | .seg o x => Sys2Proof.Machine.execSeg o x s
  | .nodeend => Sys2Proof.Machine.execNodeend s
  | .condw o => Sys2Proof.Machine.execCondw o s
  | .phase o => Sys2Proof.Machine.execPhase o s
  | .waitc o x => Sys2Proof.Machine.execWaitc o x s
  | .rdcyc o => Sys2Proof.Machine.execRdcyc o s
  | .calign o => Sys2Proof.Machine.execCalign o s
  | .fence o => Sys2Proof.Machine.execFence o s
  | .trap o x => Sys2Proof.Machine.execTrap o x s
  | .tret => Sys2Proof.Machine.execTret s
  | .rep o x => Sys2Proof.Machine.execRep o x s
  | .cmp o => Sys2Proof.Machine.execCmp o s
  | .cmpi o x => Sys2Proof.Machine.execCmpi o x s
  | .qop o => Sys2Proof.Machine.execQop o s
  | .qmov o => Sys2Proof.Machine.execQmov o s
  | .schk o => Sys2Proof.Machine.execSchk o s
  | .csrr o => Sys2Proof.Machine.execCsrr o s
  | .csrw o => Sys2Proof.Machine.execCsrw o s
  | .add o => Sys2Proof.Machine.execAdd o s
  | .sub o => Sys2Proof.Machine.execSub o s
  | .and o => Sys2Proof.Machine.execAnd o s
  | .or o => Sys2Proof.Machine.execOr o s
  | .xor o => Sys2Proof.Machine.execXor o s
  | .andn o => Sys2Proof.Machine.execAndn o s
  | .shl o => Sys2Proof.Machine.execShl o s
  | .shr o => Sys2Proof.Machine.execShr o s
  | .sra o => Sys2Proof.Machine.execSra o s
  | .rol o => Sys2Proof.Machine.execRol o s
  | .mul o => Sys2Proof.Machine.execMul o s
  | .mulh o => Sys2Proof.Machine.execMulh o s
  | .div o => Sys2Proof.Machine.execDiv o s
  | .rem o => Sys2Proof.Machine.execRem o s
  | .min o => Sys2Proof.Machine.execMin o s
  | .max o => Sys2Proof.Machine.execMax o s
  | .clz o => Sys2Proof.Machine.execClz o s
  | .ctz o => Sys2Proof.Machine.execCtz o s
  | .popc o => Sys2Proof.Machine.execPopc o s
  | .sext o => Sys2Proof.Machine.execSext o s
  | .zext o => Sys2Proof.Machine.execZext o s
  | .clmul o => Sys2Proof.Machine.execClmul o s
  | .clmulh o => Sys2Proof.Machine.execClmulh o s
  | .sel o x => Sys2Proof.Machine.execSel o x s
  | .addi o x => Sys2Proof.Machine.execAddi o x s
  | .andi o x => Sys2Proof.Machine.execAndi o x s
  | .ori o x => Sys2Proof.Machine.execOri o x s
  | .xori o x => Sys2Proof.Machine.execXori o x s
  | .shli o => Sys2Proof.Machine.execShli o s
  | .shri o => Sys2Proof.Machine.execShri o s
  | .srai o => Sys2Proof.Machine.execSrai o s
  | .limm o x => Sys2Proof.Machine.execLimm o x s
  | .lins o x => Sys2Proof.Machine.execLins o x s
  | .fadd o => Sys2Proof.Machine.execFadd o s
  | .fsub o => Sys2Proof.Machine.execFsub o s
  | .fmul o => Sys2Proof.Machine.execFmul o s
  | .fdiv o => Sys2Proof.Machine.execFdiv o s
  | .fsqrt o => Sys2Proof.Machine.execFsqrt o s
  | .fma o x => Sys2Proof.Machine.execFma o x s
  | .fmin o => Sys2Proof.Machine.execFmin o s
  | .fmax o => Sys2Proof.Machine.execFmax o s
  | .fcmp o => Sys2Proof.Machine.execFcmp o s
  | .fcvt o => Sys2Proof.Machine.execFcvt o s
  | .fclass o => Sys2Proof.Machine.execFclass o s
  | .dadd o => Sys2Proof.Machine.execDadd o s
  | .dsub o => Sys2Proof.Machine.execDsub o s
  | .dmul o => Sys2Proof.Machine.execDmul o s
  | .ddiv o => Sys2Proof.Machine.execDdiv o s
  | .dfma o x => Sys2Proof.Machine.execDfma o x s
  | .dquant o => Sys2Proof.Machine.execDquant o s
  | .drint o => Sys2Proof.Machine.execDrint o s
  | .dcmp o => Sys2Proof.Machine.execDcmp o s
  | .dcvt o => Sys2Proof.Machine.execDcvt o s
  | .dclass o => Sys2Proof.Machine.execDclass o s
  | .mfy o => Sys2Proof.Machine.execMfy o s
  | .mty o => Sys2Proof.Machine.execMty o s
  | .rstk o => Sys2Proof.Machine.execRstk o s
  | .rstkPush o => Sys2Proof.Machine.execRstkPush o s
  | .prefixBundle ext2 => Sys2Proof.Machine.execPrefixBundle ext2 s
  | .vadd o x => Sys2Proof.Machine.execVadd o x s
  | .vsub o x => Sys2Proof.Machine.execVsub o x s
  | .vmul o x => Sys2Proof.Machine.execVmul o x s
  | .vmulh o x => Sys2Proof.Machine.execVmulh o x s
  | .vand o x => Sys2Proof.Machine.execVand o x s
  | .vor o x => Sys2Proof.Machine.execVor o x s
  | .vxor o x => Sys2Proof.Machine.execVxor o x s
  | .vandn o x => Sys2Proof.Machine.execVandn o x s
  | .vshl o x => Sys2Proof.Machine.execVshl o x s
  | .vshr o x => Sys2Proof.Machine.execVshr o x s
  | .vsra o x => Sys2Proof.Machine.execVsra o x s
  | .vmin o x => Sys2Proof.Machine.execVmin o x s
  | .vmax o x => Sys2Proof.Machine.execVmax o x s
  | .vabs o x => Sys2Proof.Machine.execVabs o x s
  | .vadds o x => Sys2Proof.Machine.execVadds o x s
  | .vsubs o x => Sys2Proof.Machine.execVsubs o x s
  | .vcmp o x => Sys2Proof.Machine.execVcmp o x s
  | .vsel o x => Sys2Proof.Machine.execVsel o x s
  | .vclmul o x => Sys2Proof.Machine.execVclmul o x s
  | .vpopc o x => Sys2Proof.Machine.execVpopc o x s
  | .vclz o x => Sys2Proof.Machine.execVclz o x s
  | .vshli o x => Sys2Proof.Machine.execVshli o x s
  | .vshri o x => Sys2Proof.Machine.execVshri o x s
  | .vsrai o x => Sys2Proof.Machine.execVsrai o x s
  | .vfadd o x => Sys2Proof.Machine.execVfadd o x s
  | .vfsub o x => Sys2Proof.Machine.execVfsub o x s
  | .vfmul o x => Sys2Proof.Machine.execVfmul o x s
  | .vfma o x => Sys2Proof.Machine.execVfma o x s
  | .vfdiv o x => Sys2Proof.Machine.execVfdiv o x s
  | .vfsqrt o x => Sys2Proof.Machine.execVfsqrt o x s
  | .vfmin o x => Sys2Proof.Machine.execVfmin o x s
  | .vfmax o x => Sys2Proof.Machine.execVfmax o x s
  | .vfcmp o x => Sys2Proof.Machine.execVfcmp o x s
  | .vfcvt o x => Sys2Proof.Machine.execVfcvt o x s
  | .vfscale o x => Sys2Proof.Machine.execVfscale o x s
  | .vfsgn o x => Sys2Proof.Machine.execVfsgn o x s
  | .vdadd o x => Sys2Proof.Machine.execVdadd o x s
  | .vdsub o x => Sys2Proof.Machine.execVdsub o x s
  | .vdmul o x => Sys2Proof.Machine.execVdmul o x s
  | .vdfma o x => Sys2Proof.Machine.execVdfma o x s
  | .vdquant o x => Sys2Proof.Machine.execVdquant o x s
  | .vdcmp o x => Sys2Proof.Machine.execVdcmp o x s
  | .vradd o x => Sys2Proof.Machine.execVradd o x s
  | .vrmax o x => Sys2Proof.Machine.execVrmax o x s
  | .vrmin o x => Sys2Proof.Machine.execVrmin o x s
  | .vbcast o x => Sys2Proof.Machine.execVbcast o x s
  | .vext o => Sys2Proof.Machine.execVext o s
  | .vins o x => Sys2Proof.Machine.execVins o x s
  | .vperm o x => Sys2Proof.Machine.execVperm o x s
  | .vslide o x => Sys2Proof.Machine.execVslide o x s
  | .vcompress o x => Sys2Proof.Machine.execVcompress o x s
  | .viota o x => Sys2Proof.Machine.execViota o x s
  | .kand o => Sys2Proof.Machine.execKand o s
  | .kor o => Sys2Proof.Machine.execKor o s
  | .kxor o => Sys2Proof.Machine.execKxor o s
  | .knot o => Sys2Proof.Machine.execKnot o s
  | .kpopc o => Sys2Proof.Machine.execKpopc o s
  | .kmov o => Sys2Proof.Machine.execKmov o s
  | .vdefer o x => Sys2Proof.Machine.execVdefer o x s
  | .vdrain o x => Sys2Proof.Machine.execVdrain o x s
  | .dqcnt o => Sys2Proof.Machine.execDqcnt o s
  | .vrng o => Sys2Proof.Machine.execVrng o s
  | .vgauss o => Sys2Proof.Machine.execVgauss o s
  | .vchk o x => Sys2Proof.Machine.execVchk o x s
  | .vbqpack o x => Sys2Proof.Machine.execVbqpack o x s
  | .vbqunpk o x => Sys2Proof.Machine.execVbqunpk o x s
  | .ld o x => Sys2Proof.Machine.execLd o x s
  | .st o x => Sys2Proof.Machine.execSt o x s
  | .vld o x => Sys2Proof.Machine.execVld o x s
  | .vst o x => Sys2Proof.Machine.execVst o x s
  | .vgather o => Sys2Proof.Machine.execVgather o s
  | .vscatter o => Sys2Proof.Machine.execVscatter o s
  | .sets o x => Sys2Proof.Machine.execSets o x s
  | .srd o => Sys2Proof.Machine.execSrd o s
  | .swr o => Sys2Proof.Machine.execSwr o s
  | .srst o => Sys2Proof.Machine.execSrst o s
  | .sget o => Sys2Proof.Machine.execSget o s
  | .ldv o x => Sys2Proof.Machine.execLdv o x s
  | .stv o x => Sys2Proof.Machine.execStv o x s
  | .vldv o x => Sys2Proof.Machine.execVldv o x s
  | .vstv o x => Sys2Proof.Machine.execVstv o x s
  | .drive o => Sys2Proof.Machine.execDrive o s
  | .tap o => Sys2Proof.Machine.execTap o s
  | .drives o => Sys2Proof.Machine.execDrives o s
  | .taps o => Sys2Proof.Machine.execTaps o s
  | .aadd o x => Sys2Proof.Machine.execAadd o x s
  | .amax o x => Sys2Proof.Machine.execAmax o x s
  | .aswap o x => Sys2Proof.Machine.execAswap o x s
  | .acas o x => Sys2Proof.Machine.execAcas o x s
  | .aor o x => Sys2Proof.Machine.execAor o x s
  | .binit o x => Sys2Proof.Machine.execBinit o x s
  | .barv o x => Sys2Proof.Machine.execBarv o x s
  | .bwait o x => Sys2Proof.Machine.execBwait o x s
  | .bbytes o x => Sys2Proof.Machine.execBbytes o x s
  | .stage o x => Sys2Proof.Machine.execStage o x s
  | .stagew o x => Sys2Proof.Machine.execStagew o x s
  | .pubs o => Sys2Proof.Machine.execPubs o s
  | .hqry o => Sys2Proof.Machine.execHqry o s
  | .pubidx o x => Sys2Proof.Machine.execPubidx o x s
  | .cloadb o => Sys2Proof.Machine.execCloadb o s
  | .cloadbq o => Sys2Proof.Machine.execCloadbq o s
  | .cmm o => Sys2Proof.Machine.execCmm o s
  | .cmmq o => Sys2Proof.Machine.execCmmq o s
  | .caccz o => Sys2Proof.Machine.execCaccz o s
  | .caccrd o => Sys2Proof.Machine.execCaccrd o s
  | .caccst o => Sys2Proof.Machine.execCaccst o s
  | .pipm o x => Sys2Proof.Machine.execPipm o x s
  | .dmma o => Sys2Proof.Machine.execDmma o s
  | .dxz o => Sys2Proof.Machine.execDxz o s
  | .dxld o => Sys2Proof.Machine.execDxld o s
  | .dxst o => Sys2Proof.Machine.execDxst o s
  | .dchk o => Sys2Proof.Machine.execDchk o s
  | .dxfix o => Sys2Proof.Machine.execDxfix o s
  | .dxrd o => Sys2Proof.Machine.execDxrd o s
  | .segmentCountLimit => Sys2Proof.Machine.execSegmentCountLimit s
  | .bTargetReady b => Sys2Proof.Machine.execBTargetReady b s
  | .returnEntryReady => Sys2Proof.Machine.execReturnEntryReady s
  | .repReissue => Sys2Proof.Machine.execRepReissue s
  | .loopBufferIssue => Sys2Proof.Machine.execLoopBufferIssue s
  | .waitcResume => Sys2Proof.Machine.execWaitcResume s
  | .stagewResume => Sys2Proof.Machine.execStagewResume s
  | .fenceResume => Sys2Proof.Machine.execFenceResume s
  | .resultLanding => Sys2Proof.Machine.execResultLanding s
  | .memoryWriteLanding => Sys2Proof.Machine.execMemoryWriteLanding s
  | .vaultBankAccess => Sys2Proof.Machine.execVaultBankAccess s
  | .atomicWindow => Sys2Proof.Machine.execAtomicWindow s
  | .barrierWindow => Sys2Proof.Machine.execBarrierWindow s
  | .bwaitWake => Sys2Proof.Machine.execBwaitWake s
  | .bwaitTimeout => Sys2Proof.Machine.execBwaitTimeout s
  | .barrierBreak pid => Sys2Proof.Machine.execBarrierBreak pid s
  | .commonsSlotService => Sys2Proof.Machine.execCommonsSlotService s
  | .missedPromise => Sys2Proof.Machine.execMissedPromise s
  | .channelArrival => Sys2Proof.Machine.execChannelArrival s
  | .channelEntryDrop => Sys2Proof.Machine.execChannelEntryDrop s
  | .cimPlaneWrite => Sys2Proof.Machine.execCimPlaneWrite s
  | .cimAccumulateAdd => Sys2Proof.Machine.execCimAccumulateAdd s
  | .dmmaLanding => Sys2Proof.Machine.execDmmaLanding s
  | .xRegisterLanding => Sys2Proof.Machine.execXRegisterLanding s
  | .checksum => Sys2Proof.Machine.execChecksum s
  | .engineStreamAccess => Sys2Proof.Machine.execEngineStreamAccess s
  | .finjWrite v => Sys2Proof.Machine.execFinjWrite v s
  | .finjFire => Sys2Proof.Machine.execFinjFire s
  | .imemShareReload => Sys2Proof.Machine.execImemShareReload s
  | .groupHalt => Sys2Proof.Machine.execGroupHalt s
  | .nodeRerunStart => Sys2Proof.Machine.execNodeRerunStart s
  | .trapStop => Sys2Proof.Machine.execTrapStop s
  | .handlerEntry => Sys2Proof.Machine.execHandlerEntry s
  | .contextResume => Sys2Proof.Machine.execContextResume s
  | .handlerFaultEnd => Sys2Proof.Machine.execHandlerFaultEnd s
  | .silentErrorKill => Sys2Proof.Machine.execSilentErrorKill s
  | .preemptDelivery pid => Sys2Proof.Machine.execPreemptDelivery pid s
  | .contextSwitch => Sys2Proof.Machine.execContextSwitch s
  | .contextSwitchIn => Sys2Proof.Machine.execContextSwitchIn s
  | .contextStreamOut => Sys2Proof.Machine.execContextStreamOut s
  | .contextStreamIn => Sys2Proof.Machine.execContextStreamIn s
  | .partitionSwitchIn pid => Sys2Proof.Machine.execPartitionSwitchIn pid s
  | .nodeEnd pid strand => Sys2Proof.Machine.execNodeEnd pid strand s
  | .checkpointComplete pid => Sys2Proof.Machine.execCheckpointComplete pid s
  | .walkerCodeStart pid strand => Sys2Proof.Machine.execWalkerCodeStart pid strand s
  | .walkerBranch pid strand => Sys2Proof.Machine.execWalkerBranch pid strand s
  | .walkerWhile pid strand => Sys2Proof.Machine.execWalkerWhile pid strand s
  | .walkerCollect pid strand => Sys2Proof.Machine.execWalkerCollect pid strand s
  | .walkerFinish pid strand => Sys2Proof.Machine.execWalkerFinish pid strand s
  | .jobStart pid => Sys2Proof.Machine.execJobStart pid s
  | .dualCompare jobid => Sys2Proof.Machine.execDualCompare jobid s
  | .beacon => Sys2Proof.Machine.execBeacon s
  | .beaconArrival quad dir => Sys2Proof.Machine.execBeaconArrival quad dir s
  | .drift => Sys2Proof.Machine.execDrift s
  | .powerDecision watts hottest => Sys2Proof.Machine.execPowerDecision watts hottest s
  | .thermalPause => Sys2Proof.Machine.execThermalPause s
  | .thermalResume => Sys2Proof.Machine.execThermalResume s
  | .thermalTimeout => Sys2Proof.Machine.execThermalTimeout s
  | .carrierTrip => Sys2Proof.Machine.execCarrierTrip s
  | .unitRetirement found => Sys2Proof.Machine.execUnitRetirement found s
  | .jobReplacement jobid => Sys2Proof.Machine.execJobReplacement jobid s
  | .checkpointRollback pid => Sys2Proof.Machine.execCheckpointRollback pid s
  | .rollbackRestart pid => Sys2Proof.Machine.execRollbackRestart pid s
  | .huskWindowSwapin pid engine => Sys2Proof.Machine.execHuskWindowSwapin pid engine s
  | .translation => Sys2Proof.Machine.execTranslation s
  | .huskLocalLineWrite => Sys2Proof.Machine.execHuskLocalLineWrite s
  | .huskSourceRead => Sys2Proof.Machine.execHuskSourceRead s
  | .huskPromiseMiss pid engine => Sys2Proof.Machine.execHuskPromiseMiss pid engine s
  | .huskBarrierDecrement => Sys2Proof.Machine.execHuskBarrierDecrement s
  | .portLinkDown port => Sys2Proof.Machine.execPortLinkDown port s
  | .linkDownTimeout => Sys2Proof.Machine.execLinkDownTimeout s
  | .handoverTimeout => Sys2Proof.Machine.execHandoverTimeout s
  | .stailWrite ring v => Sys2Proof.Machine.execStailWrite ring v s
  | .cheadWrite ring v => Sys2Proof.Machine.execCheadWrite ring v s
  | .mcringWrite port v => Sys2Proof.Machine.execMcringWrite port v s
  | .barRegisterWrite port offset v => Sys2Proof.Machine.execBarRegisterWrite port offset v s
  | .submissionConsume ring data image => Sys2Proof.Machine.execSubmissionConsume ring data image s
  | .badSeq ring => Sys2Proof.Machine.execBadSeq ring s
  | .completionEntryWrite ring => Sys2Proof.Machine.execCompletionEntryWrite ring s
  | .identify c => Sys2Proof.Machine.execIdentify c s
  | .attest c => Sys2Proof.Machine.execAttest c s
  | .claim c => Sys2Proof.Machine.execClaim c s
  | .handover c => Sys2Proof.Machine.execHandover c s
  | .accept c => Sys2Proof.Machine.execAccept c s
  | .release c => Sys2Proof.Machine.execRelease c s
  | .queryJob c => Sys2Proof.Machine.execQueryJob c s
  | .queryMap c => Sys2Proof.Machine.execQueryMap c s
  | .readDigest c => Sys2Proof.Machine.execReadDigest c s
  | .readUtil c => Sys2Proof.Machine.execReadUtil c s
  | .readErrors c => Sys2Proof.Machine.execReadErrors c s
  | .loadImage c => Sys2Proof.Machine.execLoadImage c s
  | .verifyImage c => Sys2Proof.Machine.execVerifyImage c s
  | .admitJob c => Sys2Proof.Machine.execAdmit c s
  | .launch c => Sys2Proof.Machine.execLaunch c s
  | .cancel c => Sys2Proof.Machine.execCancel c s
  | .preempt c => Sys2Proof.Machine.execPreempt c s
  | .migrateOut c => Sys2Proof.Machine.execMigrateOut c s
  | .checkpoint c => Sys2Proof.Machine.execCheckpoint c s
  | .restore c => Sys2Proof.Machine.execRestore c s
  | .retireUnit c => Sys2Proof.Machine.execRetireUnit c s
  | .copyIn c => Sys2Proof.Machine.execCopyIn c s
  | .copyOut c => Sys2Proof.Machine.execCopyOut c s
  | .setTime c => Sys2Proof.Machine.execSetTime c s
  | .powerGood => Sys2Proof.Machine.execPowerGood s
  | .moduleReset => Sys2Proof.Machine.execModuleReset s
  | .bootComplete => Sys2Proof.Machine.execBootComplete s
  | .podJoin member => Sys2Proof.Machine.execPodJoin member s
  | .tickEdge => Sys2Proof.Machine.execTickEdge s
  | .ptpMessage time => Sys2Proof.Machine.execPtpMessage time s
  | .grandmasterLoss => Sys2Proof.Machine.execGrandmasterLoss s
  | .podJobStart jobid news => Sys2Proof.Machine.execPodJobStart jobid news s
  | .fabricSlotSend stream => Sys2Proof.Machine.execFabricSlotSend stream s
  | .fabricBatchPublish stream batch => Sys2Proof.Machine.execFabricBatchPublish stream batch s
  | .fabricBeacon src count slots => Sys2Proof.Machine.execFabricBeacon src count slots s
  | .fabricLaneFail port lane => Sys2Proof.Machine.execFabricLaneFail port lane s
  | .fabricPortFail port => Sys2Proof.Machine.execFabricPortFail port s
  | .podMemberLost id => Sys2Proof.Machine.execPodMemberLost id s
  | .portLinkUp port => Sys2Proof.Machine.execPortLinkUp port s
  | .retimingBufferSlip quad dir => Sys2Proof.Machine.execRetimingBufferSlip quad dir s
  | .softError site bits => Sys2Proof.Machine.execSoftError site bits s
  | .counterCopyFault quad site delta => Sys2Proof.Machine.execCounterCopyFault quad site delta s
  | .thermalAdmissionResume => Sys2Proof.Machine.execThermalAdmissionResume s

end Sys2Proof.Machine
end

