-- ==== Sys2Proof/Machine/Issue.lean ====
section
/-!
DEFINITION. The issue of one bundle of the tile in focus (spec 01 R24-R31, R45-R53; 05 R146, R152): fetch, the checks in the
order of R53, the ops in slot order, the checks of order 7, the commit, the segment and the next bundle.
-/
namespace Sys2Proof.Machine

/-- The ops of a bundle with the words they stand in. -/
structure Bundle where
  words : List OpWord
  ops : List Instr
  deriving DecidableEq, Repr

/-! ### The checks of encoding (R51, R52) -/

/-- Streams that an op names as sources or destinations of elements (R34). -/
def namings (i : Instr) : List (BitVec 4) :=
  let vec (fs : List (BitVec 6)) : List (BitVec 4) := fs.filterMap streamOf
  match i with
  | .vadd o _ | .vsub o _ | .vmul o _ | .vmulh o _ | .vand o _ | .vor o _ | .vxor o _ | .vandn o _ | .vshl o _ | .vshr o _
  | .vsra o _ | .vmin o _ | .vmax o _ | .vadds o _ | .vsubs o _ | .vsel o _ | .vclmul o _ | .vfadd o _ | .vfsub o _
  | .vfmul o _ | .vfma o _ | .vfdiv o _ | .vfmin o _ | .vfmax o _ | .vfscale o _ | .vfsgn o _ | .vdadd o _ | .vdsub o _
  | .vdmul o _ | .vdfma o _ | .vdquant o _ | .vperm o _ => vec [o.d, o.a, o.b]
  | .vabs o _ | .vpopc o _ | .vclz o _ | .vshli o _ | .vshri o _ | .vsrai o _ | .vfsqrt o _ | .vfcvt o _ | .vradd o _
  | .vrmax o _ | .vrmin o _ | .vslide o _ | .vcompress o _ | .vbqpack o _ | .vbqunpk o _ => vec [o.d, o.a]
  | .vcmp o _ | .vfcmp o _ | .vdcmp o _ | .vchk o _ => vec [o.a, o.b]
  | .vbcast o _ | .viota o _ => vec [o.d]
  | .vrng o | .vgauss o => vec [o.d]
  | .vext o => vec [o.a]
  | .srd o | .swr o => [o.base.setWidth 4]
  | .cloadb o | .cloadbq o | .cmm o | .cmmq o | .caccst o | .dxld o | .dxst o => [o.sa]
  | .dmma o => [o.sa, o.sb]
  | _ => []

/-- Is some element repeated? -/
def hasRepeat : List (BitVec 4) → Bool
  | [] => false
  | x :: xs => xs.contains x || hasRepeat xs

/-- Does an op name a stream a second time, `seen` being those that ops before it name (R34)? -/
def secondNaming (seen : List (BitVec 4)) (i : Instr) : Bool := hasRepeat (namings i) || (namings i).any seen.contains

/-- A prefix bundle must be followed sequentially by a C op (R26): not by a header, a prefix, the pad word or another slot. -/
def Tile.prefixOk (t : Tile) : Bool :=
  let a := t.afterAddr
  if t.ct.codeEnd ≤ a then false
  else let w := t.word a; w != padWord && !w.isHeader && w.slot == 0

/-- ILLEGAL_OP cases of order 4 that depend on where the bundle stands (R146, R162, R232, R261, R282), or on the contents of x (R247). -/
def Tile.misplaced (t : Tile) (i : Instr) : Bool :=
  (match i with
    | .prefixBundle _ => !t.prefixOk
    | .nodeend | .drive _ | .tap _ | .drives _ | .taps _ => t.inHandler
    | .dxrd o => t.inHandler || t.noCell o
    | _ => t.inHandler && opIsX i) ||
  (t.isLast && opNotLast i) || (t.ct.sq.buffer.isSome && opNotBuffered i)

/-- The ops of a bundle word by word, in word order, or the slot of the first word that order 4 of R53 refuses: by its encoding and
reserved fields, by where it stands, or because it names a stream again. -/
def Tile.readOps (t : Tile) : List (BitVec 4) → List (OpWord × Ext) → Except Nat (List Instr)
  | _, [] => .ok []
  | seen, (w, x) :: r =>
    match decodeOp w x with
    | .error _ => .error w.slot.toNat
    | .ok i =>
      if !i.wf || t.misplaced i || secondNaming seen i then .error w.slot.toNat
      else
        match t.readOps (seen ++ namings i) r with
        | .ok is => .ok (i :: is)
        | .error sl => .error sl

/-- Order 4 of R53 for the words of a bundle: the header and prefix cases, which are of the first word, then the words in their order. -/
def Tile.readBundle (t : Tile) (ws : List OpWord) (pfx : Ext) : Except Nat (List Instr) :=
  match ws with
  | [] => .ok []
  | h :: r =>
    if h.isHeader then
      if pfx.isSome || !headerOk h r.length then .error 4
      else if !r.isEmpty then t.readOps [] (lend ws none)
      else if t.misplaced (.prefixBundle h.ext2) then .error 4
      else .ok [.prefixBundle h.ext2]
    else if h.slot ≠ 0 ∧ pfx.isSome then .error 4
    else t.readOps [] (lend ws pfx)

/-- Orders 1 to 4 of R53: the cause, its slot, or the ops of the bundle. -/
def Tile.decodeHere (t : Tile) : Except (Cause × Nat) Bundle :=
  let ws := t.curWords
  if ws.any (· == 0) then .error (.zeroWord, 4)
  else if t.ct.sq.sequential && t.ct.sq.pc % 32 = 0 && !(ws.headD 0).s then .error (.packetCross, 4)
  else if 4 < ws.length || !slotsRise ws then .error (.slotOrder, 4)
  else
    match t.readBundle ws t.ct.sq.pfx with
    | .error sl => .error (.illegalOp, sl)
    | .ok ops => .ok ⟨ws, ops⟩

/-! ### The ops -/

/-- The ops of a bundle in slot order, each reading the state at c; the first that records a cause ends the bundle. -/
def runOps (n : Nat) : List Instr → State → Out
  | [], s => .next s
  | i :: is, s =>
    match exec i s with
    | .next s' => if s'.tile.dets.length = n then runOps n is s' else .next s'
    | r => r

/-! ### Order 7: collisions and capacity (R37, R38, R201, R287) -/

/-- The cycle in which a valid replay register lands; none while the context has not resumed (R39). -/
def Context.yDue (k : Context) (y : YReg) : Option Nat := k.yAt.map (· + y.remain.toNat)

/-- Is it the status of a BWAIT whose wait has not ended? Its landing cycle is not known, and `Tile.waitClash` compares it (R37, R373). -/
def Context.unplaced (k : Context) (r : Result) : Bool := k.waiting.any (·.1 == r.id) && r.src == .wait

/-- A reset of a stream in the cycle of its replacement (R17, R223, R225): two writes of POS at c+1 for which no rule gives an order. -/
def Tile.resetClash (t : Tile) : Option (Nat × Dest) :=
  t.post.findSome? fun p => match p with
    | .srst n =>
      if t.ct.inflight.any (fun r => r.y.isNone && r.due == t.c + 1 && r.dest == .stream n) ||
          t.ct.y.toList.any (fun y => y.valid && t.ct.yDue y == some (t.c + 1) && y.dest == .stream n) then some (2, .stream n)
      else none
    | _ => none

/-- Does a new result land in the register and the cycle of another (R37)? The first pair gives the register, and the slot of the
later write: of two of this bundle, the later slot. -/
def Tile.landClash (t : Tile) : Option (Nat × Dest) :=
  let rs := t.ct.inflight.filter fun r => r.y.isNone && !t.ct.unplaced r
  (rs.filter fun r => r.issue == t.c).findSome? fun r =>
    match rs.find? fun q => q.id != r.id && q.due == r.due && q.dest.clash r.dest with
    | some q => some (if q.issue = t.c then max q.slot r.slot else r.slot, r.dest.meet q.dest)
    | none =>
      (t.ct.y.toList.find? fun y => y.valid && t.ct.yDue y == some r.due && y.dest.clash r.dest).map fun y =>
        (r.slot, r.dest.meet y.dest)

/-- The tile with the stage predicates that its bundle's loop-back lands at t+1 (R155): they collide like any landing. -/
def Tile.withStages (t : Tile) (e : Option LoopEntry) : Tile :=
  match e with
  | some e => if e.pipelined then t.landStages e.next else t
  | none => t

/-- The seventeenth result in flight (R38). -/
def Tile.overflow (t : Tile) : Option Result :=
  if t.flying ≤ 16 then none
  else ((t.ct.inflight.filter fun r => r.y.isNone && !r.dest.isS0).drop
    (16 - (t.ct.y.toList.filter (·.valid)).length)).head?

/-- The checks of order 7, the first failing one recorded; `e` is the loop entry that goes on after the bundle. The spec ranks no fault
of order 7 before another, and does not say whether the stage predicates that a loop-back lands count among the sixteen results of R38:
the order, and that they do not while those of a LOOPP do, are the model's (DESIGN CHOICE, log 59). -/
def State.order7 (s : State) (e : Option LoopEntry) : State :=
  let t := s.tile
  match t.late.head?, t.csrClash with
  | some l, _ => { s with tile := t.raise .landingCollision l.1 l.2 }
  | none, some v => { s with tile := t.raise .landingCollision v 3 }
  | none, none =>
    match (t.withStages e).landClash.or t.resetClash with
    | some r => { s with tile := t.raise .landingCollision r.2.tval r.1 }
    | none =>
      match t.overflow with
      | some r => { s with tile := t.raise .landingCollision (2 ^ 63 + r.dest.tval) r.slot }
      | none =>
        s.chargeBanks

/-! ### After the bundle -/

/-- The segment after this issue (R45-R47): SEG opened one before its words are counted; a closing op compares it. -/
def Tile.segAfter (t : Tile) (b : Bundle) (last : Bool) : Tile :=
  let t := t.countSeg 1 b.words
  if b.ops.any opCloses || last then
    let t := t.closeSeg 4
    if b.ops.any opEndsStream then t else t.onSq ({ · with mustSeg := true })
  else t

/-- Forget how this bundle was reached, and take the transfer its ops chose, or go on sequentially. -/
def Tile.goNext (t : Tile) (after : Nat) : Tile :=
  t.onSq fun q =>
    match q.target with
    | some (a, copy) =>
      { q with pc := a, sequential := false, fetchCopy := some copy, target := none, pfx := none, buffer := none }
    | none => { q with pc := after, sequential := true, fetchCopy := none, pfx := none, buffer := none }

/-- The extension bits that a prefix bundle leaves for the next bundle (R26). -/
def pfxOf (ops : List Instr) : Ext :=
  match ops with
  | [.prefixBundle e] => some e
  | _ => none

/-- The cycles a REP lasts (R161). -/
def Rep.length (r : Rep) : Nat := r.count * r.interval

/-- The end of a REP: after its last cycle the sequential bundle after the buffer issues (R161). -/
def Tile.repEnd (t : Tile) : Tile :=
  match t.ct.sq.rep with
  | none => t
  | some r =>
    if t.c + 1 < r.start + r.length then t
    else t.onSq ({ · with rep := none, pc := r.after, sequential := true, fetchCopy := none })

/-- The tile has issued in this cycle. -/
def Tile.didIssue (t : Tile) : Tile := { t with issued := true }

/-- SEG. -/
def Instr.isSeg : Instr → Bool
  | .seg .. => true
  | _ => false

/-- The ops that stand in the words of a bundle, whatever else is wrong with it: what it holds opens and closes segments (R45). -/
def Tile.heldOps (t : Tile) (ws : List OpWord) : List Instr :=
  (lend ws t.ct.sq.pfx).filterMap fun w => (decodeOp w.1 w.2).toOption

/-- The tile after the op of a faulted bundle that steers it, if one does: fetch, issue and the segment go on as they would, and
nothing else of the op stays; where the op itself faulted, sequential fetch goes on, or none after a fault of fetch (R256). -/
def State.steered (s : State) (b : Bundle) : Tile :=
  let t := s.tile
  match b.ops.find? fun i => opSteers i && i.wf && !t.misplaced i with
  | none => t
  | some (.seg o x) => t.onSq fun _ => (t.openSeg (i16Card o x)).ct.sq
  | some i =>
    match exec i s with
    | .next s1 =>
      match s1.tile.dets.drop t.dets.length with
      | [] =>
        let k := s1.tile.ct
        { t with ct := { t.ct with run := k.run, after := k.after, sq := { k.sq with b := t.ct.sq.b } } }
      | d :: _ => { t with lost := fetchFault i d }
    | _ => t

/-- A bundle of which an op or a check recorded a cause: nothing of it commits but the causes, and the bundles after it issue as they
would: its issue counts in the segment, which it opens and closes by what it holds (R45), its transfer or loop-back is taken, and fetch goes on
(R256; DEDUCED, log 9). -/
def State.uncommitted (s0 s1 : State) (b : Bundle) : State :=
  let last := s0.tile.isLast
  let after := s0.tile.afterAddr
  let t := { s0.steered b with dets := s1.tile.dets }
  let t := if last && !t.lost && t.ct.sq.target.isNone then t.loopBack t.ct.sq.pc s0.tile.follow t.ct.sq.loops else t
  let t := t.segAfter b last
  let t := if t.lost then t else (t.goNext after).repEnd
  let others := updWhere (fun u => (s1.others.any fun v => v.ltid == u.ltid && v.dets.length != u.dets.length))
    (fun u => match s1.others.find? fun v => v.ltid == u.ltid with
      | some v => { u with dets := v.dets }
      | none => u) s0.others
  { s0 with tile := t.didIssue, others := others }

/-- No next bundle: empty bundles until the halt (R256). -/
def Tile.lose (t : Tile) : Tile := { t with lost := true }

/-- Utilisation counts of the attempt: ISSUE, CBUSY, VBUSY and MBUSY; WAIT and XBUSY are counted by cycle (R343). -/
def Tile.tally (t : Tile) (ops : List Instr) : Tile :=
  let has (k : Nat) : Nat := if ops.any fun i => opSlot i == k then 1 else 0
  let u := t.ct.util
  { t with ct := { t.ct with util := #v[u[0] + 1, u[1], u[2] + has 0, u[3] + has 1, u[4] + has 2, u[5]] } }

/-- A committed bundle: its changes take effect, the segment counts it, the loop goes round, and the next bundle is
chosen (R152, R157: a loop-back's advance is applied to a ROTB written by the bundle). -/
def Tile.committed (t : Tile) (b : Bundle) (last : Bool) (after : Nat) (nxt : Option Nat) : Tile :=
  let a := t.ct.sq.pc
  let t := t.commit
  let t := if last && t.ct.sq.target.isNone then t.loopBack a nxt t.ct.sq.loops else t
  let t := (t.segAfter b last).tally b.ops
  let t := t.goNext after
  let t := t.onSq fun q => { q with pfx := pfxOf b.ops }
  t.repEnd.didIssue

/-- SEG missing where R45 requires it (R49, REASON 4). -/
def Tile.segMissing (t : Tile) (b : Bundle) : Bool := t.ct.sq.mustSeg && !b.ops.any Instr.isSeg

/-- An empty bundle: REP with m = 0 (R161), or after a fault that left no next bundle (R256). -/
def Tile.emptyBundle (t : Tile) : Tile := ((t.countSeg 1 []).repEnd).didIssue

/-- A loop-back through a Stale start copy raises STALE_TARGET at the last bundle (R153): after the faults of its ops and before those
of order 7, a rank that no rule gives (DESIGN CHOICE, log 59). -/
def State.backFault (s : State) (e : Option LoopEntry) : State :=
  match e with
  | some e => if e.startStale then { s with tile := s.tile.raise .staleTarget e.start 0 } else s
  | none => s

/-- Run the ops of a decoded bundle and commit it, or not. -/
def issueOps (s : State) (b : Bundle) (extra : List Instr) : Out :=
  let t := s.tile
  let last := t.isLast
  let after := t.afterAddr
  let nxt := t.follow
  let e := if last then goesOn t.ct.sq.pc nxt t.ct.sq.loops else none
  match runOps t.dets.length (b.ops ++ extra) s with
  | .next s1 =>
    let e := if s1.tile.ct.sq.target.isSome then none else e
    let s1 := if s1.tile.dets.length = t.dets.length then s1.backFault e else s1
    if s1.tile.dets.length ≠ t.dets.length then .next (s.uncommitted s1 b)
    else
      let s2 := s1.order7 e
      if s2.tile.dets.length ≠ t.dets.length || s2.others.any (fun u => s1.others.any fun v =>
          v.ltid == u.ltid && v.dets.length != u.dets.length) then .next (s.uncommitted s2 b)
      else .next { s2 with tile := s2.tile.committed b last after nxt }
  | r => r

/-- Is the bundle about to issue already charged: the resuming bundle, by a replay register that cannot land (R40)? -/
def Tile.charged (t : Tile) : Bool := t.dets.any fun d => d.issue == t.c && d.cls == .precise

/-- Issue the bundle at the code address in `pc`. A missing SEG is found after order 4, before the ops run: a rank that no rule gives
(DESIGN CHOICE, log 59). -/
def issueAt (s : State) (extra : List Instr) : Out :=
  let t := s.tile
  match t.decodeHere with
  | .error (c, sl) =>
    let ws := t.curWords
    let ops := t.heldOps ws
    let t := t.raise c t.freeTval sl
    .next (s.uncommitted { s with tile := if ops.any Instr.isSeg then t.closeSeg 0 else t } ⟨ws, ops⟩)
  | .ok b =>
    if t.charged then .next (s.uncommitted s b)
    else if t.segMissing b then
      let v := segTval ((t.ct.sq.lastSeg).getD 0x7FFFFF) 4
      .next (s.uncommitted { s with tile := t.raise .segMismatch v 4 } b)
    else issueOps s b extra

/-- A cycle of a REP with an empty loop buffer: the reissued X op alone (R161). -/
def issueEmpty (s : State) (extra : List Instr) : Out :=
  match runOps s.tile.dets.length extra s with
  | .next s1 =>
    let s2 := if s1.tile.dets.length = s.tile.dets.length then s1.order7 none else s1
    if s2.tile.dets.length ≠ s.tile.dets.length then
      .next { s with tile := { s.tile.emptyBundle with dets := s2.tile.dets } }
    else .next { s2 with tile := ((s2.tile.commit).emptyBundle).tally [] }
  | r => r

/-- One issue cycle of the tile in focus (R31): with a REP in progress its reissued X op stands in the same cycle as the
loop-buffer bundle (R161). -/
def issueTile (s : State) : Out :=
  let t := s.tile
  let extra := t.ct.sq.reissue.toList
  let s := { s with tile := t.onSq ({ · with reissue := none, prePoint := none }) }
  if t.lost then .next { s with tile := s.tile.didIssue }
  else if t.ct.sq.rep.isSome && t.ct.sq.buffer.isNone then
    issueEmpty s extra
  else if t.ct.sq.buffer.isSome then issueAt s extra
  else
    match t.nextAddr with
    | none => .next { s with tile := (s.tile.raise .illegalOp s.tile.freeTval 4).lose.didIssue }
    | some a => issueAt { s with tile := s.tile.onSq ({ · with pc := a }) } extra

end Sys2Proof.Machine
end

