-- ==== Sys2Proof/Machine/Calendar.lean ====
section
/-!
DEFINITION. What happens next: the events due in the present cycle, the tile that issues, and the passing of a cycle (spec 13
R377, 11 R305-R307, R315). Which of several things of one cycle comes first is fixed here once (DESIGN CHOICE, log 4, DEDUCED, log 8).
-/
namespace Sys2Proof.Machine

/-! ### Finding what is due -/

/-- The logical number of the lowest tile that satisfies `p`. -/
def State.lowest (s : State) (p : Tile → Bool) : Option Nat :=
  (s.tiles.filter p).foldl (fun m t => match m with
    | none => some t.ltid
    | some n => some (min n t.ltid)) none

/-- The tile that satisfies `p` and is first by GRANK, then by logical number. -/
def State.lowestRank (s : State) (p : Tile → Bool) : Option Tile :=
  (s.tiles.filter p).foldl (fun m t => match m with
    | none => some t
    | some u => if t.grank < u.grank || (t.grank == u.grank && t.ltid < u.ltid) then some t else some u) none

/-- An event of tiles: due where `p` says, on the lowest such tile, in focus. -/
def onDue (p : State → Tile → Bool) (f : State → Out) (s : State) : Option Out :=
  (s.lowest (p s)).map fun l => f (s.focus (·.ltid == l))

/-- The same for tiles whose active context this cycle reaches. -/
def onLive (p : State → Tile → Bool) (f : State → Out) : State → Option Out := onDue (fun s t => s.live t && p s t) f

/-- The same, tiles of lower GRANK first (R353). -/
def onLiveRank (p : State → Tile → Bool) (f : State → Out) (s : State) : Option Out :=
  (s.lowestRank fun t => s.live t && p s t).map fun u => f (s.focus (·.ltid == u.ltid))

/-- An event of jobs: due where `p` says, for the first such partition. -/
def onJobs (p : State → Job → Bool) (f : Nat → State → Out) (s : State) : Option Out :=
  (s.jobs.find? (p s)).map fun j => f j.pid s

/-- An event of the whole module. -/
def onModule (p : State → Bool) (f : State → Out) (s : State) : Option Out := if p s then some (f s) else none

/-- An event of strands, in order of number: due where `p` says. -/
def onStrands (p : State → Job → Strand → Bool) (f : Nat → Nat → State → Out) (s : State) : Option Out :=
  (s.jobs.filter (s.delivers ·)).findSome? fun j =>
    ((List.range 16).find? fun n => (j.strand n).any (p s j)).map fun n => f j.pid n s

/-- A window of a running job. -/
def onWindows (p : State → Job → Window → Bool) (f : Nat → Nat → State → Out) (s : State) : Option Out :=
  (s.jobs.filter (s.delivers ·)).findSome? fun j => (j.windows.find? (p s j)).map fun w => f j.pid w.engine s

/-! ### The module's own events -/

/-- The rings. -/
def allRings : List RingId := (List.range 16).map (fun q => .queue (BitVec.ofNat 4 q)) ++ [.mgmt 0, .mgmt 1]

/-- A unit whose retirement has something to do: a job still to be asked to leave, or nothing left but the map (R388). -/
def State.unitDue (s : State) : Option (BitVec 32) :=
  s.retireAsk.find? fun u => (s.affected u).isEmpty || (s.affected u).any (!·.replacing)

/-- May a context stream in now (R264)? -/
def State.streamInDue (s : State) (t : Tile) : Bool :=
  t.want.isSome && t.moveAt.all (· ≤ s.wcyc) && (s.leaving t).isNone && (t.wanted.isNone || t.moveAt.isSome) &&
    match t.want.bind fun p => t.streamed.find? (·.isOf p) with
    | none => true
    | some k => t.standby.isNone && (sharesBeside (if t.ct.full then some t.ct else none) k).isSome && t.saved.any (·.pid == k.pid)

/-- Is a switch back due, or a streamed context to be asked for (R307)? -/
def State.backDue (s : State) (j : Job) : Bool :=
  j.isOut && !j.heldOut && !j.replacing && s.mayReturn j &&
    let ts := s.tiles.filter fun t => j.ltids.contains t.ltid
    (j.plan.isEmpty && ts.all (·.holds j.pid)) || ts.any fun t => !t.holds j.pid && t.want.isNone && t.streamed.any (·.isOf j.pid)

/-- A stream with a line to send by now (R419): the batches of a stream go in order. -/
def State.toSend (s : State) : Option Nat :=
  (s.pod.batches.find? fun b => (s.stream b.stream).any fun e =>
    (s.pod.batches.find? fun c => c.stream == b.stream).any fun c => c.sent < c.carried e.2 e.1.ref).map (·.stream)

/-- A received batch that is to be published in this cycle (R419). -/
def State.batchDue (s : State) : Option Batch :=
  s.pod.incoming.find? fun b => (s.stream b.stream).any fun e =>
    b.at_ + s.pod.lf e.2 ≤ e.1.ref && s.delivers e.1 && (s.streamRegion e.1 e.2).isSome

/-- The module's events of this cycle, in their order. -/
def moduleEvents : List (State → Option Out) :=
  [ onModule (fun s => !s.edge && s.wcyc % Config.tickCycles == 0) execTickEdge
  , onModule (fun s => !s.beaconDone && s.wcyc % Config.beaconCycles == 0) execBeacon
  , fun s => if 2 ≤ s.wcyc % Config.beaconCycles then (s.arrivals.head?).map fun a => execBeaconArrival a.1 a.2 s else none
  , onModule (fun s => !s.driftDone && 3 ≤ s.wcyc % Config.beaconCycles) execDrift
  , fun s => (allRings.find? fun r => (s.nextEnd r).isNone && (s.hilum.ring r).room).map fun r => execCompletionEntryWrite r s
  , fun s => s.unitDue.map fun u => execUnitRetirement (.unit u) s
  , fun s => (s.jobs.find? fun j => j.replacing && j.placed && s.halted j && !(j.started && rollbackCap ≤ j.rollbacks)).map
      fun j => execJobReplacement j.jobid s
  , onJobs (fun s j => (s.rollerOf j.pid).any (·.rollbacks < rollbackCap) && (s.imageOf j).isSome) execCheckpointRollback
  , onJobs (fun _ j => (j.state == .running || j.state == .preempted) && j.restart) execRollbackRestart
  , onJobs (fun _ j => j.state == .running && j.saving && !j.migrate) execCheckpointComplete
  , onJobs (fun _ j => j.state == .running && j.preemptAt.any (· ≤ j.ref)) execPreemptDelivery
  , onDue (fun _ t => t.switchLeft == some 0) execContextSwitchIn
  , onDue (fun s t => t.standby.any s.awaits && (t.ct.run == .out || !t.ct.full)) execContextSwitch
  , onDue (fun s t => t.moveAt.any (· ≤ s.wcyc) && (s.leaving t).isSome)
      execContextStreamOut
  , onDue State.streamInDue execContextStreamIn
  , onJobs State.backDue execPartitionSwitchIn
  , onJobs (fun s j => s.startsNow j && (j.plan.isEmpty || j.resuming) && (s.imageOf j).isSome) execJobStart
  , onJobs (fun s j => j.placed && j.breakAsk && s.wcyc % 4 == 3) execBarrierBreak
  , fun s => if s.wcyc % 4 == 3 then (s.commons.findSome? (·.breaks.head?)).map fun b => execBarrierBreak b.1 s else none
  , onModule (fun s => s.commons.any fun c => c.queue.any (·.slotDue s.wcyc)) execCommonsSlotService
  , fun s => s.toSend.map fun n => execFabricSlotSend n s ]

/-! ### The tiles' events -/

/-- Is a wait of this kind over? -/
def Tile.waitOver (t : Tile) (k : WaitKind) : Bool :=
  match t.ct.run with
  | .wait n j => j == k && n ≤ t.c
  | _ => false

/-- Is the read of a STAGE's descriptor due? -/
def Result.stageDue (r : Result) (now : Nat) : Bool := r.toRead now && match r.src with
  | .stage .. => true
  | _ => false

/-- Bank writes. -/
def writeEvents : List (State → Option Out) :=
  [ onLive (fun _ t => t.hasDue PendKind.isSpWrite) execMemoryWriteLanding
  , onLive (fun _ t => t.hasDue PendKind.isVaultWrite) execVaultBankAccess
  , onLive (fun _ t => t.hasDue PendKind.isPlaneWrite) execCimPlaneWrite
  , onLive (fun s t => let s := s.focus (·.ltid == t.ltid); s.myTransfers.any s.lineDue) execHuskLocalLineWrite
  , onLive (fun _ t => t.hasDue PendKind.isAdd) execCimAccumulateAdd
  , onLive (fun _ t => t.hasDue PendKind.isPublish) execMemoryWriteLanding ]

/-- Bank reads: STAGEs in GRANK order (R353). -/
def readEvents : List (State → Option Out) :=
  [ onLive (fun _ t => t.hasDue PendKind.isAtomic) execAtomicWindow
  , onLive (fun _ t => t.hasDue PendKind.isBarrier) execBarrierWindow
  , onLiveRank (fun _ t => t.ct.inflight.any (·.stageDue t.c)) execResultLanding
  , onLive (fun _ t => t.ct.inflight.any (·.toRead t.c)) execResultLanding
  , onLive (fun _ t => t.hasDue PendKind.isVaultRead) execVaultBankAccess
  , onLive (fun _ t => t.hasDue PendKind.isStream) execEngineStreamAccess
  , onLive (fun s t => let s := s.focus (·.ltid == t.ltid); s.myTransfers.any s.sourceDue) execHuskSourceRead
  , onLive (fun s t => let s := s.focus (·.ltid == t.ltid); s.myTransfers.any fun x => !x.walked && x.issue + 6 ≤ t.c) execTranslation ]

/-- Arrivals, injections and landings of the tiles that `q` picks. -/
def arrivalEvents (q : State → Tile → Bool) : List (State → Option Out) :=
  [ onLive (fun s t => t.beats.any (·.at_ ≤ t.c) && q s t) execChannelArrival
  , onLive (fun s t => (t.landing.any fun e => e.2.1 + 4 ≤ t.c) && q s t) execChannelEntryDrop
  , onLive (fun s t => (finjTimed t.ct.finj.toNat t.ct.finjDue t.c || t.ct.finjOldDue.isSome) && q s t) execFinjFire
  , onLive (fun s t => (t.ct.inflight.any (·.lands t.c) || t.ct.yLands) && q s t) execResultLanding
  , onLive (fun s t => t.hasDue PendKind.isDmma && q s t) execDmmaLanding
  , onLive (fun s t => t.hasDue PendKind.isXLanding && q s t) execXRegisterLanding
  , onLive (fun s t => t.hasDue PendKind.isChecksum && q s t) execChecksum
  , onLive (fun s t => q s t && s.commons.any fun c => c.queue.any fun r => r.late t s.wcyc || r.toRaise t) execMissedPromise ]

/-- Does the next bundle of the tile hold NODEEND? -/
def Tile.nodeendNext (t : Tile) : Bool := t.settlePc.curWords.any fun w => w.slot == 0 && w.op == 0x0F

/-- Does everything that the drain of the tile waits for land by this cycle, nothing being still to be read or written (R165)? -/
def Tile.landsNow (t : Tile) (j : Job) : Bool :=
  t.ct.husk ≤ t.c && t.ct.inflight.all (·.lands t.c) && t.beats.all (·.at_ ≤ t.c) &&
    t.ct.y.toList.zipIdx.all (fun e => !e.1.valid || t.ct.yDueNow e.2 e.1) &&
    t.pend.all (fun p => p.due ≤ t.c && match p.kind with
      | .cimLock .. | .planeJoin .. => true
      | k => k.isDmma || k.isXLanding || k.isChecksum) &&
    j.transfers.all fun x => x.ltid != t.ltid || x.done

/-- A tile that is to issue NODEEND in this cycle, with no cause, stop or switch before it. -/
def State.endsHere (s : State) (t : Tile) : Bool :=
  (match t.ct.run with
    | .issue => !t.issued
    | .bwait _ => true
    | _ => false) && t.ct.sq.rep.isNone && !t.lost && t.nodeendNext && (s.groupDets t).isEmpty && t.ct.stop.isNone && t.ct.sq.seg.all (·.count < 2 ^ 20) &&
    !(s.focus (·.ltid == t.ltid)).switchDue

/-- May the end of the tile's node fall in this cycle (R165, R329)? -/
def State.mayEnd (s : State) (t : Tile) : Bool :=
  (t.ct.run == .drain || s.endsHere t) && (s.job? t.ct.pid).any (t.landsNow ·)

/-- Ends of waits: they depend on the cycle, and on writes and slots alone. -/
def waitEvents : List (State → Option Out) :=
  [ onLive (fun s t => s.arms.any (s.armWakes t) || t.ct.waitGone) execBwaitWake
  , onLive (fun s t => s.arms.any (·.expired t)) execBwaitTimeout
  , onLive (fun _ t => t.waitOver .waitc) execWaitcResume
  , onLive (fun _ t => t.waitOver .stagew) execStagewResume
  , onLive (fun _ t => t.waitOver .fence) execFenceResume
  , onLive (fun _ t => match t.ct.run with
      | .resume u => u ≤ t.c
      | _ => false) execContextResume ]

/-- The strands of a walker that pass nodes other than code. -/
def walkerEvents : List (State → Option Out) :=
  [ onStrands (fun s j x => (s.readyAt j.pid x.num 1).isSome) execWalkerBranch
  , onStrands (fun s j x => (s.readyAt j.pid x.num 2).isSome) execWalkerWhile
  , onStrands (fun s j x => (s.readyAt j.pid x.num 3).any fun r => (j.jcbs.getD (ndJcb r.2.2) {}).passes) execWalkerCollect ]

/-- Bank writes, then publishes, then reads (R377). The publish of a node's end is one of them, and its end comes once everything of the
node has landed: what lands in this cycle on a tile with nothing else under way comes before it, and so does the issue of a NODEEND with
nothing to wait for. The posts of a cycle are made in strand order (R333), and strands that other nodes ready in it have moved before
(R328). -/
def memoryEvents : List (State → Option Out) :=
  writeEvents ++ [ fun s => s.batchDue.map fun b => execFabricBatchPublish b.stream { at_ := b.at_, lines := b.lines } s ] ++
  waitEvents ++ arrivalEvents State.mayEnd ++
  [ onLive (fun s t => t.ct.run == .issue && s.mayEnd t) issueTile
  , onStrands (fun s j x => x.running && !s.halting j && !(s.strandTiles j.pid x.num).isEmpty && (s.strandTiles j.pid x.num).all (·.drained j)) execNodeEnd
  , onLive (fun s t => (s.job? t.ct.pid).any fun j => j.bars.any (·.isDue t)) execHuskBarrierDecrement ] ++
  readEvents ++
  [ onWindows (fun s j w => w.active.any fun x => x.missed && !x.done && x.t ≤ s.cycleOf j.pid x) execHuskPromiseMiss
  , onWindows (fun s j w => s.windowOver j.pid w) execHuskWindowSwapin ]

/-- Arrivals, injections, landings, and what the sequencer makes ready. -/
def landingEvents : List (State → Option Out) :=
  arrivalEvents (fun _ _ => true) ++
  (List.range 8).map (fun n => onLive (fun _ t => let r := t.ct.sq.rdB (BitVec.ofNat 3 n); r.state == .pending && r.ready ≤ t.c)
    (execBTargetReady (BitVec.ofNat 3 n))) ++
  [ onLive (fun _ t => t.ct.sq.rets.any fun r => r.state == .pending && r.ready ≤ t.c) execReturnEntryReady
  , onLive (fun _ t => t.ct.run == .issue && t.repOffset.any fun p => p.1.staged != t.c) execLoopBufferIssue
  , onLive (fun _ t => t.ct.run == .issue && t.repOffset.any fun p => p.2 % p.1.interval == 0 && p.1.reissued != t.c) execRepReissue ]

/-- A tile of the job that this cycle reaches, of those that `q` picks, in focus, where `p` holds. -/
def State.tileFor (s : State) (j : Job) (q : Tile → Bool) (p : State → Bool) : Option State :=
  ((s.tiles.filter fun t => q t && t.ct.isOf j.pid && s.live t).map fun t => s.focus (·.ltid == t.ltid)).find? p

/-- Is the job of the tile in focus to end at its stop, having no handler (R260)? -/
def State.stopEnds (s : State) : Bool := s.tile.ct.stop.any (·.at_ ≤ s.tile.c) && !s.tile.hasHandler && !s.haltDue

/-- The end of a job in this cycle, of each way in which a placement ends while its cycles are delivered or withheld (R404). -/
def State.endOf (s : State) (j : Job) : Option Out :=
  [ if s.endDue j then some (execCompletionEntryWrite j.ring s) else none
  , if (s.rollerOf j.pid).any (rollbackCap ≤ ·.rollbacks) && (s.imageOf j).isSome then some (execCheckpointRollback j.pid s) else none
  , if (s.leaver j.jobid).any fun k => k.same j && k.started && rollbackCap ≤ k.rollbacks then some (execJobReplacement j.jobid s) else none
  , if j.place == 0 && j.endStatus.isSome && (s.twinOf j).any (·.endStatus.isSome) then some (execDualCompare j.jobid s) else none
  , if j.state == .running && j.saving && j.migrate then some (execCheckpointComplete j.pid s) else none
  , if (s.silentDue j.pid).isEmpty then none else (s.tileFor j (fun _ => true) fun _ => true).map execSilentErrorKill
  , (s.tileFor j (!·.dets.isEmpty) fun u => u.handlerFault.isSome).map execHandlerFaultEnd
  , (s.tileFor j (·.ct.stop.isSome) State.stopEnds).map execTrapStop
  , (j.strands.find? fun x => s.delivers j && (s.readyAt j.pid x.num 4).isSome).map fun x => execWalkerFinish j.pid x.num s ].findSome? id

/-- The jobs that hold partitions, by partition id. -/
def State.partitions (s : State) : List Job :=
  let before (j k : Job) : Bool := k.pid < j.pid
  (s.jobs.filter (·.placed)).foldl (fun l j => l.takeWhile (before j) ++ j :: l.dropWhile (before j)) []

/-- The jobs that end in one cycle end in the order of their partition ids (R407); a placement that only waits for its twin comes before
all. -/
def endEvents : List (State → Option Out) :=
  [ fun s => (s.partitions.filter (·.twin.isSome)).findSome? fun j =>
      (j.strands.find? fun x => s.delivers j && (s.readyAt j.pid x.num 4).isSome).map fun x => execWalkerFinish j.pid x.num s
  , fun s => s.partitions.findSome? s.endOf ]

/-- Causes, the ends of jobs, halts and handlers; then node starts. -/
def controlEvents : List (State → Option Out) :=
  [ onLive (fun _ t => t.ct.sq.seg.any fun g => 2 ^ 20 ≤ g.count) execSegmentCountLimit
  , onLive (fun s t => t.reloadAsk && ((s.job? t.ct.pid).bind s.imageOf).isSome) execImemShareReload ] ++ endEvents ++
  [ onLive (fun s t => !t.dets.isEmpty && t.ct.strand.isSome && let s := s.focus (·.ltid == t.ltid); s.haltDue || s.freezeDue) execGroupHalt
  , onLive (fun _ t => t.ct.stop.any (·.at_ ≤ t.c) && t.hasHandler) execTrapStop
  , onLive (fun _ t => match t.ct.run with
      | .stopped e => e ≤ t.c
      | _ => false) execHandlerEntry
  , onLive (fun _ t => match t.ct.run with
      | .halt (some n) => n ≤ t.c
      | _ => false) execNodeRerunStart
  , onStrands (fun s j x => !j.preempting && (s.imageOf j).isSome && (s.readyAt j.pid x.num 0).any fun r => (s.meeting j r.2.2).isEmpty)
      execWalkerCodeStart
  , onLive (fun s t => (s.focus (·.ltid == t.ltid)).switchDue) execContextSwitch ]

/-- The next event due in this cycle, and what it does. -/
def dueStep (s : State) : Option Out :=
  (moduleEvents ++ walkerEvents ++ memoryEvents ++ landingEvents ++ controlEvents).findSome? fun e => e s

/-! ### Issue -/

/-- A tile that issues a bundle in this cycle and has not yet. -/
def State.toIssue (s : State) (t : Tile) : Bool := t.ct.run == .issue && !t.issued && s.live t

/-- The tile that issues next, in focus: the one of lowest logical number. -/
def nextTile (s : State) : Option State := (s.lowest s.toIssue).map fun n => s.focus (·.ltid == n)

/-! ### The passing of a cycle -/

/-- Packet copies whose read cycle this is (R141, R151, R158). -/
def Tile.readCopies (t : Tile) : Tile :=
  let now := t.c
  let due (c : Option Nat) : Bool := c.any (· ≤ now)
  t.onSq fun q => { q with
    b := q.b.map fun b => if due b.copyAt then { b with copy := t.packet b.target, copyAt := none } else b
    rets := q.rets.map fun r => if due r.copyAt then { r with copy := t.packet r.addr, copyAt := none } else r
    loops := q.loops.map fun e => if due e.startAt then { e with startCopy := t.packet e.start, startAt := none } else e }

/-- Hardware updates that a CSRW held for a cycle (R17). -/
def Tile.lateUpdates (t : Tile) : Tile :=
  let t := match t.ct.dqLate with
    | some (c, n, m) => if c ≤ t.c then
        { t with ct := { t.ct with dqLate := none, cx := { t.ct.cx with dqcap := dqUpdate t.ct.cx.dqcap n m } } } else t
    | none => t
  match t.ct.mincLate with
  | some (c, n) => if c ≤ t.c then
      { t with ct := { t.ct with mincLate := none, cx := { t.ct.cx with pipmemb := pipmembNext t.ct.cx.pipmemb n } } } else t
  | none => t

/-- WAIT and XBUSY of the utilisation table (R343). -/
def Tile.tallyCycle (t : Tile) : Tile :=
  let waits := match t.ct.run with
    | .wait .. | .bwait _ => if t.issued then 0 else 1
    | _ => 0
  let busy := if t.c < max t.cimBusy (max t.denseBusy t.pipBusy) then 1 else 0
  let u := t.ct.util
  { t with ct := { t.ct with util := #v[u[0], u[1] + waits, u[2], u[3], u[4], u[5] + busy] } }

/-- Entries that only reserve something, past their cycle. -/
def Pend.spent (p : Pend) (now : Nat) : Bool :=
  match p.kind with
  | .cimLock .. | .planeJoin .. => p.due ≤ now
  | _ => false

/-- The coming cycle counts in the open segment where it is one of the D(S) of a FENCE (R46, R187). -/
def Tile.fenceCycle (t : Tile) : Tile :=
  match t.ct.run with
  | .wait n .fence => if t.c + 1 < n then t.countSeg 1 [] else t
  | _ => t

/-- The first engine access out of range of the cycle is recorded, after those of the ops (R210, R211). -/
def Tile.engineRecord (t : Tile) : Tile :=
  match t.engineOor with
  | some (v, a) => { t.outOfRange v a with engineOor := none }
  | none => t

/-- The passing of a delivered cycle on one tile. -/
def Tile.tickOver (t : Tile) : Tile :=
  let t := ((t.engineRecord.readCopies.lateUpdates).tallyCycle).fenceCycle
  { t with
    issued := false, pend := t.pend.filter (!·.spent t.c), banks := t.banks.filter (t.c < ·.due)
    ct := { t.ct with now := t.ct.now + 1 } }

/-- Cycles in which 256 corrected errors retire a tile (R387). -/
def correctSpan : Nat := 2 ^ 32

/-- Newly corrected errors of a tile, with the cycles of the last ones (R387). -/
def Tile.noteCorrected (t : Tile) (wcyc : Nat) : Tile :=
  if t.corrected = t.corrSeen then t
  else { t with
    corrSeen := t.corrected
    corrAt := List.replicate (t.corrected - t.corrSeen) wcyc ++ t.corrAt.filter fun w => wcyc < w + correctSpan }

/-- LAG of contexts that are out while their partition goes on (R306). -/
def State.lagging (s : State) (k : Context) : Context :=
  if k.run == .out && (s.job? k.pid).any s.delivers then { k with lag := k.lag + 1 } else k

/-- A switch goes on in the cycles that reach the tile (R266). -/
def State.switching (s : State) (t : Tile) : Tile :=
  match t.switchLeft with
  | some (n + 1) =>
    let thr := ((s.jobs.find? fun j => j.pid == t.ct.pid && j.placed).map (·.thr)).getD 0
    if !s.power.paused && thr ≤ rev4 (s.wcyc % 16) then { t with switchLeft := some n } else t
  | _ => t

/-- The passing of a cycle on a tile. -/
def State.pass1 (s : State) (t : Tile) : Tile :=
  let t' := s.startMove ((s.switching t).noteCorrected s.wcyc)
  let t' := if s.live t then t'.tickOver else t'
  { t' with ct := s.lagging t'.ct, standby := t'.standby.map s.lagging, streamed := t'.streamed.map s.lagging, rollAsk := false }

/-- The units of tiles whose corrected count has reached 256 (R387). -/
def State.wornTiles (s : State) : List (BitVec 32) :=
  ((s.tiles.filter fun t => 256 ≤ t.corrAt.length).map fun t => s.unitWord t.ltid false 0).filter (!s.retireAsk.contains ·)

/-- The passing of a cycle for a job: the reference counts delivered cycles (R306), and a rollback that one of its tiles needs is asked
for (R269, R420). -/
def State.passJob (s : State) (j : Job) : Job :=
  let j' := if s.tiles.any (fun t => t.rollAsk && t.ct.isOf j.pid) && j.state == .running then j.askRollback 0 else j
  if s.delivers j then { j' with refs := j.refs.map (· + 1) } else j'

/-- Is a commons request finished with (R291)? -/
def State.spentReq (s : State) (r : CReq) : Bool :=
  r.served && r.raced.isNone && (r.missed || r.kind == 5 || match s.requester r with
    | some t => r.issue + lcom ≤ t.c
    | none => false)

/-- A quad that holds a THR of its own for a partition swallows other pulses of it, so that its count runs away (R316). -/
def State.thrDrift (s : State) (q : Quad) : Quad :=
  q.thrs.foldl (fun (q : Quad) e =>
    match s.job? e.1 with
    | none => q
    | some j =>
      let counts (thr : Nat) : Int := if s.pulses j && thr ≤ rev4 (s.wcyc % 16) then 1 else 0
      q.setSkew e.1 (q.skewOf e.1 + counts e.2 - counts j.thr)) q

/-- The passing of one oscillator cycle. The machine before its boot has completed stands at the lock of the grid or after it, and WCYC runs
(R305, R409). -/
def advance (s : State) : State :=
  let w := s.wcyc + 1
  let arm := s.timeAt.filter (·.2 ≤ w)
  { s with
    tile := s.pass1 s.tile
    others := s.others.map s.pass1
    jobs := s.jobs.map s.passJob
    quads := s.quads.map fun e => (e.1, s.thrDrift e.2)
    commons := s.commons.map fun c => { c with queue := c.queue.filter (!s.spentReq ·) }
    retireAsk := s.retireAsk ++ s.wornTiles
    pod := { s.pod with beacons := s.beaconsOut ++ s.pod.beacons }
    wcyc := w
    tick := (arm.map (·.1)).getD s.tick
    timeAt := if arm.isSome then none else s.timeAt
    edge := w % Config.tickCycles != 0
    beaconDone := w % Config.beaconCycles != 0 }

/-! ### Placing a word -/

/-- The context that runs a word placed by `placeWord`: code from address 0 of a share of the whole IMEM. -/
def placedContext (k : Context) : Context :=
  { k with
    run := .issue, after := .issue, waiting := none, sq := {}, stop := none, trap := none, handled := none, frozen := none, adrift := none, inflight := [], yAt := none
    finjPrev := none, finj := 0, finjSeen := 0, finjGone := [], overlays := []
    dqLate := none, mincLate := none
    y := Vector.replicate 16 {}, husk := 0
    ibase := 0, isize := 128, segn := 0, sbase := 0, ssize := 384, strand := some 0 }

/-- One op word where the next issue fetches it: a first word (S = 1) alone, any other behind a NOP; a NOP bundle and the pad
word follow. A program is loaded from outside the machine: by LOAD_IMAGE and a launch (DESIGN CHOICE, log 5). -/
def placeWord (s : State) (nbits w : Nat) : State :=
  let v : OpWord := BitVec.ofNat 32 (w % 2 ^ nbits)
  let ws : List OpWord := (if v.s then [v] else [nopWord, v]) ++ [nopWord, padWord]
  let t := s.tile
  { s with
    tile := { t with
      ct := placedContext t.ct, standby := none, streamed := [], want := none, switchLeft := none
      imem := memPut [] 0 (ws.flatMap fun x => bytesOf 4 x.toNat)
      pend := [], banks := [], dets := [], post := [], late := [], beats := [], landing := []
      cimBusy := 0, denseBusy := 0, pipBusy := 0, decBusy := 0
      issued := false, lost := false, rollAsk := false, reloadAsk := false, owed := [], engineOor := none }
    others := [], arms := [], commons := [], inbox := [], retireAsk := [], arrivals := []
    jobs := [{ jobid := 0, record := [], state := .running, pid := t.ct.pid }]
    hilum := { s.hilum with
      booting := false, admission := Vector.replicate 4 []
      queues := s.hilum.queues.map fun q => { q with csize := 0 }, mgmt := s.hilum.mgmt.map fun q => { q with csize := 0 } }
    power := { s.power with on := true, paused := false }
    pod := { s.pod with batches := [], incoming := [] }
    edge := true, beaconDone := true, driftDone := true }

end Sys2Proof.Machine
end

