-- ==== Sys2Proof/Machine/Step.lean ====
section
/-!
DEFINITION. One step of the module: an event given from outside, else an event due in this cycle, else one bundle of a tile
that has not issued in this cycle, else the passing of the cycle.
-/
namespace Sys2Proof.Machine

/-- One step. -/
def step (s : State) : Host.Outcome State Fault Refusal :=
  match s.inbox with
  | e :: r => exec e { s with inbox := r }
  | [] =>
    if s.power.on then
      match dueStep s with
      | some r => r
      | none =>
        match nextTile s with
        | some s' => issueTile s'
        | none => .next (advance s)
    else .fault .noPower

/-- The word of an instruction stored where the very next step fetches it. -/
def State.withFetchWord (s : State) (nbits w : Nat) : State := placeWord s nbits w

end Sys2Proof.Machine
end

