-- ==== Sys2Proof/Safety.lean ====
section
/-!
DEFINITION. The terms that claims use: the memories in canonical form, and the states that an op leaves when it completes,
written field by field, so that a statement `exec i s = .next (…)` says both what the op does and that it does nothing else.
-/
namespace Sys2Proof

/-- What a context keeps of the accumulator array is canonical. -/
def Machine.Context.memOk (k : Machine.Context) : Bool := Machine.memWf k.snapAcc

/-- What a save area holds is canonical. -/
def Machine.SavedShare.memOk (v : Machine.SavedShare) : Bool :=
  Machine.memWf v.imem && v.sp.wf && Machine.memWf v.acc && Machine.memWf v.scales

/-- The memories of a tile are canonical, with those of the contexts that it holds or has streamed out. -/
def Machine.Tile.memOk (t : Machine.Tile) : Bool :=
  Machine.memWf t.imem && t.sp.wf && Machine.memWf t.acc && Machine.memWf t.scales && t.ct.memOk && t.standby.all (·.memOk) &&
    t.streamed.all (·.memOk) && t.saved.all (·.memOk)

/-- What a checkpoint holds is canonical. -/
def Machine.Checkpoint.memOk (c : Machine.Checkpoint) : Bool :=
  Machine.memWf c.dram && Machine.memWf c.vault &&
    c.tiles.all fun t => Machine.memWf t.sp && Machine.memWf t.acc && Machine.memWf t.imem && t.ct.memOk

/-- Every memory of the machine is in its canonical form. -/
def Machine.State.memOk (s : Machine.State) : Bool :=
  s.tiles.all (·.memOk) && (s.jobs.all fun j => j.vault.wf && j.dram.wf && j.keptDram.wf && j.checkpoints.all (·.memOk)) &&
    s.commons.all fun c => Machine.memWf c.mem && Machine.memWf c.value && Machine.memWf c.ign

namespace Safety
open Machine

/-- The state with a record in place of what the tile in focus holds; everything outside that tile stands. -/
def withTile (s : State) (t : Tile) : State := { s with tile := t }

/-- The state with a register result more in flight (R36): it writes the enabled bytes of `dest` with `v`, is visible
from `lat` cycles after the issue cycle, and raises the flags `fl` when it lands. Nothing else differs. -/
def gains (s : State) (dest : Dest) (v : Vec) (be : Word) (fl lat slot : Nat) : State :=
  withTile s { s.tile with
    uid := s.tile.uid + 1
    ct := { s.tile.ct with inflight := s.tile.ct.inflight ++ [{
      id := s.tile.uid, dest := dest, due := s.tile.ct.now + lat, rdAt := s.tile.ct.now + lat, src := .val v, be := be
      fl := BitVec.ofNat 14 fl, issue := s.tile.ct.now, slot := slot, addr := s.tile.ct.sq.pc
      phase := s.tile.ct.cx.phaseNum }] } }

/-- A whole scalar register to come. -/
def gainsS (s : State) (d : BitVec 6) (v : Word) (fl lat : Nat) : State :=
  gains s (.s d) (v.setWidth 512) 0xFF fl lat 0

/-- One condition bit to come. -/
def gainsQ (s : State) (d : BitVec 3) (v : Bool) (fl lat : Nat) : State :=
  gains s (.q d) (if v then 1 else 0) 1 fl lat 0

/-- A whole mask register to come. -/
def gainsK (s : State) (d : BitVec 3) (v : Word) (fl lat : Nat) : State :=
  gains s (.k d) (v.setWidth 512) 0xFF fl lat 1

/-- The state in which the bundle now issuing is charged with a cause, detected at cycle `det` (R255). Nothing else
differs. -/
def charged (s : State) (cause : Cause) (tval : Word) (slot det : Nat) : State :=
  withTile s { s.tile with dets := s.tile.dets ++ [{
    cause := cause, tval := tval, slot := slot, issue := s.tile.ct.now, addr := s.tile.ct.sq.pc, det := det
    nest := s.tile.nests s.tile.ct.now }] }

/-- The state with another sequencer state. -/
def withSeq (s : State) (q : Seq) : State := withTile s { s.tile with ct := { s.tile.ct with sq := q } }

/-- The state in which the tile goes on as `r` says. -/
def withRun (s : State) (r : Run) : State := withTile s { s.tile with ct := { s.tile.ct with run := r } }

/-- The state with one change more for the commit of the bundle. -/
def withPost (s : State) (p : Post) : State := withTile s { s.tile with post := s.tile.post ++ [p] }

/-- No exception among the flags `fl` (in the layout of XFLAGS) is enabled in TRAPEN (R91, R93). -/
def Quiet (s : State) (fl : Nat) : Prop :=
  ∀ n, n < 13 → bit fl n = true → bit s.tile.ct.cx.trapen.toNat n = false

/-- The sign-extended immediate of `n` bits, 7 more being lent to it (R33). -/
def signedOf (n imm : Nat) (x : Ext) : Int :=
  match x with
  | none => if 2 ^ n ≤ 2 * imm then (imm : Int) - 2 ^ n else imm
  | some e => if 64 ≤ e.toNat then ((imm + e.toNat * 2 ^ n : Nat) : Int) - 2 ^ (n + 7) else ((imm + e.toNat * 2 ^ n : Nat) : Int)

end Safety
end Sys2Proof
end

