-- ==== Sys2Proof/Certificates/Slice0/Obligations.lean ====
section
/-!
DEFINITION. The statements for the provers. Each docstring names the rules of spec/ that the statement formalises. The states
an op leaves are written with the terms of Sys2Proof/Safety.lean.
-/
open Sys2Proof Sys2Proof.Machine Sys2Proof.Safety

/-! ### Decoding, reset, and one step -/

/-- R22-R44, R177, R180, R218, R235, R245, R275, R362: words written out from the encodings of the manual decode to the ops that they stand
for. -/
def Obligations.SampleWordsDecode : Prop :=
  decodeTableWord 32 0x88041460 = some (.add ⟨4, 5, 6, 0⟩) ∧
  decodeTableWord 32 0x8B072091 = some (.div ⟨7, 8, 9, 1⟩) ∧
  decodeTableWord 32 0x86921464 = some (.cmpi ⟨18, 5, 100⟩ none) ∧
  decodeTableWord 32 0x8FFD1000 = some (.limm ⟨61, 0x1000⟩ none) ∧
  decodeTableWord 32 0x87820012 = some (.csrr ⟨2, 0x012⟩) ∧
  decodeOp 0x20031052 (some 0x50) = .ok (.vadd ⟨3, 4, 5, 2⟩ (some 0x50)) ∧
  decodeOp 0x40091DFA (some 0x01) = .ok (.ld ⟨9, 7, 3, 0x7A⟩ (some 0x01)) ∧
  decodeTableWord 32 0xAA13209A = some (.vfcmp ⟨19, 8, 9, 10⟩ none) ∧
  decodeTableWord 32 0xB8452800 = some (.vgauss ⟨5, 10, 0, 0⟩) ∧
  decodeTableWord 32 0xC0041F04 = some (.ld ⟨4, 7, 6, 4⟩ none) ∧
  decodeTableWord 32 0xC8054000 = some (.drive ⟨5, 2⟩) ∧
  decodeTableWord 32 0xCAC62482 = some (.acas ⟨6, 9, 1, 2⟩ none) ∧
  decodeTableWord 32 0xE008C004 = some (.cloadb ⟨2, 3, 0, 4⟩) ∧
  decodeTableWord 32 0xE9411400 = some (.dxfix ⟨0, 4, 5, 0⟩)

/-- R22, R23, R27, R32: the encoder and the decoder agree: a well-formed op of a slot, given back its own word and extension bits, is
read with every operand as it was; a header alone is read as its prefix bundle; and a word that decodes to a well-formed op is
that op's one word, the extension bits being either the op's own or zero and unused. -/
def Obligations.EncodingRoundTrip : Prop :=
  (∀ (i : Instr) (first : Bool) (w : OpWord) (x : Ext), i.wf = true → encode first i = some (w, x) → (∀ e, i ≠ .prefixBundle e) →
    decodeOp w x = .ok i ∧ w.s = first) ∧
  (∀ (e : BitVec 7) (first : Bool) (w : OpWord) (x : Ext), encode first (.prefixBundle e) = some (w, x) →
    x = none ∧ w.s = first ∧ decodeBundle [w] none = .ok [.prefixBundle e]) ∧
  (∀ (w : OpWord) (x : Ext) (i : Instr), decodeOp w x = .ok i → i.wf = true →
    encode w.s i = some (w, i.extBits) ∧ (i.extBits = x ∨ (i.extBits = none ∧ x.bits = 0)))

/-- R392, R409: after reset the boot has not completed, the module is unowned, WCYC is 0, every memory reads zero and nothing of a job
is there. That every register reads zero then is the model's choice (log 1).
Where the manual is silent it follows the model's readings (log 1, 51). -/
def Obligations.ResetHoldsNothingOfAJob : Prop :=
  let s := State.reset
  s.hilum.booting = true ∧ s.hilum.own = .unowned ∧ s.wcyc = 0 ∧ s.jobs = [] ∧ s.others = [] ∧ s.commons = [] ∧ s.arms = [] ∧
  s.inbox = [] ∧ s.power.on = true ∧ s.power.paused = false ∧ (∀ i : Fin 16, s.hilum.images[i] = {} ∧ s.hilum.queues[i] = {}) ∧
  (∀ a, memGet s.tile.imem a = 0 ∧ s.tile.spByte a = 0 ∧ memGet s.tile.acc a = 0 ∧ memGet s.tile.scales a = 0) ∧
  (∀ n : BitVec 6, s.tile.ct.cx.rdS n = 0) ∧ (∀ n : Fin 32, s.tile.ct.cx.v[n] = 0) ∧ s.tile.ct.run = .idle ∧
  s.tile.ct.isize = 0 ∧ step s = .next s

/-- R31, R52, R53, R256: where no event is due, the tile of lowest number that has not issued in this cycle runs the op that the bundle at
its code address decodes to. An op that charges no cause, in a bundle that no check of order 7 charges, is committed, and fetch goes
on; an op that charges one leaves the bundle uncommitted, as a bundle already charged at its resumption does (R40), and one whose
loop-back would go through a Stale start copy (R153).
Where the manual is silent it follows the model's readings (log 4, 8, 9, 59). -/
def Obligations.AStepRunsTheDecodedOp : Prop :=
  ∀ (s s' : State) (a : Nat) (w : OpWord) (i : Instr), s.inbox = [] → s.power.on = true → dueStep s = none → nextTile s = some s' →
    let q := s'.tile.ct.sq; let s1 := withSeq s' { q with pc := a, prePoint := none }; let b : Bundle := ⟨[w], [i]⟩
    s'.tile.lost = false → q.rep = none → q.reissue = none → q.buffer = none → q.pfx = none → s'.tile.nextAddr = some a →
    s1.tile.curWords = [w] → w ≠ 0 → (q.sequential = true → a % 32 = 0 → w.s = true) → w.isHeader = false →
    decodeOp w none = .ok i → i.wf = true → secondNaming [] i = false → s1.tile.misplaced i = false →
    (s1.tile.charged = true → step s = .next (s1.uncommitted s1 b)) ∧
    (s1.tile.charged = false → s1.tile.segMissing b = false →
    (q.fetchCopy = none → bundleIn (s1.tile.packet a) a = [w]) ∧
    ∀ s2, exec i s1 = .next s2 →
      let e := if s1.tile.isLast && s2.tile.ct.sq.target.isNone then goesOn a s1.tile.follow q.loops else none
      (s2.tile.dets.length ≠ s1.tile.dets.length → step s = .next (s1.uncommitted s2 b)) ∧
      (s2.tile.dets.length = s1.tile.dets.length → ∀ x, e = some x → x.startStale = true →
        step s = .next (s1.uncommitted (charged s2 .staleTarget (BitVec.ofNat 64 x.start) 0 s2.tile.ct.now) b)) ∧
      (s2.tile.dets.length = s1.tile.dets.length → (∀ x, e = some x → x.startStale = false) → s2.order7 e = s2 →
        (∀ u ∈ s2.others, ∀ v ∈ s2.others, u.ltid = v.ltid → u.dets.length = v.dets.length) →
        step s = .next { s2 with tile := s2.tile.committed b s1.tile.isLast s1.tile.afterAddr s1.tile.follow }))

/-- R30, R45, R51-R53: where no event is due and the bundle at the code address fails a check of orders 1 to 4, the step charges the
cause of the lowest such order and nothing of the bundle commits but that it opens and closes segments by the ops it holds: ZERO_WORD
for a zero word, PACKET_CROSS for a packet entered in its middle, SLOT_ORDER for words out of slot order or a fifth word, and
ILLEGAL_OP, with the slot of the word, for the first word that decodes to no well-formed op, stands where its op may not, or names a
stream again. The TVAL is left open (log 7). -/
def Obligations.IllFormedBundlesRaiseTheirCause : Prop :=
  ∀ (s s' : State) (a : Nat), s.inbox = [] → s.power.on = true → dueStep s = none → nextTile s = some s' →
    let q := s'.tile.ct.sq; let s1 := withSeq s' { q with pc := a, prePoint := none }; let ws := s1.tile.curWords
    s'.tile.lost = false → q.rep = none → q.reissue = none → q.buffer = none → q.pfx = none → s'.tile.nextAddr = some a →
    let raises (c : Cause) (slot : Nat) : Prop := ∃ v : Word,
      let ops := s1.tile.heldOps ws; let t := (charged s1 c v slot s1.tile.ct.now).tile
      step s = .next (s1.uncommitted (withTile s1 (if ops.any Instr.isSeg then t.closeSeg 0 else t)) ⟨ws, ops⟩)
    let crosses : Prop := q.sequential = true ∧ a % 32 = 0 ∧ (ws.headD 0).s = false
    (0 ∈ ws → raises .zeroWord 4) ∧ (0 ∉ ws → crosses → raises .packetCross 4) ∧
    (0 ∉ ws → ¬crosses → 4 < ws.length ∨ slotsRise ws = false → raises .slotOrder 4) ∧
    (0 ∉ ws → ¬crosses → ws.length ≤ 4 → slotsRise ws = true → ∀ w r, ws = w :: r → w.isHeader = false →
      ((∀ i, decodeOp w none = .ok i → i.wf = false ∨ s1.tile.misplaced i = true ∨ secondNaming [] i = true) →
        raises .illegalOp w.slot.toNat) ∧
      (∀ i v r', decodeOp w none = .ok i → i.wf = true → s1.tile.misplaced i = false → secondNaming [] i = false → r = v :: r' →
        (∀ j, decodeOp v none = .ok j → j.wf = false ∨ s1.tile.misplaced j = true ∨ secondNaming (namings i) j = true) →
        raises .illegalOp v.slot.toNat))

/-- The words of a bundle with the extension bits that each receives: those after a header its fields by their place, the first word
otherwise the bits of a prefix bundle (R25-R27). -/
def Sys2Proof.Safety.lentTo (ws : List OpWord) (pfx : Ext) : List (OpWord × Ext) :=
  match ws with
  | [] => []
  | h :: r =>
    if h.isHeader then r.zip [some (h.extractLsb' 15 7), some (h.extractLsb' 8 7), some (h.extractLsb' 1 7)]
    else (h, pfx) :: r.map (·, none)

/-- The ops, one after the other, take the state from `s` to `t`, and none charges a cause. -/
def Sys2Proof.Safety.opsRun : List Instr → State → State → Prop
  | [], s, t => t = s
  | i :: is, s, t => ∃ u, exec i s = .next u ∧ u.tile.dets.length = s.tile.dets.length ∧ opsRun is u t

/-- R24-R27, R31, R49, R53: where no event is due and the bundle at the code address passes orders 1 to 4, a header or a prefix lending its
bits, a missing SEG is a SEG_MISMATCH of REASON 4; else its one to four ops run in slot order: the first that charges a cause leaves the
bundle uncommitted, as a check of order 7 does that charges one, and otherwise the bundle, last of no loop, is committed with the
effects of all of them. -/
def Sys2Proof.Safety.bundlesRunTheirOps : Prop :=
  ∀ (s s' : State) (a : Nat) (ws : List OpWord) (ops : List Instr), s.inbox = [] → s.power.on = true → dueStep s = none →
    nextTile s = some s' →
    let q := s'.tile.ct.sq; let s1 := withSeq s' { q with pc := a, prePoint := none }; let b : Bundle := ⟨ws, ops⟩
    s'.tile.lost = false → q.rep = none → q.reissue = none → q.buffer = none → s'.tile.nextAddr = some a → s1.tile.curWords = ws →
    0 ∉ ws → (q.sequential = true → a % 32 = 0 → (ws.headD 0).s = true) → ws.length ≤ 4 → slotsRise ws = true →
    (∀ h r, ws = h :: r → h.isHeader = true → q.pfx = none ∧ r ≠ [] ∧ headerOk h r.length = true) →
    (∀ h r, ws = h :: r → h.isHeader = false → q.pfx ≠ none → h.slot = 0) →
    (lentTo ws q.pfx).map (fun e => decodeOp e.1 e.2) = ops.map .ok →
    (∀ i ∈ ops, i.wf = true ∧ s1.tile.misplaced i = false) → hasRepeat (ops.flatMap namings) = false →
    s1.tile.charged = false →
    (s1.tile.segMissing b = true → step s = .next (s1.uncommitted
      (charged s1 .segMismatch (BitVec.ofNat 64 (q.lastSeg.getD 0x7FFFFF % 2 ^ 23 + 2 ^ 62)) 4 s1.tile.ct.now) b)) ∧
    (s1.tile.segMissing b = false → s1.tile.isLast = false →
    (∀ before i after s2 s3, ops = before ++ i :: after → opsRun before s1 s2 → exec i s2 = .next s3 →
      s3.tile.dets.length ≠ s2.tile.dets.length → step s = .next (s1.uncommitted s3 b)) ∧
    (∀ s2, opsRun ops s1 s2 →
      ((s2.order7 none).tile.dets.length ≠ s1.tile.dets.length → step s = .next (s1.uncommitted (s2.order7 none) b)) ∧
      (s2.order7 none = s2 → (∀ u ∈ s2.others, ∀ v ∈ s2.others, u.ltid = v.ltid → u.dets.length = v.dets.length) →
        step s = .next { s2 with tile := s2.tile.committed b false s1.tile.afterAddr s1.tile.follow })))

/-- R31: every op of a bundle reads its operands at c: whatever an op does at its issue, the registers and CSRs of its tile stand (but for
the record of an access out of range), as do its code and its cycle count, and the ops after it read them as it did. -/
def Sys2Proof.Safety.operandsAreReadFirst : Prop :=
  ∀ (i : Instr) (s t : State), i.opNumber ≠ none → exec i s = .next t →
    t.tile.ct.cx = { s.tile.ct.cx with oobaddr := t.tile.ct.cx.oobaddr, oobflag := t.tile.ct.cx.oobflag } ∧
    t.tile.imem = s.tile.imem ∧ t.tile.ct.now = s.tile.ct.now

/-- R37, R38, R53: what order 7 charges: a collision that an op has noted, with its TVAL and slot; else, of two results that land in one
scalar in one cycle, the later issued with its register; else the seventeenth result in flight, with bit 63 and its register. -/
def Sys2Proof.Safety.orderSevenCharges : Prop :=
  ∀ s : State, let k := s.tile.ct
    (∀ v sl r, s.tile.late = (v, sl) :: r → s.order7 none = charged s .landingCollision (BitVec.ofNat 64 v) sl k.now) ∧
    (s.tile.late = [] → s.tile.csrClash = none →
      (∀ q r n, k.inflight = [q, r] → q.id ≠ r.id → q.issue < k.now → r.issue = k.now → q.y = none → r.y = none → k.waiting = none →
        q.due = r.due → q.dest = .s n → r.dest = .s n → n ≠ 0 →
        s.order7 none = charged s .landingCollision (BitVec.ofNat 64 (n.toNat * 2 ^ 10)) r.slot k.now) ∧
      (∀ before r after, s.tile.landClash = none → s.tile.resetClash = none → (∀ y ∈ k.y.toList, y.valid = false) →
        k.inflight.filter (fun r => r.y.isNone && !r.dest.isS0) = before ++ r :: after → before.length = 16 →
        s.order7 none = charged s .landingCollision
          (BitVec.ofNat 64 (2 ^ 63 + r.dest.codes.1 * 2 ^ 16 + r.dest.codes.2 * 2 ^ 10)) r.slot k.now))

/-- R24-R27, R31, R37, R38, R49, R53: bundles of one to four words.
Where the manual is silent it follows the model's readings (log 59). -/
def Obligations.BundlesRunTheirOpsTogether : Prop := bundlesRunTheirOps ∧ operandsAreReadFirst ∧ orderSevenCharges

/-! ### Scalar integer ops (R172-R176) -/

/-- What each integer RRR op of R172 delivers, with its latency of R170, for operands a and b. -/
def Sys2Proof.Safety.intTable (o : RRR) (a b : Word) : List (Instr × Nat × (Word → Prop)) := [
  (.add o, 1, fun v => v.toNat = (a.toNat + b.toNat) % 2 ^ 64),
  (.sub o, 1, fun v => (v.toNat + b.toNat) % 2 ^ 64 = a.toNat),
  (.and o, 1, fun v => ∀ i, i < 64 → v.getLsbD i = (a.getLsbD i && b.getLsbD i)),
  (.or o, 1, fun v => ∀ i, i < 64 → v.getLsbD i = (a.getLsbD i || b.getLsbD i)),
  (.xor o, 1, fun v => ∀ i, i < 64 → v.getLsbD i = (a.getLsbD i != b.getLsbD i)),
  (.andn o, 1, fun v => ∀ i, i < 64 → v.getLsbD i = (a.getLsbD i && !b.getLsbD i)),
  (.shl o, 1, fun v => v.toNat = a.toNat * 2 ^ (b.toNat % 64) % 2 ^ 64),
  (.shr o, 1, fun v => v.toNat = a.toNat / 2 ^ (b.toNat % 64)),
  (.sra o, 1, fun v => v.toInt = a.toInt / 2 ^ (b.toNat % 64)),
  (.rol o, 1, fun v => ∀ i, i < 64 → v.getLsbD ((i + b.toNat % 64) % 64) = a.getLsbD i),
  (.mul o, 3, fun v => v.toNat = a.toNat * b.toNat % 2 ^ 64),
  (.mulh o, 3, fun v => (v.toNat : Int) =
    (if o.m = 1 then (a.toNat : Int) else a.toInt) * (if o.m = 0 then b.toInt else (b.toNat : Int)) / 2 ^ 64 % 2 ^ 64),
  (.min o, 1, fun v => (v = a ∨ v = b) ∧
    (o.m = 0 → v.toInt ≤ a.toInt ∧ v.toInt ≤ b.toInt) ∧ (o.m = 1 → v.toNat ≤ a.toNat ∧ v.toNat ≤ b.toNat)),
  (.max o, 1, fun v => (v = a ∨ v = b) ∧
    (o.m = 0 → a.toInt ≤ v.toInt ∧ b.toInt ≤ v.toInt) ∧ (o.m = 1 → a.toNat ≤ v.toNat ∧ b.toNat ≤ v.toNat)),
  (.clz o, 1, fun v => if a = 0 then v = 64 else v.toNat < 64 ∧ 2 ^ (63 - v.toNat) ≤ a.toNat ∧ a.toNat < 2 ^ (64 - v.toNat)),
  (.ctz o, 1, fun v => if a = 0 then v = 64 else 2 ^ v.toNat ∣ a.toNat ∧ ¬ 2 ^ (v.toNat + 1) ∣ a.toNat),
  (.popc o, 1, fun v => v.toNat = (List.range 64).countP fun i => a.getLsbD i),
  (.sext o, 1, fun v => o.m.toNat ≤ 2 → v.toInt = (a.setWidth (8 * 2 ^ o.m.toNat)).toInt),
  (.zext o, 1, fun v => o.m.toNat ≤ 2 → v.toNat = a.toNat % 2 ^ (8 * 2 ^ o.m.toNat)),
  (.clmul o, 2, fun v => ∀ i, i < 64 →
    v.getLsbD i = ((List.range 64).countP (fun j => decide (j ≤ i) && a.getLsbD (i - j) && b.getLsbD j) % 2 == 1)),
  (.clmulh o, 2, fun v => ∀ i, i < 64 →
    v.getLsbD i = ((List.range 64).countP (fun j => a.getLsbD (64 + i - j) && b.getLsbD j) % 2 == 1))]

/-- R172: every integer RRR op completes in every state, delivering f(s[a], s[b]) into s[d] at c+L with no flag; nothing
else of the machine changes at its issue. -/
def Sys2Proof.Safety.integerOpsDeliverTheirFunction : Prop :=
  ∀ (o : RRR) (s : State), ∀ e ∈ intTable o (s.tile.s o.a) (s.tile.s o.b),
    ∃ v, exec e.1 s = .next (gainsS s o.d v 0 e.2.1) ∧ e.2.2 v

/-- R173: DIV and REM divide with truncation toward zero and land at c+18: all ones and the dividend for a zero divisor,
2^63 and 0 for −2^63 ÷ −1, and otherwise the truncated quotient and the remainder with the dividend's sign. -/
def Obligations.DivideAndRemainderTruncate : Prop :=
  decodeTableWord 32 0x8B072091 = some (.div ⟨7, 8, 9, 1⟩) ∧
  ∀ (o : RRR) (s : State), let a := s.tile.s o.a; let b := s.tile.s o.b
    ∃ q r : Word,
      exec (.div o) s = .next (gainsS s o.d q 0 18) ∧ exec (.rem o) s = .next (gainsS s o.d r 0 18) ∧
      (b = 0 → q.toNat = 0xFFFF_FFFF_FFFF_FFFF ∧ r = a) ∧
      (b ≠ 0 → o.m = 1 → a.toNat = q.toNat * b.toNat + r.toNat ∧ r.toNat < b.toNat) ∧
      (b ≠ 0 → o.m = 0 → a.toInt = -2 ^ 63 → b.toInt = -1 → q.toNat = 0x8000_0000_0000_0000 ∧ r = 0) ∧
      (b ≠ 0 → o.m = 0 → ¬(a.toInt = -2 ^ 63 ∧ b.toInt = -1) →
        a.toInt = q.toInt * b.toInt + r.toInt ∧ r.toInt.natAbs < b.toInt.natAbs ∧
        (0 ≤ a.toInt → 0 ≤ r.toInt) ∧ (a.toInt < 0 → r.toInt ≤ 0))

/-- R174: the three forms of SEL's condition; the forms that are no instruction raise ILLEGAL_OP in the slot of C ops. -/
def Obligations.SelectTakesOneOperand : Prop :=
  (∀ (o : RRR) (x : Ext) (s : State), (∀ e, x = some e → e.toNat < 64) →
    exec (.sel o x) s = .next (gainsS s o.d
      (if s.tile.ct.cx.q.getLsbD (o.m.toNat % 8) = !o.m.getLsbD 3 then s.tile.s o.a else s.tile.s o.b) 0 1)) ∧
  (∀ (o : RRR) (r : BitVec 6) (s : State), o.m = 0 →
    exec (.sel o (some (1#1 ++ r))) s =
      .next (gainsS s o.d (if (s.tile.s r).getLsbD 0 then s.tile.s o.a else s.tile.s o.b) 0 1)) ∧
  (∀ (o : RRR) (e : BitVec 7) (first : Bool) (t : Tile), (64 ≤ e.toNat ∧ o.m ≠ 0) ∨ (e.toNat < 64 ∧ e ≠ 0) →
    t.curWords = [packWord first 0 0x37 o.word] → t.ct.sq.pfx = some e → packWord first 0 0x37 o.word ≠ 0 →
    (t.ct.sq.sequential = true → t.ct.sq.pc % 32 = 0 → first = true) →
    (Instr.sel o (some e)).wf = false ∧ t.decodeHere = .error (.illegalOp, 0))

/-- What each RI immediate op delivers (R175); `k` is the sign-extended immediate. -/
def Sys2Proof.Safety.immTable (o : RI) (x : Ext) (a : Word) (k : Int) : List (Instr × (Word → Prop)) := [
  (.addi o x, fun v => (v.toNat : Int) = (a.toNat + k) % 2 ^ 64),
  (.andi o x, fun v => ∀ i, i < 64 → v.getLsbD i = (a.getLsbD i && (BitVec.ofInt 64 k).getLsbD i)),
  (.ori o x, fun v => ∀ i, i < 64 → v.getLsbD i = (a.getLsbD i || (BitVec.ofInt 64 k).getLsbD i)),
  (.xori o x, fun v => ∀ i, i < 64 → v.getLsbD i = (a.getLsbD i != (BitVec.ofInt 64 k).getLsbD i)),
  (.shli o, fun v => v.toNat = a.toNat * 2 ^ (o.imm.toNat % 64) % 2 ^ 64),
  (.shri o, fun v => v.toNat = a.toNat / 2 ^ (o.imm.toNat % 64)),
  (.srai o, fun v => v.toInt = a.toInt / 2 ^ (o.imm.toNat % 64))]

/-- R175 and R176: the immediate ops, LIMM and LINS complete in every state and land at c+1. -/
def Sys2Proof.Safety.immediateOpsDeliverTheirFunction : Prop :=
  (∀ (o : RI) (x : Ext) (s : State), ∀ e ∈ immTable o x (s.tile.s o.a) (signedOf 10 o.imm.toNat x),
    ∃ v, exec e.1 s = .next (gainsS s o.d v 0 1) ∧ e.2 v) ∧
  (∀ (o : RI), 64 ≤ o.imm.toNat → (Instr.shli o).wf = false ∧ (Instr.shri o).wf = false ∧ (Instr.srai o).wf = false) ∧
  (∀ (o : I16) (x : Ext) (s : State), ∃ v : Word,
    exec (.limm o x) s = .next (gainsS s o.d v 0 1) ∧ v.toInt = signedOf 16 o.imm.toNat x) ∧
  (∀ (o : I16) (x : Ext) (s : State), ∃ v : Word,
    exec (.lins o x) s = .next (gainsS s o.d v 0 1) ∧
    ∀ i, i < 64 → v.getLsbD i =
      if i / 16 = x.bits.toNat % 4 then o.imm.getLsbD (i % 16) else (s.tile.s o.d).getLsbD i)

/-! ### Scalar floating and decimal ops (R177-R181) -/

/-- Result and latency of the scalar binary64 ops; `a`, `b` the operands, `z` the addend, `rm` FMODE.RM. -/
def Sys2Proof.Safety.binaryTable (o : RRR) (x : Ext) (rm a b z : Nat) : List (Instr × FRes × Nat) := [
  (.fadd o, fAdd (bfmt 11) rm a b, 4), (.fsub o, fSub (bfmt 11) rm a b, 4), (.fmul o, fMul (bfmt 11) rm a b, 4),
  (.fdiv o, fDiv (bfmt 11) rm a b, 20), (.fsqrt o, fSqrt (bfmt 11) rm a, 24), (.fma o x, fMulAdd (bfmt 11) rm a b z, 5),
  (.fmin o, fMinMax (bfmt 11) false a b, 2), (.fmax o, fMinMax (bfmt 11) true a b, 2),
  (.fclass o, ⟨fClass (bfmt 11) a, 0⟩, 1)]

/-- Result and latency of the scalar decimal64 ops; `rm` is DMODE.RM. -/
def Sys2Proof.Safety.decimalTable (o : RRR) (x : Ext) (rm a b z : Nat) : List (Instr × FRes × Nat) := [
  (.dadd o, dAdd rm a b, 6), (.dsub o, dSub rm a b, 6), (.dmul o, dMul rm a b, 10), (.ddiv o, dDiv rm a b, 44),
  (.dfma o x, dMulAdd rm a b z, 12), (.dquant o, dQuant rm a b, 6),
  (.drint o, dRint (if o.m.toNat = 0 then rm else o.m.toNat - 1) a, 6), (.dclass o, ⟨dClass a, 0⟩, 1)]

/-- The addend of FMA and DFMA: s[d], or the scalar that a prefix names (R177). -/
def Sys2Proof.Safety.addendOf (s : State) (o : RRR) (x : Ext) : Nat :=
  match x with
  | none => s.tile.sN o.d
  | some e => if 64 ≤ e.toNat then s.tile.sN (e.setWidth 6) else s.tile.sN o.d

/-- R177, R180: a scalar binary64 or decimal64 op whose exceptions are not enabled delivers its result into s[d] with its
flags in BFL or DFL, after its latency. -/
def Sys2Proof.Safety.floatingOpsDeliverResultAndFlags : Prop :=
  ∀ (o : RRR) (x : Ext) (s : State),
    (∀ e ∈ binaryTable o x (s.tile.ct.cx.fmode.toNat % 4) (s.tile.sN o.a) (s.tile.sN o.b) (addendOf s o x),
      Quiet s e.2.1.fl → exec e.1 s = .next (gainsS s o.d (BitVec.ofNat 64 e.2.1.val) e.2.1.fl e.2.2)) ∧
    (∀ e ∈ decimalTable o x (s.tile.ct.cx.dmode.toNat % 8) (s.tile.sN o.a) (s.tile.sN o.b) (addendOf s o x),
      Quiet s (e.2.1.fl * 256) → exec e.1 s = .next (gainsS s o.d (BitVec.ofNat 64 e.2.1.val) (e.2.1.fl * 256) e.2.2))

/-- Of the flags `fl`, in the layout of XFLAGS, flag `n` is the exception of highest priority that TRAPEN enables, and `c` its cause
(R91, R93). -/
def Sys2Proof.Safety.trapsFirst (s : State) (fl n : Nat) (c : Cause) : Prop :=
  (∃ k : Fin 5, (n = k.val ∧ c = .binary k) ∨ (n = 8 + k.val ∧ c = .decimal k)) ∧
  (bit fl n && bit s.tile.ct.cx.trapen.toNat n) = true ∧
  ∀ m, m < n → m < 5 ∨ 8 ≤ m → (bit fl m && bit s.tile.ct.cx.trapen.toNat m) = false

/-- TVAL of an arithmetic trap: the lane, and every exception that was raised (R93). -/
def Sys2Proof.Safety.raisedIn (lane fl : Nat) : Word := BitVec.ofNat 64 (lane + fl % 32 * 2 ^ 8 + fl / 2 ^ 8 % 32 * 2 ^ 16)

/-- R93: where an op of these raises an exception that TRAPEN enables, it traps instead, detected in the cycle in which its
result would land, with the code of the lowest such exception; its destination and XFLAGS keep their values. -/
def Sys2Proof.Safety.enabledExceptionsTrapTheOp : Prop :=
  ∀ (o : RRR) (x : Ext) (s : State) (n : Fin 5),
    (∀ e ∈ binaryTable o x (s.tile.ct.cx.fmode.toNat % 4) (s.tile.sN o.a) (s.tile.sN o.b) (addendOf s o x),
      (bit e.2.1.fl n.val && bit s.tile.ct.cx.trapen.toNat n.val) = true →
      (∀ m, m < n.val → (bit e.2.1.fl m && bit s.tile.ct.cx.trapen.toNat m) = false) →
      exec e.1 s = .next (charged s (.binary n) (BitVec.ofNat 64 (e.2.1.fl % 32 * 2 ^ 8)) 0 (s.tile.ct.now + e.2.2))) ∧
    (∀ e ∈ decimalTable o x (s.tile.ct.cx.dmode.toNat % 8) (s.tile.sN o.a) (s.tile.sN o.b) (addendOf s o x),
      (bit e.2.1.fl n.val && bit s.tile.ct.cx.trapen.toNat (8 + n.val)) = true →
      (∀ m, m < n.val → (bit e.2.1.fl m && bit s.tile.ct.cx.trapen.toNat (8 + m)) = false) →
      exec e.1 s = .next (charged s (.decimal n) (BitVec.ofNat 64 (e.2.1.fl % 32 * 2 ^ 16)) 0 (s.tile.ct.now + e.2.2)))

/-- The bits of a converted value in s[d]: an .i target is sign-extended, every other zero-extended (R179). -/
def Sys2Proof.Safety.placed (dst v : Nat) : Word :=
  if dst < 4 then (BitVec.ofNat (8 * 2 ^ dst) v).signExtend 64 else BitVec.ofNat 64 v

/-- R93, R179, R181: FCVT and DCVT deliver the converted source of its type's width, or trap on an enabled exception. -/
def Sys2Proof.Safety.conversionsDeliverTheirTarget : Prop :=
  ∀ (o : RRR) (s : State), let src := o.m.toNat; let dst := o.b.toNat
    let x := s.tile.sN o.a % 2 ^ typeWidth src
    let f := fConvert (s.tile.ct.cx.fmode.toNat % 4) src dst x
    let d := dConvert (s.tile.ct.cx.dmode.toNat % 8) (s.tile.ct.cx.fmode.toNat % 4) src dst x
    (Quiet s f.fl → exec (.fcvt o) s = .next (gainsS s o.d (placed dst f.val) f.fl 4)) ∧
    (Quiet s (d.fl * 256) → exec (.dcvt o) s = .next (gainsS s o.d (placed dst d.val) (d.fl * 256) 10)) ∧
    ∀ n c, (trapsFirst s f.fl n c → exec (.fcvt o) s = .next (charged s c (raisedIn 0 f.fl) 0 (s.tile.ct.now + 4))) ∧
      (trapsFirst s (d.fl * 256) n c → exec (.dcvt o) s =
        .next (charged s c (raisedIn 0 (d.fl * 256)) 0 (s.tile.ct.now + 10)))

/-- Whether an integer condition code holds (R35): 0 EQ, 1 NE, 2 LT, 3 GE, 4 LE, 5 GT signed, 6 LTU, 7 GEU cardinal. -/
def Sys2Proof.Safety.intHolds (code : Nat) (a b : Word) : Bool :=
  [decide (a.toNat = b.toNat), decide (a.toNat ≠ b.toNat), decide (a.toInt < b.toInt), decide (a.toInt ≥ b.toInt),
    decide (a.toInt ≤ b.toInt), decide (a.toInt > b.toInt), decide (a.toNat < b.toNat), decide (a.toNat ≥ b.toNat)].getD code true

/-- R93, R149, R178, R181: the compares write their condition into q[d] and nothing else; FCMP and DCMP with their flags, or they trap on
an enabled exception and write no q bit. -/
def Sys2Proof.Safety.comparesWriteOneConditionBit : Prop :=
  (∀ (o : RRR) (s : State), o.m.toNat < 8 → exec (.cmp o) s =
    .next (gainsQ s (o.d.setWidth 3) (intHolds o.m.toNat (s.tile.s o.a) (s.tile.s o.b)) 0 1)) ∧
  (∀ (o : RI) (x : Ext) (s : State), exec (.cmpi o x) s =
    .next (gainsQ s (o.d.setWidth 3)
      (intHolds (o.d.toNat / 8) (s.tile.s o.a) (BitVec.ofInt 64 (signedOf 10 o.imm.toNat x))) 0 1)) ∧
  (∀ (o : RRR) (s : State), let r := fCompare (bfmt 11) o.m.toNat (s.tile.sN o.a) (s.tile.sN o.b)
    (Quiet s r.2 → exec (.fcmp o) s = .next (gainsQ s (o.d.setWidth 3) r.1 r.2 1)) ∧
    ∀ n c, trapsFirst s r.2 n c → exec (.fcmp o) s = .next (charged s c (raisedIn 0 r.2) 0 (s.tile.ct.now + 1))) ∧
  (∀ (o : RRR) (s : State), let r := dCompare o.m.toNat (s.tile.sN o.a) (s.tile.sN o.b)
    (Quiet s (r.2 * 256) → exec (.dcmp o) s = .next (gainsQ s (o.d.setWidth 3) r.1 (r.2 * 256) 2)) ∧
    ∀ n c, trapsFirst s (r.2 * 256) n c → exec (.dcmp o) s =
      .next (charged s c (raisedIn 0 (r.2 * 256)) 0 (s.tile.ct.now + 2)))

/-- R149: QOP applies its truth table to two q bits; QMOV moves all eight q bits to a scalar or back, or sets one from any
or all of a mask. -/
def Sys2Proof.Safety.conditionBitMoves : Prop :=
  (∀ (o : RRR) (s : State), exec (.qop o) s = .next (gainsQ s (o.d.setWidth 3)
    (o.m.getLsbD (2 * (s.tile.ct.cx.q.getLsbD (o.a.toNat % 8)).toNat + (s.tile.ct.cx.q.getLsbD (o.b.toNat % 8)).toNat)) 0 1)) ∧
  (∀ (o : RRR) (s : State), o.m = 0 → ∃ v : Word, exec (.qmov o) s = .next (gainsS s o.d v 0 1) ∧
    ∀ i, v.getLsbD i = (decide (i < 8) && s.tile.ct.cx.q.getLsbD i)) ∧
  (∀ (o : RRR) (s : State), o.m = 1 → ∃ v : Vec, exec (.qmov o) s = .next (gains s .qAll v 1 0 1 0) ∧
    ∀ i, i < 8 → v.getLsbD i = (s.tile.s o.a).getLsbD i) ∧
  (∀ (o : RRR) (s : State), o.m = 2 → exec (.qmov o) s = .next (gainsQ s (o.d.setWidth 3)
    ((List.range 64).any fun i => (s.tile.ct.cx.rdK (o.a.setWidth 3)).getLsbD i) 0 1)) ∧
  (∀ (o : RRR) (s : State), o.m = 3 → exec (.qmov o) s = .next (gainsQ s (o.d.setWidth 3)
    ((List.range 64).all fun i => (s.tile.ct.cx.rdK (o.a.setWidth 3)).getLsbD i) 0 1))

/-- R79-R81: rounding the exact value of any finite nonzero word of a binary format gives that word back, exactly. -/
def Sys2Proof.Safety.representableBinaryValuesRoundToThemselves : Prop :=
  ∀ (code rm x : Nat) (neg : Bool) (m : Nat) (e : Int), 8 ≤ code → code ≤ 11 → rm < 5 → m ≠ 0 →
    x < 2 ^ (bfmt code).width → (bfmt code).read x = .fin neg m e →
    (bfmt code).make rm neg m e false = ⟨x, 0⟩

/-- The value of a finite word of a binary format (R79). -/
def Sys2Proof.Safety.binaryValue (f : BFmt) (x : Nat) : Option Rat :=
  match f.read x with
  | .fin neg m e => some ((if neg then -1 else 1) * m * (2 : Rat) ^ e)
  | _ => none

/-- The value of a finite decimal64 word (R85). -/
def Sys2Proof.Safety.decimalValue (x : Nat) : Option Rat :=
  match dRead x with
  | .fin neg c q => some ((if neg then -1 else 1) * c * (10 : Rat) ^ q)
  | _ => none

/-- How far two values lie apart. -/
def Sys2Proof.Safety.apart (a b : Rat) : Rat := if a ≤ b then b - a else a - b

/-- The results `op rm` of the rounding modes 0 RNE, 1 RTZ, 2 RUP and 3 RDN are the exact value `z` rounded once: `z` itself with no flag
where a word has it; else the value below or above it that the mode asks for, RNE the nearer of the two, with inexact (R80, R81, R87). -/
def Sys2Proof.Safety.roundsOnce (value : Nat → Option Rat) (op : Nat → FRes) (z : Rat) : Prop :=
  (∀ x, value x = some z → ∀ rm, rm < 4 → value (op rm).val = some z ∧ (op rm).fl = 0) ∧
  (∀ rm v, rm < 4 → value (op rm).val = some v → bit (op rm).fl 4 = decide (v ≠ z) ∧ (rm = 2 → z ≤ v) ∧ (rm = 3 → v ≤ z) ∧
    (rm = 1 → (0 ≤ z → 0 ≤ v ∧ v ≤ z) ∧ (z ≤ 0 → z ≤ v ∧ v ≤ 0))) ∧
  ((op 0).val = (op 2).val ∨ (op 0).val = (op 3).val) ∧
  (∀ v up down, value (op 0).val = some v → value (op 2).val = some up → value (op 3).val = some down →
    apart v z ≤ apart up z ∧ apart v z ≤ apart down z)

/-- R80, R81, R87: sums, differences, products, quotients and fused products of finite operands are their exact values rounded once, in
every binary format and in decimal64. -/
def Sys2Proof.Safety.arithmeticRoundsTheExactResult : Prop :=
  (∀ (code a b c : Nat) (u v w : Rat), 8 ≤ code → code ≤ 11 → let f := bfmt code
    binaryValue f a = some u → binaryValue f b = some v → binaryValue f c = some w →
    roundsOnce (binaryValue f) (fAdd f · a b) (u + v) ∧ roundsOnce (binaryValue f) (fSub f · a b) (u - v) ∧
    roundsOnce (binaryValue f) (fMul f · a b) (u * v) ∧ (v ≠ 0 → roundsOnce (binaryValue f) (fDiv f · a b) (u / v)) ∧
    roundsOnce (binaryValue f) (fMulAdd f · a b c) (u * v + w)) ∧
  (∀ (a b c : Nat) (u v w : Rat), decimalValue a = some u → decimalValue b = some v → decimalValue c = some w →
    roundsOnce decimalValue (dAdd · a b) (u + v) ∧ roundsOnce decimalValue (dSub · a b) (u - v) ∧
    roundsOnce decimalValue (dMul · a b) (u * v) ∧ (v ≠ 0 → roundsOnce decimalValue (dDiv · a b) (u / v)) ∧
    roundsOnce decimalValue (dMulAdd · a b c) (u * v + w))

/-- A floating condition code on an ordering (R35, R83): 0 EQ, 1 NE, 2 LT, 3 GE, 4 LE, 5 GT, 6 UN, 7 OR. -/
def Sys2Proof.Safety.floatHolds (code : Nat) (u : Option Ordering) : Bool :=
  match u with
  | none => code == 1 || code == 6
  | some .lt => code == 1 || code == 2 || code == 4 || code == 7
  | some .eq => code == 0 || code == 3 || code == 4 || code == 7
  | some .gt => code == 1 || code == 3 || code == 5 || code == 7

/-- R81, R83, R84: compares order finite values by value and a NaN with nothing, a NaN raising invalid under LT, GE, LE and GT and a
signalling one always; a conversion rounds the exact value once, and one to an integer type delivers an integer of its range. -/
def Sys2Proof.Safety.comparesAndConversionsFollowTheValue : Prop :=
  (∀ (code c a b : Nat) (u v : Rat), 8 ≤ code → code ≤ 11 → c < 8 →
    (binaryValue (bfmt code) a = some u → binaryValue (bfmt code) b = some v → fCompare (bfmt code) c a b =
      (floatHolds c (some (if u < v then .lt else if u = v then .eq else .gt)), 0)) ∧
    (decimalValue a = some u → decimalValue b = some v → dCompare c a b =
      (floatHolds c (some (if u < v then .lt else if u = v then .eq else .gt)), 0)) ∧
    (∀ g, (bfmt code).read a = .nan g ∨ (bfmt code).read b = .nan g → (fCompare (bfmt code) c a b).1 = floatHolds c none ∧
      (g = true ∨ (2 ≤ c ∧ c ≤ 5) → (fCompare (bfmt code) c a b).2 = 1))) ∧
  (∀ (src dst x : Nat) (z : Rat), 8 ≤ src → src ≤ 11 → binaryValue (bfmt src) x = some z →
    (8 ≤ dst → dst ≤ 11 → roundsOnce (binaryValue (bfmt dst)) (fConvert · src dst x) z) ∧
    (∀ (k : Int) (rm : Nat), dst < 8 → rm < 4 → z = k → intMin dst ≤ k → k ≤ intMax dst →
      fConvert rm src dst x = ⟨(k % 2 ^ intWidth dst).toNat, 0⟩)) ∧
  (∀ (src dst x : Nat), src < 8 → 8 ≤ dst → dst ≤ 11 → roundsOnce (binaryValue (bfmt dst)) (fConvert · src dst x)
    (if src < 4 ∧ 2 ^ intWidth src ≤ 2 * (x % 2 ^ intWidth src) then ((x % 2 ^ intWidth src : Nat) : Rat) - 2 ^ intWidth src
      else ((x % 2 ^ intWidth src : Nat) : Rat)))

/-- R172: scalar integer ops, immediate ops, LIMM and LINS. -/
def Obligations.IntegerAndImmediateOpsDeliverTheirFunction : Prop := integerOpsDeliverTheirFunction ∧ immediateOpsDeliverTheirFunction

/-- R79-R81, R80, R81, R87, R83, R84: rounding, arithmetic, compares and conversions of the number formats. -/
def Obligations.BinaryAndDecimalArithmeticRoundsOnce : Prop := representableBinaryValuesRoundToThemselves ∧ arithmeticRoundsTheExactResult ∧ comparesAndConversionsFollowTheValue

/-- R177, R180, R93, R179, R181: floating scalar ops and conversions deliver their result and flags, or trap. -/
def Obligations.FloatingOpsDeliverOrTrap : Prop := floatingOpsDeliverResultAndFlags ∧ enabledExceptionsTrapTheOp ∧ conversionsDeliverTheirTarget

/-- R93, R149, R178, R181: compares, and ops on condition bits. -/
def Obligations.ConditionBitsAreWrittenAndMoved : Prop := comparesWriteOneConditionBit ∧ conditionBitMoves

/-! ### The sequencer (R140-R167) -/

/-- Bytes of the code part of the context's share (R164). -/
def Sys2Proof.Safety.codePart (s : State) : Nat := s.tile.ct.isize * 1024 - 8 * s.tile.ct.segn

/-- The b register prepared for a target by an op of this bundle (R141). -/
def Sys2Proof.Safety.prepared (s : State) (target : Nat) : BReg :=
  { target := target, state := .pending, ready := s.tile.ct.now + 3, copy := [], copyAt := some (s.tile.ct.now + 2) }

/-- The state with another b register `n`. -/
def Sys2Proof.Safety.withB (s : State) (n : BitVec 3) (b : BReg) : State :=
  withSeq s { s.tile.ct.sq with b := s.tile.ct.sq.b.set n.toNat b n.isLt }

/-- R141, R147, R148: BPREP and BPREPR make their register Pending for the target and Ready from c+3 where the target lies in
the code part, and raise ILLEGAL_OP with the target otherwise; BINV empties one register or all. -/
def Sys2Proof.Safety.preparationAndInvalidation : Prop :=
  (∀ (o : BP) (s : State), let z : Int := s.tile.ct.sq.pc + 4 * o.disp.toInt
    let a : Word := BitVec.ofInt 64 z
    (0 ≤ z → a.toNat < codePart s → exec (.bprep o) s = .next (withB s o.b (prepared s a.toNat))) ∧
    (z < 0 ∨ codePart s ≤ a.toNat → exec (.bprep o) s = .next (charged s .illegalOp a 0 s.tile.ct.now))) ∧
  (∀ (o : RRR) (s : State), let v := s.tile.s o.a
    (v.toNat < 2 ^ 17 → v.toNat % 4 = 0 → v.toNat < codePart s →
      exec (.bprepr o) s = .next (withB s (o.d.setWidth 3) (prepared s v.toNat))) ∧
    (2 ^ 17 ≤ v.toNat ∨ v.toNat % 4 ≠ 0 ∨ codePart s ≤ v.toNat →
      exec (.bprepr o) s = .next (charged s .illegalOp v 0 s.tile.ct.now))) ∧
  (∀ (o : BX) (s : State), o.f.getLsbD 0 = false → exec (.binv o) s = .next (withB s o.b {})) ∧
  (∀ (o : BX) (s : State), o.f.getLsbD 0 = true → ∃ q : Seq, exec (.binv o) s = .next (withSeq s q) ∧
    (∀ n : BitVec 3, (q.b[n.toNat]'n.isLt).state = .empty) ∧ q = { s.tile.ct.sq with b := q.b })

/-- The word at code address `a` of a packet copy begins a bundle and is not the pad word (R54, R29). -/
def Sys2Proof.Safety.arrives (copy : List OpWord) (a : Nat) : Prop :=
  (copy.getD (a / 4 % 8) 0).getLsbD 31 = true ∧ copy.getD (a / 4 % 8) 0 ≠ 0xFFC00000

/-- The cause with which an arrival there is refused: a word that begins no bundle, or the pad word (R54, R142). -/
def Sys2Proof.Safety.arrivalCause (copy : List OpWord) (a : Nat) : Option Cause :=
  let w := copy.getD (a / 4 % 8) 0
  if w.getLsbD 31 = false then some .misalignedTarget else if w = 0xFFC00000 then some .illegalOp else none

/-- A b register of the tile in focus. -/
def Sys2Proof.Safety.bReg (s : State) (n : BitVec 3) : BReg := s.tile.ct.sq.b[n.toNat]'n.isLt

/-- The sequencer state after a transfer through b register `n` is taken: the next bundle is the target's, from the copy; f[0]
empties the register. -/
def Sys2Proof.Safety.transferred (s : State) (o : BX) (rets : List RetEntry) : State :=
  withSeq s { s.tile.ct.sq with
    target := some ((bReg s o.b).target, (bReg s o.b).copy), rets := rets
    b := if o.f.getLsbD 0 then s.tile.ct.sq.b.set o.b.toNat {} o.b.isLt else s.tile.ct.sq.b }

/-- R143, R145, R158: through a Ready register whose target begins a bundle, BT and BF transfer on their condition bit and
otherwise do nothing, BA transfers, CALL also pushes the next sequential address, Ready from t+1, and RET pops it and goes
there. -/
def Sys2Proof.Safety.transfersGoToTheirTarget : Prop :=
  ∀ (o : BX) (s : State),
    ((bReg s o.b).state = .ready → arrives (bReg s o.b).copy (bReg s o.b).target →
      (exec (.bt o) s = .next (if s.tile.ct.cx.q.getLsbD o.q.toNat then transferred s o s.tile.ct.sq.rets else s)) ∧
      (exec (.bf o) s = .next (if s.tile.ct.cx.q.getLsbD o.q.toNat then s else transferred s o s.tile.ct.sq.rets)) ∧
      (exec (.ba o) s = .next (transferred s o s.tile.ct.sq.rets)) ∧
      (s.tile.ct.sq.rets.length < 8 →
        let a := s.tile.follow.getD s.tile.afterAddr
        exec (.call o) s = .next (transferred s o
          ({ addr := a, copy := s.tile.packet a, state := .pending, ready := s.tile.ct.now + 1 } :: s.tile.ct.sq.rets)))) ∧
    (∀ r rs, s.tile.ct.sq.rets = r :: rs → r.state = .ready → arrives r.copy r.addr →
      exec (.ret o) s = .next (withSeq s { s.tile.ct.sq with rets := rs, target := some (r.addr, r.copy) }))

/-- The cause and TVAL with which a transfer to a register or entry in state `st` traps, in the order of R142 and R158;
`empty` is what an Empty one raises. -/
def Sys2Proof.Safety.transferCause (empty : Cause × Nat) (st : BState) (ready now : Nat) (copy : List OpWord) (a : Nat) :
    Option (Cause × Nat) :=
  let w := copy.getD (a / 4 % 8) 0
  match st with
  | .empty => some empty
  | .pending => some (.prematureTransfer, ready - now)
  | .stale => some (.staleTarget, a)
  | .ready =>
    if w.getLsbD 31 = false then some (.misalignedTarget, a)
    else if w = 0xFFC00000 then some (.illegalOp, a)
    else none

/-- R142, R158: the checks of BT, BF, BA and CALL, made whether the transfer is taken or not, then CALL's ninth entry, and the
checks of RET; a failing one is charged to the bundle and neither transfers nor pushes nor pops. -/
def Sys2Proof.Safety.transferChecksTrapInOrder : Prop :=
  (∀ (o : BX) (s : State) (c : Cause) (v : Nat),
    transferCause (.unpreparedTarget, o.b.toNat) (bReg s o.b).state (bReg s o.b).ready s.tile.ct.now (bReg s o.b).copy
      (bReg s o.b).target = some (c, v) →
    ∀ i ∈ [Instr.bt o, .bf o, .ba o, .call o], exec i s = .next (charged s c (BitVec.ofNat 64 v) 0 s.tile.ct.now)) ∧
  (∀ (o : BX) (s : State), (bReg s o.b).state = .ready → arrives (bReg s o.b).copy (bReg s o.b).target →
    8 ≤ s.tile.ct.sq.rets.length → exec (.call o) s = .next (charged s .rstackOverflow 8 0 s.tile.ct.now)) ∧
  (∀ (o : BX) (s : State), s.tile.ct.sq.rets = [] →
    exec (.ret o) s = .next (charged s .rstackUnderflow 0 0 s.tile.ct.now)) ∧
  (∀ (o : BX) (s : State) (r : RetEntry) (rs : List RetEntry) (c : Cause) (v : Nat), s.tile.ct.sq.rets = r :: rs →
    r.state ≠ .empty → transferCause (.rstackUnderflow, 0) r.state r.ready s.tile.ct.now r.copy r.addr = some (c, v) →
    exec (.ret o) s = .next (charged s c (BitVec.ofNat 64 v) 0 s.tile.ct.now))

/-- The loop entry that an LP op pushes (R150, R151). -/
def Sys2Proof.Safety.pushedLoop (s : State) (o : LP) (x : Ext) (n stages : Nat) (pipelined : Bool) : LoopEntry :=
  let e := s.tile.ct.sq.pc + 4 * (o.e.toNat + 4096 * x.bits.toNat)
  { index := 0, total := n + stages - 1, start := s.tile.follow.getD s.tile.afterAddr, stop := e
    pre := o.f.getLsbD 3, rot := o.f.getLsbD 2, stages := stages - 1, n := n, pipelined := pipelined
    startCopy := [], exitCopy := s.tile.packet e, startAt := some (s.tile.ct.now + 1) }

/-- The state after an LP op has entered a loop: the entry pushed, ROTB to be cleared for a rotating one, and for LOOPP the
predicates of iteration 0, of which only the first stage's is true (R155). -/
def Sys2Proof.Safety.loopEntered (s : State) (o : LP) (x : Ext) (n stages : Nat) (pipelined : Bool) : State :=
  let e := pushedLoop s o x n stages pipelined
  let s := withSeq s { s.tile.ct.sq with loops := e :: s.tile.ct.sq.loops }
  let s := if o.f.getLsbD 2 then withPost s .rotZero else s
  if pipelined then (List.range stages).foldl (fun s j => gainsQ s (BitVec.ofNat 3 (4 + j)) (j == 0) 0 1) s else s

/-- What an LP op does for its trip count `n` (R151). -/
def Sys2Proof.Safety.loopRule (i : Instr) (s : State) (o : LP) (x : Ext) (n stages : Nat) (pipelined : Bool) : Prop :=
  let e := s.tile.ct.sq.pc + 4 * (o.e.toNat + 4096 * x.bits.toNat)
  (0xFFFF_FFFC < n → exec i s = .next (charged s .illegalOp (BitVec.ofNat 64 n) 0 s.tile.ct.now)) ∧
  (n = 0 → e < codePart s → arrives (s.tile.packet e) e →
    exec i s = .next (withSeq s { s.tile.ct.sq with target := some (e, s.tile.packet e) })) ∧
  (∀ c, n = 0 → e < codePart s → arrivalCause (s.tile.packet e) e = some c →
    exec i s = .next (charged s c (BitVec.ofNat 64 e) 0 s.tile.ct.now)) ∧
  (n = 0 → codePart s ≤ e → exec i s = .next (charged s .illegalOp (BitVec.ofNat 64 e) 0 s.tile.ct.now)) ∧
  (0 < n → n ≤ 0xFFFF_FFFC → 6 ≤ s.tile.ct.sq.loops.length →
    exec i s = .next (charged s .loopOverflow 6 0 s.tile.ct.now)) ∧
  (0 < n → n ≤ 0xFFFF_FFFC → s.tile.ct.sq.loops.length < 6 →
    exec i s = .next (loopEntered s o x n stages pipelined))

/-- R151, R155: LOOP, LOOPI and LOOPP push their entry, skip their body for N = 0, where END is fit to be arrived at, and trap on too
large a count or a seventh entry. -/
def Sys2Proof.Safety.loopsAreEntered : Prop :=
  ∀ (o : LP) (x : Ext) (s : State),
    loopRule (.loop o x) s o x (s.tile.s o.s).toNat 1 false ∧
    loopRule (.loopi o x) s o x o.s.toNat 1 false ∧
    loopRule (.loopp o x) s o x (s.tile.s o.s).toNat (o.f.toNat % 4 + 1) true

/-- R153, R154: LEXIT pops the top entry and goes to its END when it is taken, and does nothing otherwise; its checks are made
first; LIDX reads the INDEX of a level, all ones beyond the depth. -/
def Sys2Proof.Safety.loopExitAndIndex : Prop :=
  (∀ (o : BX) (s : State), s.tile.ct.sq.loops = [] → exec (.lexit o) s = .next (charged s .illegalOp 0 0 s.tile.ct.now)) ∧
  (∀ (o : BX) (s : State) (e : LoopEntry) (es : List LoopEntry), s.tile.ct.sq.loops = e :: es →
    (e.exitStale = true → exec (.lexit o) s =
      .next (charged s .staleTarget (BitVec.ofNat 64 e.stop) 0 s.tile.ct.now)) ∧
    (∀ c, e.exitStale = false → arrivalCause e.exitCopy e.stop = some c → exec (.lexit o) s =
      .next (charged s c (BitVec.ofNat 64 e.stop) 0 s.tile.ct.now)) ∧
    (e.exitStale = false → arrives e.exitCopy e.stop → exec (.lexit o) s =
      .next (if o.f.getLsbD 0 = false ∨ s.tile.ct.cx.q.getLsbD o.q.toNat = true then
        withSeq s { s.tile.ct.sq with loops := es, target := some (e.stop, e.exitCopy) } else s))) ∧
  (∀ (o : RI) (s : State), ∃ v : Word, exec (.lidx o) s = .next (gainsS s o.d v 0 1) ∧
    (s.tile.ct.sq.loops.length ≤ o.imm.toNat → v.toNat = 0xFFFF_FFFF_FFFF_FFFF) ∧
    (∀ e, s.tile.ct.sq.loops[o.imm.toNat]? = some e → v = BitVec.ofNat 64 e.index))

/-- R152, R155-R157: when the last bundle of the top loop's body commits without a transfer, an entry with an iteration left counts it in
INDEX, goes back to START, from its copy or, where that is still to be read, from IMEM, advances ROTB after what the bundle wrote to it
where the loop rotates, and lands its stage predicates for the next cycle; an exhausted entry is popped, and what ends there too
follows as if it had been the top; where none does the next bundle follows sequentially. -/
def Sys2Proof.Safety.loopsGoBack : Prop :=
  ∀ (t : Tile) (b : Bundle) (after : Nat) (nxt : Option Nat) (e : LoopEntry) (es : List LoopEntry),
    let q := t.ct.sq; let k := t.commit.ct; let u := t.committed b true after nxt
    q.loops = e :: es → q.target = none → q.rep = none → (∀ f ∈ es, f.startStale = false) →
    let endsHere : Prop := e.start ≤ q.pc ∧ q.pc < e.stop ∧ nxt = some e.stop
    (endsHere → e.index + 1 < e.total → e.startStale = false →
      let i := e.index + 1
      u.ct.sq.loops = { e with index := i } :: es ∧ u.ct.sq.pc = e.start ∧ u.ct.sq.sequential = false ∧
      u.ct.sq.fetchCopy = some (if e.startAt.isSome then t.packet e.start else e.startCopy) ∧
      u.ct.sq.prePoint = (if e.pre then some (k.now + 1) else none) ∧
      u.ct.cx = { k.cx with rotb := if e.rot then k.cx.rotb + 7 else k.cx.rotb } ∧
      ∃ rs : List Result, u.ct.inflight = k.inflight ++ rs ∧ rs.map (fun r => (r.dest, r.due, r.src)) = if e.pipelined then
        (List.range (e.stages + 1)).map fun j =>
          (.q (BitVec.ofNat 3 (4 + j)), k.now + 1, .val (if j ≤ i ∧ i < e.n + j then 1 else 0)) else []) ∧
    (endsHere → e.total ≤ e.index + 1 →
      u = Tile.committed { t with ct := { t.ct with sq := { q with loops := es } } } b true after nxt) ∧
    (¬endsHere → u.ct.sq.loops = q.loops ∧ u.ct.sq.pc = after ∧ u.ct.sq.sequential = true ∧ u.ct.sq.fetchCopy = none ∧
      u.ct.cx = k.cx ∧ u.ct.inflight = k.inflight)

/-- One word more in a segment's signature: bits 31 to 22 through the CRC of R47. -/
def Sys2Proof.Safety.signed44 (sig : BitVec 44) (w : OpWord) : BitVec 44 :=
  (List.range 10).foldl (fun sig j => (sig <<< 1) ^^^ (if sig.getLsbD 43 = w.getLsbD (31 - j) then 0 else 0x2B71C4DA063)) sig

/-- R45-R49: a committed bundle counts as a cycle in the open segment and its words enter the signature; where it closes the segment,
by one of its ops or as the last of a loop body, both are compared with the table entry, a difference is a SEG_MISMATCH with its
REASON, a silent error, and the next bundle has to hold SEG but after NODEEND and TRET. -/
def Sys2Proof.Safety.segmentsFollowTheirBundles : Prop :=
  Cause.cls .segMismatch = .silent ∧
  ∀ (t : Tile) (b : Bundle) (last : Bool) (after : Nat) (nxt : Option Nat) (g : Seg),
    t.ct.sq.seg = some g → (∀ e ∈ t.ct.sq.loops, e.startStale = false) →
    let h : Seg := { g with count := g.count + 1, sig := b.words.foldl signed44 g.sig }
    let entry := t.segEntry g.index
    let reason := (if h.count = entry / 2 ^ 44 % 2 ^ 20 then 0 else 1) + if h.sig.toNat = entry % 2 ^ 44 then 0 else 2
    let u := t.committed b last after nxt
    (last = false → b.ops.any opCloses = false → u.ct.sq.seg = some h ∧ u.ct.sq.mustSeg = t.ct.sq.mustSeg ∧ u.dets = t.dets) ∧
    (last = true ∨ b.ops.any opCloses = true → u.ct.sq.seg = none ∧ (b.ops.any opEndsStream = false → u.ct.sq.mustSeg = true) ∧
      (reason = 0 → u.dets = t.dets) ∧
      (reason ≠ 0 → u.dets = t.dets ++ [{
        cause := .segMismatch, tval := BitVec.ofNat 64 (g.index % 2 ^ 23 + reason * 2 ^ 60), slot := 4, issue := t.ct.now
        addr := t.ct.sq.pc, det := t.ct.now, nest := t.nests t.ct.now }]))

/-- R26, R161, R163, R165, R167, R182: NOP and a prefix bundle change nothing at their issue; SEG opens its segment where none is open
or the open one agrees with its table entry, and is a mismatch of REASON 5 beyond the table; a REP whose bundle holds an X op of
interval r and whose m bundles fit starts its repeat, and any other raises ILLEGAL_OP (R162): n = 0, no X op, R − 1 < m, or a last
bundle of the loop body among the m; NODEEND begins the drain; WAITC holds issue until DCYC is T + 1, and traps when T has passed. -/
def Sys2Proof.Safety.sequencerMarksAndWaits : Prop :=
  (∀ (s : State) (e : BitVec 7), exec .nop s = .next s ∧ exec (.prefixBundle e) s = .next s) ∧
  (∀ (o : I16) (x : Ext) (s : State), let i := immCard 16 o.imm.toNat x
    i < s.tile.ct.segn →
    (∀ g, s.tile.ct.sq.seg = some g → s.tile.segEntry g.index % 2 ^ 64 = g.sig.toNat + g.count * 2 ^ 44) →
    exec (.seg o x) s = .next (withSeq s { s.tile.ct.sq with
      seg := some ⟨i, 0, BitVec.allOnes 44⟩, lastSeg := some i, mustSeg := false })) ∧
  (∀ (o : I16) (x : Ext) (s : State), let i := immCard 16 o.imm.toNat x
    s.tile.ct.segn ≤ i → s.tile.ct.sq.seg = none →
    exec (.seg o x) s = .next (charged s .segMismatch (BitVec.ofNat 64 (i % 2 ^ 23 + 5 * 2 ^ 60)) 0 s.tile.ct.now)) ∧
  (∀ (o : I16) (x : Ext) (s : State) (op : Instr) (body : List (Nat × List OpWord)), let n := immCard 16 o.imm.toNat x
    s.tile.xOp = some op → s.tile.bundlesFrom o.d.toNat s.tile.afterAddr = some body → 0 < n →
    o.d.toNat < n * s.tile.interval op → s.tile.anyLast body = false →
    exec (.rep o x) s = .next (withSeq s { s.tile.ct.sq with rep := some {
      op := op, interval := s.tile.interval op, count := n, start := s.tile.ct.now, body := body
      after := (body.getLast?.map fun b => b.1 + 4 * b.2.length).getD s.tile.afterAddr
      staged := s.tile.ct.now, reissued := s.tile.ct.now } })) ∧
  (∀ (o : I16) (x : Ext) (s : State), let n := immCard 16 o.imm.toNat x
    n = 0 ∨ s.tile.xOp = none ∨ (∀ op, s.tile.xOp = some op → n * s.tile.interval op ≤ o.d.toNat) ∨
      (∀ body, s.tile.bundlesFrom o.d.toNat s.tile.afterAddr = some body → s.tile.anyLast body = true) →
    ∃ v, exec (.rep o x) s = .next (charged s .illegalOp v 0 s.tile.ct.now)) ∧
  (∀ s : State, s.tile.ct.guard = none → exec .nodeend s = .next (withRun s .drain)) ∧
  (∀ (s : State) (v : Word), s.tile.ct.guard = some v →
    exec .nodeend s = .next (charged s .guardGranule v 0 s.tile.ct.now)) ∧
  (∀ (o : RI) (x : Ext) (s : State), let goal := (s.tile.s o.a + BitVec.ofInt 64 (signedOf 10 o.imm.toNat x)).toNat
    let now := (BitVec.ofInt 64 (s.tile.ct.now + (s.quad s.tile.quadIndex).skewOf s.tile.ct.pid)).toNat
    (now ≤ goal → exec (.waitc o x) s = .next (withRun s (.wait (s.tile.ct.now + (goal - now) + 1) .waitc))) ∧
    (goal < now → exec (.waitc o x) s = .next (charged s .rejoinLate (BitVec.ofNat 64 (now - goal)) 0 s.tile.ct.now)))

/-- R159: RSTK pops the top entry into a scalar; RSTK.push pushes a scalar as an entry that is Ready from c+3; each with its
traps. -/
def Sys2Proof.Safety.returnStackSpillAndRefill : Prop :=
  (∀ (o : RRR) (s : State), s.tile.ct.sq.rets = [] →
    exec (.rstk o) s = .next (charged s .rstackUnderflow 0 0 s.tile.ct.now)) ∧
  (∀ (o : RRR) (s : State) (r : RetEntry) (rs : List RetEntry), s.tile.ct.sq.rets = r :: rs →
    exec (.rstk o) s =
      .next (gainsS (withSeq s { s.tile.ct.sq with rets := rs }) o.d (BitVec.ofNat 64 r.addr) 0 1)) ∧
  (∀ (o : RRR) (s : State), let v := s.tile.s o.a
    (2 ^ 17 ≤ v.toNat ∨ v.toNat % 4 ≠ 0 ∨ codePart s ≤ v.toNat →
      exec (.rstkPush o) s = .next (charged s .illegalOp v 0 s.tile.ct.now)) ∧
    (v.toNat < 2 ^ 17 → v.toNat % 4 = 0 → v.toNat < codePart s →
      (8 ≤ s.tile.ct.sq.rets.length → exec (.rstkPush o) s = .next (charged s .rstackOverflow 8 0 s.tile.ct.now)) ∧
      (s.tile.ct.sq.rets.length < 8 → exec (.rstkPush o) s = .next (withSeq s { s.tile.ct.sq with
        rets := { addr := v.toNat, copy := [], state := .pending, ready := s.tile.ct.now + 3,
                  copyAt := some (s.tile.ct.now + 2) } :: s.tile.ct.sq.rets }))))

/-- R141, R147, R148, R143, R145, R158, R142: b registers, transfers and their checks. -/
def Obligations.TransfersReachTheirTargetOrTrap : Prop := preparationAndInvalidation ∧ transfersGoToTheirTarget ∧ transferChecksTrapInOrder

/-- R151, R155, R153, R154, R152, R155-R157: loops.
Where the manual is silent it follows the model's readings (log 15, 59). -/
def Obligations.LoopsAreEnteredAndLeft : Prop := loopsAreEntered ∧ loopExitAndIndex ∧ loopsGoBack

/-- R26, R161, R163, R165, R167, R182, R45-R49, R159: marks, waits and the return stack. -/
def Obligations.SequencerMarksWaitsAndReturnEntries : Prop := sequencerMarksAndWaits ∧ segmentsFollowTheirBundles ∧ returnStackSpillAndRefill

/-! ### The passing of a cycle (R17, R141, R151, R158, R305, R306, R314-R316) -/

/-- The low four bits of a count, in reverse (R315). -/
def Sys2Proof.Safety.reversed4 (n : Nat) : Nat := 8 * (n % 2) + 4 * (n / 2 % 2) + 2 * (n / 4 % 2) + n / 8 % 2

/-- A pulse of this cycle is delivered to the job: it runs, its pulses are withheld by no checkpoint, rollback, switch or thermal pause, and
the cycle is none of those that its THR swallows (R307, R315, R334, R383, R411). -/
def Sys2Proof.Safety.pulsed (s : State) (j : Job) : Bool :=
  j.state == .running && !j.withheld && !j.saving && !j.restart && !s.power.paused && decide (j.thr ≤ reversed4 s.wcyc)

/-- This cycle reaches the context that is active on the tile in focus: it is one, its switch is over, its quad has a clock, and a pulse is
delivered to its partition (R303, R306). -/
def Sys2Proof.Safety.reached (s : State) : Bool :=
  s.tile.ct.isize != 0 && s.tile.ct.run != .out && s.tile.switchLeft.isNone && (s.quad s.tile.quadIndex).src != 3 &&
    s.myJob.any (pulsed s)

/-- From `q` to `r` a deferral queue has had `push` entries appended and `pull` taken out, which are held until the node's end (R131-R133,
R135). -/
def Sys2Proof.Safety.queueMoved (q r push pull : Nat) : Prop :=
  r % 2 ^ 14 = q % 2 ^ 14 ∧ r / 2 ^ 16 % 2 = q / 2 ^ 16 % 2 ∧
  (0 < q % 2 ^ 14 → r / 2 ^ 20 % 2 ^ 14 = (q / 2 ^ 20 % 2 ^ 14 + pull) % (q % 2 ^ 14)) ∧
  (pull ≤ q / 2 ^ 34 % 2 ^ 14 + push → q / 2 ^ 34 % 2 ^ 14 + push < 2 ^ 14 + pull → q / 2 ^ 48 % 2 ^ 14 + pull < 2 ^ 14 →
    r / 2 ^ 34 % 2 ^ 14 + pull = q / 2 ^ 34 % 2 ^ 14 + push ∧ r / 2 ^ 48 % 2 ^ 14 = q / 2 ^ 48 % 2 ^ 14 + pull)

/-- R17, R92, R141, R151, R158, R305, R306, R314-R316: where no event is given or due and no tile is to issue, a step is the passing of the
cycle: WCYC rises by 1, TICK stands but where a SET_TIME waits for the next cycle, and each job's reference rises by 1 in all three
copies exactly where the pulse is delivered to it; nothing is admitted, sent or answered. On a tile that the cycle reaches DCYC rises
by 1, the packet copies whose cycle this is are read from IMEM, an update of DQCAP or PIPMEMB that waited for this cycle is applied,
and no other register changes; on any other nothing does, but that LAG counts the delivered cycles in which a context is out. -/
def Obligations.ACyclePasses : Prop :=
  ∀ s : State, s.inbox = [] → s.power.on = true → dueStep s = none → nextTile s = none → (∀ u ∈ s.tiles, u.rollAsk = false) →
    ∃ t, step s = .next t ∧ t.wcyc = s.wcyc + 1 ∧ t.hilum = s.hilum ∧ t.power = s.power ∧ t.arms = s.arms ∧ t.launches = s.launches ∧
      (∀ v w, s.timeAt = some (v, w) → t.tick = if w ≤ s.wcyc + 1 then v else s.tick) ∧ (s.timeAt = none → t.tick = s.tick) ∧
      t.jobs = s.jobs.map (fun j => if pulsed s j = true then { j with refs := j.refs.map (· + 1) } else j) ∧
      let k := s.tile.ct; let n := t.tile.ct
      t.tile.sp = s.tile.sp ∧ t.tile.imem = s.tile.imem ∧ t.tile.acc = s.tile.acc ∧ t.tile.dets = s.tile.dets ∧
      (reached s = false → n = { k with lag := if k.run = .out ∧ s.myJob.any (pulsed s) = true then k.lag + 1 else k.lag }) ∧
      (reached s = true → n.now = k.now + 1 ∧ n.run = k.run ∧ n.inflight = k.inflight ∧ n.y = k.y ∧ n.lag = k.lag ∧
        t.tile.issued = false ∧ n.sq.pc = k.sq.pc ∧
        n.sq.b = k.sq.b.map (fun b => if b.copyAt.any (· ≤ k.now) then
          { b with copy := s.tile.packet b.target, copyAt := none } else b) ∧
        n.sq.rets = k.sq.rets.map (fun r => if r.copyAt.any (· ≤ k.now) then
          { r with copy := s.tile.packet r.addr, copyAt := none } else r) ∧
        n.sq.loops = k.sq.loops.map (fun e => if e.startAt.any (· ≤ k.now) then
          { e with startCopy := s.tile.packet e.start, startAt := none } else e) ∧
        (s.tile.engineOor = none →
          (k.dqLate = none → k.mincLate = none → n.cx = k.cx) ∧
          (∀ c m, k.dqLate = none → k.mincLate = some (c, m) → c ≤ k.now → n.mincLate = none ∧
            n.cx = { k.cx with pipmemb := BitVec.ofNat 64 ((k.cx.pipmemb.toNat + m) % 2 ^ 16) }) ∧
          (∀ c push pull, k.mincLate = none → k.dqLate = some (c, push, pull) →
            (k.now < c → n.cx = k.cx ∧ n.dqLate = k.dqLate) ∧
            (c ≤ k.now → n.dqLate = none ∧ n.cx = { k.cx with dqcap := n.cx.dqcap } ∧
              queueMoved k.cx.dqcap.toNat n.cx.dqcap.toNat push pull))))

/-! ### System ops (R182-R197) -/

/-- R183: SCHK does nothing where its scalars agree, and otherwise raises SHADOW_MISMATCH, a silent error, with the lowest
differing bit and the two fields in TVAL. -/
def Sys2Proof.Safety.shadowCompare : Prop :=
  Cause.cls .shadowMismatch = .silent ∧
  (∀ (o : RRR) (s : State), s.tile.s o.a = s.tile.s o.b → exec (.schk o) s = .next s) ∧
  (∀ (o : RRR) (s : State), s.tile.s o.a ≠ s.tile.s o.b → ∃ n, n < 64 ∧
    (s.tile.s o.a).getLsbD n ≠ (s.tile.s o.b).getLsbD n ∧
    (∀ m, m < n → (s.tile.s o.a).getLsbD m = (s.tile.s o.b).getLsbD m) ∧
    exec (.schk o) s = .next (charged s .shadowMismatch
      (BitVec.ofNat 64 (n + o.a.toNat * 2 ^ 6 + o.b.toNat * 2 ^ 12)) 0 s.tile.ct.now))

/-- R184: TRAP raises TRAP_INSTR with its immediate; TRET in a handler resumes the interrupted context at u + 4. -/
def Sys2Proof.Safety.trapAndReturnOps : Prop :=
  (∀ (o : I16) (x : Ext) (s : State), exec (.trap o x) s =
    .next (charged s .trapInstr (BitVec.ofNat 64 (immCard 16 o.imm.toNat x)) 0 s.tile.ct.now)) ∧
  (∀ s : State, s.tile.ct.trap ≠ none →
    arrives (s.tile.packet s.tile.ct.cx.tpc.toNat) s.tile.ct.cx.tpc.toNat →
    exec .tret s = .next (withRun s (.resume (s.tile.ct.now + 4)))) ∧
  (∀ s : State, s.tile.ct.trap = none → ∃ v, exec .tret s = .next (charged s .illegalOp v 0 s.tile.ct.now))

/-- The cycles D(S) that a FENCE of each scope covers (R187). -/
def Sys2Proof.Safety.fenceWait (scope : Nat) : Nat := [0, 3, 10, 38, 278, 278].getD scope 278

/-- R185-R187, R196: CONDW records the contribution; PHASE changes PHASE at its commit unless a guard fault is pending; FENCE
holds issue for D(S) cycles, each of which counts in the open segment as it passes, and from .wafer on fixes its context's DIGEST. -/
def Sys2Proof.Safety.conditionPhaseAndFence : Prop :=
  (∀ (o : RRR) (s : State), exec (.condw o) s =
    .next (withTile s { s.tile with ct := { s.tile.ct with condw := some (s.tile.s o.a) } })) ∧
  (∀ (o : I16) (s : State), s.tile.ct.guard = none → exec (.phase o) s = .next (withPost s (.phase o.imm.toNat))) ∧
  (∀ (o : I16) (s : State) (v : Word), s.tile.ct.guard = some v →
    exec (.phase o) s = .next (charged s .guardGranule v 0 s.tile.ct.now)) ∧
  (∀ (o : I16) (s : State), 1 ≤ o.imm.toNat → o.imm.toNat ≤ 5 → let d := fenceWait o.imm.toNat
    exec (.fence o) s = .next (withTile s { s.tile with ct := { s.tile.ct with
      digest := if 4 ≤ o.imm.toNat then
        ((s.myJob.map fun j => BitVec.ofNat 64 (ofBytes (j.digest.take 8))).getD 0) else s.tile.ct.digest
      run := .wait (s.tile.ct.now + d + 1) .fence } })) ∧
  (∀ (t : Tile) (n : Nat) (g : Seg), t.ct.run = .wait n .fence → t.ct.now + 1 < n → t.ct.sq.seg = some g →
    t.fenceCycle = t.onSq ({ · with seg := some { g with count := g.count + 1 } }))

/-- R188, R194: RDCYC reads the copies of the tile's quad as they stand, moved by whatever fault has moved them. -/
def Sys2Proof.Safety.countsAreReadAsTheyStand : Prop :=
  ∀ (o : RI) (s : State), let q := s.quad s.tile.quadIndex
    (o.imm = 0 → exec (.rdcyc o) s = .next (gainsS s o.d (BitVec.ofInt 64 (s.tile.ct.now + q.skewOf s.tile.ct.pid)) 0 1)) ∧
    (o.imm = 1 → exec (.rdcyc o) s = .next (gainsS s o.d (BitVec.ofInt 64 (s.wcyc + q.wskew)) 0 1)) ∧
    (o.imm = 2 → exec (.rdcyc o) s = .next (gainsS s o.d (BitVec.ofInt 64 (s.tick + q.tickSkew)) 0 1)) ∧
    (2 < o.imm.toNat → (Instr.rdcyc o).wf = false)

/-- R189, R312: CALIGN arms the copies of its partition in exactly the quads of its partition that lie in the tile's scope unit, and
for .pod the job; nothing else of the machine changes. In a beacon cycle whose counts are latched already, the beacon realigns these
quads at once: their copies of WCYC are right, those of the partition's DCYC are the reference less LAG, and nothing stays armed. -/
def Sys2Proof.Safety.calignArmsItsScope : Prop :=
  ∀ (o : I16) (s : State) (j : Job), s.myJob = some j → 2 ≤ o.imm.toNat → o.imm.toNat ≤ 5 →
    let inScope (n : Nat) : Bool := (List.range (j.width * j.height)).any fun i =>
      (n == (j.y + i / j.width) * 72 + j.x + i % j.width) && sameUnit o.imm.toNat (s.tile.relQuad j) (i % j.width, i / j.width)
    ∃ t, exec (.calign o) s = .next t ∧ t = { s with quads := t.quads, jobs := t.jobs } ∧
      t.jobs = s.jobs.map (fun k => if k.pid = s.tile.ct.pid ∧ k.state = .running then
        { k with podArmed := k.podArmed || decide (o.imm.toNat = 5) } else k) ∧
      (¬(s.beaconDone = true ∧ s.wcyc % 1024 = 0) →
        ∀ n, t.quad n = { s.quad n with armed := (s.quad n).armed ++
          (if inScope n && !(s.quad n).armed.contains s.tile.ct.pid then [s.tile.ct.pid] else []) }) ∧
      (s.beaconDone = true → s.wcyc % 1024 = 0 → ∀ n, inScope n = true →
        (t.quad n).armed = [] ∧ (t.quad n).wskew = 0 ∧ (t.quad n).skewOf s.tile.ct.pid = s.refOff s.tile.ct.pid ∧
          (s.others = [] → s.tile.ct.isize ≠ 0 →
            (t.quad n).skewOf s.tile.ct.pid = (j.ref : Int) - (s.tile.ct.now + s.tile.ct.lag : Nat)))

/-- Every CSR of the map with the value it reads as (R192-R197). -/
def Sys2Proof.Safety.csrMap (s : State) : List (Nat × Word) :=
  let x := s.tile.ct.cx
  let q := s.quad s.tile.quadIndex
  [(0x000, x.tileid), (0x001, x.groupid), (0x002, x.nodeinst), (0x003, x.partid), (0x004, x.groupsize),
   (0x010, x.fmode), (0x011, x.dmode), (0x012, x.trapen), (0x013, x.xflags),
   (0x020, x.tcause), (0x021, x.tpc), (0x022, x.tcyc), (0x023, x.tval), (0x024, x.tslot),
   (0x030, BitVec.ofInt 64 (s.tile.ct.now + q.skewOf s.tile.ct.pid)), (0x031, BitVec.ofInt 64 (s.wcyc + q.wskew)),
   (0x032, BitVec.ofInt 64 (s.tick + q.tickSkew)),
   (0x040, x.phase), (0x041, x.oobaddr), (0x042, x.oobflag), (0x043, x.memcfg), (0x050, x.cimcfg), (0x051, x.accmode),
   (0x060, x.pipkeylo), (0x061, x.pipkeyhi), (0x062, x.piptag), (0x063, x.pipmemb), (0x070, x.dqbase), (0x071, x.dqcap),
   (0x080, BitVec.ofNat 64 s.tile.ct.sq.rets.length), (0x081, x.rotb.setWidth 64), (0x090, s.tile.ct.digest),
   (0x0F0, s.tile.ct.finj)]

/-- The numbers of the CSRs that take a CSRW (R192). -/
def Sys2Proof.Safety.csrWrites : List Nat :=
  [0x010, 0x011, 0x012, 0x013, 0x021, 0x042, 0x050, 0x051, 0x060, 0x061, 0x062, 0x063, 0x070, 0x071, 0x081, 0x0F0]

/-- R191, R192: CSRR reads every CSR of the map and raises ILLEGAL_OP with the number for any other; CSRW raises ILLEGAL_OP
with the number where no CSR of the number takes a write, and a write that passes its checks is left for the commit. -/
def Sys2Proof.Safety.csrAccessFollowsTheMap : Prop :=
  (∀ (d : BitVec 6) (s : State), ∀ e ∈ csrMap s, exec (.csrr ⟨d, BitVec.ofNat 16 e.1⟩) s = .next (gainsS s d e.2 0 1)) ∧
  (∀ (o : I16) (s : State), (∀ e ∈ csrMap s, e.1 ≠ o.imm.toNat) →
    exec (.csrr o) s = .next (charged s .illegalOp (o.imm.setWidth 64) 0 s.tile.ct.now)) ∧
  (∀ (o : I16) (s : State), o.imm.toNat ∉ csrWrites →
    exec (.csrw o) s = .next (charged s .illegalOp (o.imm.setWidth 64) 0 s.tile.ct.now)) ∧
  (∀ (o : I16) (s : State), s.tile.csrWriteFault o.imm.toNat (s.tile.s o.d).toNat = none →
    exec (.csrw o) s = .next (withPost s (.csr (o.imm.setWidth 12) (s.tile.s o.d)))) ∧
  (∀ (d : BitVec 6) (s : State), let w (n : Nat) := exec (.csrw ⟨d, BitVec.ofNat 16 n⟩) s
    ((s.tile.s d).toNat < 8 → w 0x081 = .next (withPost s (.csr 0x081 (s.tile.s d)))) ∧
    (8 ≤ (s.tile.s d).toNat → w 0x081 = .next (charged s .illegalOp 0x081 0 s.tile.ct.now)) ∧
    ((s.tile.s d).toNat < 4 → w 0x010 = .next (withPost s (.csr 0x010 (s.tile.s d)))) ∧
    (4 ≤ (s.tile.s d).toNat → w 0x010 = .next (charged s .illegalOp (s.tile.s d) 0 s.tile.ct.now)) ∧
    w 0x060 = .next (withPost s (.csr 0x060 (s.tile.s d))))

/-- The register state of a tile after a CSR write alone. -/
def Sys2Proof.Safety.csrSet (x : Ctx) (v : Word) : List (BitVec 12 × Ctx) :=
  [(0x010, { x with fmode := v }), (0x011, { x with dmode := v }), (0x012, { x with trapen := v }), (0x021, { x with tpc := v }),
   (0x050, { x with cimcfg := v }), (0x051, { x with accmode := v }), (0x060, { x with pipkeylo := v }),
   (0x061, { x with pipkeyhi := v }), (0x062, { x with piptag := v }), (0x063, { x with pipmemb := v }),
   (0x070, { x with dqbase := v }), (0x071, { x with dqcap := v }), (0x081, { x with rotb := v.setWidth 3 })]

/-- R17, R111, R132, R133, R156, R186, R191, R195, R210, R223, R225, R237, R244: when a bundle commits, an RW CSR takes the value
written and no other register changes, but that an update of DQCAP or PIPMEMB which still waits is put off by a write of it, by CSRW or
PIPM, and that one of the same bundle waits a cycle; a write of XFLAGS or OOBFLAG clears the bits written as 1 but those raised in that
cycle (R92); PHASE adds 1 to NUM modulo 4,096, sets SCOPE and keeps BPH; a stream's position moves, and SRST, last of all, sets it to 0;
VDEFER appends and VDRAIN takes entries of the deferral queue; MINC adds 1 to MEMB, and a rotating loop clears ROTB. -/
def Sys2Proof.Safety.commitAppliesCsrWrites : Prop :=
  (∀ (t : Tile) (v : Word), t.ct.dqLate = none → t.ct.mincLate = none → ∀ e ∈ csrSet t.ct.cx v,
    Tile.commit { t with post := [.csr e.1 v] } = { t with post := [], ct := { t.ct with cx := e.2 } }) ∧
  (∀ (t : Tile) (n : BitVec 4) (p : Nat), t.ct.dqLate = none → t.ct.mincLate = none →
    let moved (k : BitVec 4) (p : Nat) : Vector Stream 16 := t.ct.cx.a.set k.toNat { t.ct.cx.rdA k with pos := p } k.isLt
    Tile.commit { t with post := [.stream n p] } = { t with post := [], ct := { t.ct with cx := { t.ct.cx with a := moved n p } } } ∧
    Tile.commit { t with post := [.srst n] } = { t with post := [], ct := { t.ct with cx := { t.ct.cx with a := moved n 0 } } } ∧
    Tile.commit { t with post := [.srst n, .stream n p] } = Tile.commit { t with post := [.srst n] } ∧
    Tile.commit { t with post := [.rotZero] } = { t with post := [], ct := { t.ct with cx := { t.ct.cx with rotb := 0 } } }) ∧
  (∀ (t : Tile) (push pull : Nat) (v : Word), t.ct.dqLate = none → t.ct.mincLate = none →
    (∃ w : Word, Tile.commit { t with post := [.dqPush push] } =
      { t with post := [], ct := { t.ct with cx := { t.ct.cx with dqcap := w } } } ∧ queueMoved t.ct.cx.dqcap.toNat w.toNat push 0) ∧
    (∃ w : Word, Tile.commit { t with post := [.dqPull pull] } =
      { t with post := [], ct := { t.ct with cx := { t.ct.cx with dqcap := w } } } ∧ queueMoved t.ct.cx.dqcap.toNat w.toNat 0 pull) ∧
    Tile.commit { t with post := [.csr 0x071 v, .dqPush push] } =
      { t with post := [], ct := { t.ct with cx := { t.ct.cx with dqcap := v }, dqLate := some (t.ct.now + 1, push, 0) } } ∧
    Tile.commit { t with post := [.minc] } = { t with post := [], ct := { t.ct with
      cx := { t.ct.cx with pipmemb := BitVec.ofNat 64 ((t.ct.cx.pipmemb.toNat + 1) % 2 ^ 16) } } } ∧
    Tile.commit { t with post := [.pipmemb v] } = { t with post := [], ct := { t.ct with cx := { t.ct.cx with pipmemb := v } } } ∧
    Tile.commit { t with post := [.csr 0x063 v, .minc] } =
      { t with post := [], ct := { t.ct with cx := { t.ct.cx with pipmemb := v }, mincLate := some (t.ct.now + 1, 1) } }) ∧
  (∀ (t : Tile) (v : Word) (n m : Nat), t.ct.dqLate = none → t.ct.mincLate = some (n, m) →
    ∀ p ∈ [Post.csr 0x063 v, .pipmemb v], Tile.commit { t with post := [p] } =
      { t with post := [], ct := { t.ct with cx := { t.ct.cx with pipmemb := v }, mincLate := some (t.ct.now + 1, m) } }) ∧
  (∀ (t : Tile) (v : Word), t.ct.dqLate = none → t.ct.mincLate = none →
    (v.getLsbD 0 = false → Tile.commit { t with post := [.csr 0x042 v] } = { t with post := [] }) ∧
    (v.getLsbD 0 = true →
      ((∀ o, t.ct.oor = some o → o.1 ≠ t.ct.now) → Tile.commit { t with post := [.csr 0x042 v] } =
        { t with post := [], ct := { t.ct with cx := { t.ct.cx with oobflag := t.ct.cx.oobflag &&& ~~~1 } } }) ∧
      (∀ vault a, t.ct.oor = some (t.ct.now, vault, a) → t.ct.cx.guardMode = false → Tile.commit { t with post := [.csr 0x042 v] } =
        { t with post := [], ct := { t.ct with cx := { t.ct.cx with
          oobaddr := BitVec.ofNat 64 (a % 2 ^ 48), oobflag := if vault then 3 else 1 } } }))) ∧
  (∀ (t : Tile) (v : Word) (n : Nat) (e : Nat × Nat), t.ct.dqLate = some (n, e) →
    Tile.commit { t with post := [.csr 0x071 v] } =
      { t with post := [], ct := { t.ct with cx := { t.ct.cx with dqcap := v }, dqLate := some (t.ct.now + 1, e) } }) ∧
  (∀ (t : Tile) (v : Word), ∃ w : Word,
    Tile.commit { t with post := [.csr 0x013 v] } = { t with post := [], ct := { t.ct with cx := { t.ct.cx with xflags := w } } } ∧
    ∀ n, n < 64 → w.getLsbD n = (t.ct.cx.xflags.getLsbD n &&
      (!v.getLsbD n || (decide (t.ct.flAt = t.ct.now) && t.ct.flSet.getLsbD n)))) ∧
  (∀ (t : Tile) (sc : Nat), sc < 8 → ∃ w : Word,
    Tile.commit { t with post := [.phase sc] } = { t with post := [], ct := { t.ct with cx := { t.ct.cx with phase := w } } } ∧
    w.toNat % 4096 = (t.ct.cx.phase.toNat + 1) % 4096 ∧ w.toNat / 4096 % 8 = sc ∧
    w.toNat / 2 ^ 16 % 4096 = t.ct.cx.phase.toNat / 2 ^ 16 % 4096)

/-- The replay register an op names. -/
def Sys2Proof.Safety.yReg (s : State) (n : BitVec 4) : YReg := s.tile.ct.y[n.toNat]'n.isLt

/-- R40, R190: MFY reads part m of a replay register; MTY writes a whole part, visible from the next bundle: a word of VALUE,
BYTEEN, or the fields of part 9, of which VALID may be set only in a handler. -/
def Sys2Proof.Safety.replayRegisterParts : Prop :=
  (∀ (o : RRR) (s : State), let y := yReg s (o.a.setWidth 4)
    (o.m.toNat < 8 → exec (.mfy o) s = .next (gainsS s o.d (y.value.extractLsb' (64 * o.m.toNat) 64) 0 1)) ∧
    (o.m = 8 → exec (.mfy o) s = .next (gainsS s o.d y.byteen 0 1)) ∧
    (o.m = 9 → ∃ v : Word, exec (.mfy o) s = .next (gainsS s o.d v 0 1) ∧
      v.toNat = y.remain.toNat + y.dnum.toNat * 2 ^ 10 + y.dclass.toNat * 2 ^ 16 + (if y.valid then 2 ^ 63 else 0))) ∧
  (∀ (o : RRR) (s : State), let n : BitVec 4 := o.d.setWidth 4; let y := yReg s n; let v := s.tile.s o.a
    let written (y : YReg) : Out := .next (withTile s { s.tile with
      ct := { s.tile.ct with y := s.tile.ct.y.set n.toNat y n.isLt } })
    (o.m.toNat < 8 → ∃ z : Vec, exec (.mty o) s = written { y with value := z } ∧
      ∀ i, i < 512 → z.getLsbD i = if i / 64 = o.m.toNat then v.getLsbD (i % 64) else y.value.getLsbD i) ∧
    (o.m = 8 → exec (.mty o) s = written { y with byteen := v }) ∧
    (o.m = 9 → v.toNat / 2 ^ 19 = 0 → exec (.mty o) s =
      written { y with remain := v.setWidth 10, dnum := v.extractLsb' 10 6, dclass := v.extractLsb' 16 3, valid := false }) ∧
    (o.m = 9 → v.toNat / 2 ^ 19 % 2 ^ 44 = 0 → v.getLsbD 63 = true → s.tile.ct.trap ≠ none → v.extractLsb' 16 3 ≠ 4 →
      (y.valid = true ∨ s.tile.flying < 16) → exec (.mty o) s =
      written { y with remain := v.setWidth 10, dnum := v.extractLsb' 10 6, dclass := v.extractLsb' 16 3, valid := true }) ∧
    (o.m = 9 → v.toNat / 2 ^ 19 % 2 ^ 44 = 0 → v.getLsbD 63 = true → s.tile.ct.trap = none →
      ∃ w, exec (.mty o) s = .next (charged s .illegalOp w 0 s.tile.ct.now)))

/-- R183, R184, R185-R187, R196, R40, R190: SCHK, TRAP, TRET, CONDW, PHASE, FENCE, MFY and MTY. -/
def Obligations.TrapPhaseAndReplayOps : Prop := shadowCompare ∧ trapAndReturnOps ∧ conditionPhaseAndFence ∧ replayRegisterParts

/-- R188, R194, R189, R312: RDCYC and CALIGN. -/
def Obligations.CountsAreReadAndArmed : Prop := countsAreReadAsTheyStand ∧ calignArmsItsScope

/-- R191, R192, R17, R111, R132, R133, R156, R186, R195, R210, R223, R225, R237, R244: CSRR, CSRW and the commit of a write.
Where the manual is silent it follows the model's readings (log 24, 33). -/
def Obligations.CsrOpsFollowTheMap : Prop := csrAccessFollowsTheMap ∧ commitAppliesCsrWrites

/-! ### Lane ops (R107-R127) -/

/-- No fault stands in the way of a V op with sources `fs`, destination `d` and elements of `z` bytes (R112): every stream it
names is valid, of the right direction and size and not exhausted, and no read races. -/
def Sys2Proof.Safety.laneReady (s : State) (fs : List (BitVec 6)) (d : Option (BitVec 6)) (z : Nat) : Prop :=
  firstFault (vecFaults fs d z s) = none

/-- A lane of `w` bits read as its integer type: signed for codes 0-3, cardinal for 4-7 (R115). -/
def Sys2Proof.Safety.typed (m w x : Nat) : Int := if m < 4 ∧ 2 ^ w ≤ 2 * x then (x : Int) - 2 ^ w else x

/-- An exact result clamped to an integer type (R77). -/
def Sys2Proof.Safety.clamped (m w : Nat) (z : Int) : Int :=
  if m < 4 then max (-2 ^ (w - 1)) (min (2 ^ (w - 1) - 1) z) else max 0 (min (2 ^ w - 1) z)

/-- What each two-source integer lane op delivers in a lane (R115-R117), with its latency (R113). -/
def Sys2Proof.Safety.laneTable (o : RRR) (x : Ext) (w : Nat) : List (Instr × Nat × (Nat → Nat → Nat → Prop)) :=
  let m := o.m.toNat
  [(.vadd o x, 2, fun a b r => r = (a + b) % 2 ^ w),
   (.vsub o x, 2, fun a b r => (r + b) % 2 ^ w = a),
   (.vmul o x, 3, fun a b r => r = a * b % 2 ^ w),
   (.vmulh o x, 3, fun a b r => (r : Int) = typed m w a * typed m w b / 2 ^ w % 2 ^ w),
   (.vand o x, 2, fun a b r => ∀ j, r.testBit j = (a.testBit j && b.testBit j)),
   (.vor o x, 2, fun a b r => ∀ j, r.testBit j = (a.testBit j || b.testBit j)),
   (.vxor o x, 2, fun a b r => ∀ j, r.testBit j = (a.testBit j != b.testBit j)),
   (.vandn o x, 2, fun a b r => ∀ j, r.testBit j = (a.testBit j && !b.testBit j)),
   (.vmin o x, 2, fun a b r => (r = a ∨ r = b) ∧ typed m w r ≤ typed m w a ∧ typed m w r ≤ typed m w b),
   (.vmax o x, 2, fun a b r => (r = a ∨ r = b) ∧ typed m w a ≤ typed m w r ∧ typed m w b ≤ typed m w r),
   (.vadds o x, 2, fun a b r => typed m w r = clamped m w (typed m w a + typed m w b)),
   (.vsubs o x, 2, fun a b r => typed m w r = clamped m w (typed m w a - typed m w b)),
   (.vshl o x, 2, fun a b r => r = if w ≤ b then 0 else a * 2 ^ b % 2 ^ w),
   (.vshr o x, 2, fun a b r => r = if w ≤ b then 0 else a / 2 ^ b),
   (.vsra o x, 2, fun a b r => typed 0 w r = typed 0 w a / 2 ^ (min b w))]

/-- What each one-source integer lane op delivers in a lane; shifts take their amount from the b field (R116). -/
def Sys2Proof.Safety.laneTable1 (o : RRR) (x : Ext) (w : Nat) : List (Instr × (Nat → Nat → Prop)) :=
  [(.vabs o x, fun a r => r = (typed 0 w a).natAbs),
   (.vpopc o x, fun a r => r = (List.range w).countP fun j => a.testBit j),
   (.vclz o x, fun a r => if a = 0 then r = w else r < w ∧ 2 ^ (w - 1 - r) ≤ a ∧ a < 2 ^ (w - r)),
   (.vshli o x, fun a r => o.b.toNat < w → r = a * 2 ^ o.b.toNat % 2 ^ w),
   (.vshri o x, fun a r => o.b.toNat < w → r = a / 2 ^ o.b.toNat),
   (.vsrai o x, fun a r => o.b.toNat < w → typed 0 w r = typed 0 w a / 2 ^ o.b.toNat)]

/-- The state after a lane op with sources `fs` writes `r` into `d` (a register, or the group of a write stream): its stream
operands advance at the commit, and the active lanes are written after `lat` cycles. -/
def Sys2Proof.Safety.laneResult (s : State) (fs : List (BitVec 6)) (d : BitVec 6) (w : Nat) (r : Vec) (active : Nat → Bool)
    (fl lat : Nat) : State :=
  withTile s ((s.tile.useAll fs (w / 8)).vWrite d (w / 8) (512 / w) r active fl lat 1)

/-- R115-R117: every integer lane op whose operands raise no fault completes and delivers its function lane by lane, with no
flag, into the active lanes of its destination. -/
def Sys2Proof.Safety.integerLaneOpsDeliverTheirFunction : Prop :=
  ∀ (o : RRR) (x : Ext) (s : State), o.m.toNat < 8 → let w := typeWidth o.m.toNat
    let a := s.tile.vRead o.a (w / 8) (512 / w); let b := s.tile.vRead o.b (w / 8) (512 / w)
    (laneReady s [o.a, o.b] (some o.d) (w / 8) →
      ∀ e ∈ laneTable o x w, ∃ r : Vec,
        exec e.1 s = .next (laneResult s [o.a, o.b] o.d w r (s.tile.active x) 0 e.2.1) ∧
        ∀ i, i < 512 / w → e.2.2 (lane w i a) (lane w i b) (lane w i r)) ∧
    (laneReady s [o.a] (some o.d) (w / 8) →
      ∀ e ∈ laneTable1 o x w, ∃ r : Vec,
        exec e.1 s = .next (laneResult s [o.a] o.d w r (s.tile.active x) 0 2) ∧
        ∀ i, i < 512 / w → e.2 (lane w i a) (lane w i r)) ∧
    (laneReady s [o.a, o.b] (some o.d) 8 → o.m = 3 ∨ o.m = 7 → ∃ r : Vec,
      exec (.vclmul o x) s = .next (laneResult s [o.a, o.b] o.d 64 r (s.tile.active x) 0 2) ∧
      ∀ i j, i < 8 → j < 64 → (lane 64 i r).testBit j =
        ((List.range 64).countP (fun k => decide (k ≤ j + (if o.m = 3 then 0 else 64)) &&
          (lane 64 i a).testBit (j + (if o.m = 3 then 0 else 64) - k) && (lane 64 i b).testBit k) % 2 == 1))

/-- R111, R109: what writing a lane result does: to a register, one result with the byte enables of the active lanes; to a
write stream, a store of the active lanes' elements landing with the op, and the position moved past the group at the commit;
and what reading an operand does: nothing for a register, and the advance for a stream. -/
def Sys2Proof.Safety.laneOperandsAreRegistersOrStreams : Prop :=
  (∀ (s : State) (d : BitVec 6) (z n : Nat) (r : Vec) (act : Nat → Bool) (fl lat : Nat), d.toNat < 32 →
    ∃ be : Word, withTile s (s.tile.vWrite d z n r act fl lat 1) =
      gains s (.v (s.tile.ct.cx.phys (d.setWidth 5))) r be fl lat 1 ∧ ∀ i, i < 64 → be.getLsbD i = act (i / z)) ∧
  (∀ (t : Tile) (d : BitVec 6) (z n : Nat) (r : Vec) (act : Nat → Bool) (lat : Nat), 32 ≤ d.toNat → d.toNat < 48 →
    let st := t.ct.cx.rdA (d.setWidth 4)
    let u := t.vWrite d z n r act 0 lat 1
    u.post = t.post ++ [.stream (d.setWidth 4) (min (st.pos + n) (recN st.record))] ∧
    ((∀ i, st.pos ≤ i → i < st.pos + n → i < recN st.record → t.ct.spOutRange (recAddr st.record i) z = false) →
      (∃ i, i < n ∧ act i = true ∧ st.pos + i < recN st.record) →
      ∃ p, u.pend = t.pend ++ [p] ∧ p.due = t.ct.now + lat ∧ p.kind = .spWrite
        (((List.range n).filter fun i => act i && decide (st.pos + i < recN st.record)).flatMap fun i =>
          cellsAt (recAddr st.record (st.pos + i)) (bytesOf z (lane (8 * z) i r))))) ∧
  (∀ (t : Tile) (f : BitVec 6) (z : Nat), f.toNat < 32 → t.useAll [f] z = t) ∧
  (∀ (t : Tile) (f : BitVec 6) (z : Nat), 32 ≤ f.toNat → f.toNat < 48 →
    let st := t.ct.cx.rdA (f.setWidth 4)
    (t.useAll [f] z).post = t.post ++ [.stream (f.setWidth 4) (min (st.pos + 64 / z) (recN st.record))])

/-- The union of the flags that the active lanes below `n` raise. -/
def Sys2Proof.Safety.laneFlagSum (n : Nat) (active : Nat → Bool) (fl : Nat → Nat) : Nat :=
  (List.range n).foldl (fun acc i => if active i then acc ||| fl i else acc) 0

/-- Result of the two- and three-operand binary lane ops in a lane (R121), with latency. -/
def Sys2Proof.Safety.floatLaneTable (o : RRR) (x : Ext) (rm : Nat) : List (Instr × List (BitVec 6) × Nat × (Nat → Nat → Nat → FRes)) :=
  let f := bfmt o.m.toNat
  [(.vfadd o x, [o.a, o.b], 4, fun a b _ => fAdd f rm a b), (.vfsub o x, [o.a, o.b], 4, fun a b _ => fSub f rm a b),
   (.vfmul o x, [o.a, o.b], 4, fun a b _ => fMul f rm a b), (.vfdiv o x, [o.a, o.b], 16, fun a b _ => fDiv f rm a b),
   (.vfmin o x, [o.a, o.b], 2, fun a b _ => fMinMax f false a b),
   (.vfmax o x, [o.a, o.b], 2, fun a b _ => fMinMax f true a b),
   (.vfscale o x, [o.a, o.b], 4, fun a b _ => fScale f rm a (typed 0 f.width b)),
   (.vfsgn o x, [o.a, o.b], 2, fun a b _ => fCopySign f a b),
   (.vfma o x, [o.a, o.b], 5, fun a b d => fMulAdd f rm a b d),
   (.vfsqrt o x, [o.a], 20, fun a _ _ => fSqrt f rm a)]

/-- Result of the decimal lane ops in a lane (R123), with latency and occupancy. -/
def Sys2Proof.Safety.decimalLaneTable (o : RRR) (x : Ext) (rm : Nat) : List (Instr × Nat × Nat × (Nat → Nat → Nat → FRes)) :=
  [(.vdadd o x, 6, 2, fun a b _ => dAdd rm a b), (.vdsub o x, 6, 2, fun a b _ => dSub rm a b),
   (.vdmul o x, 10, 4, fun a b _ => dMul rm a b), (.vdquant o x, 6, 2, fun a b _ => dQuant rm a b),
   (.vdfma o x, 12, 4, fun a b d => dMulAdd rm a b d)]

/-- The state in which the decimal vector unit is taken for `occ` cycles, with the collision of R114 where it is not free. -/
def Sys2Proof.Safety.decimalTaken (s : State) (occ : Nat) : State :=
  withTile s { s.tile with
    decBusy := s.tile.ct.now + occ
    late := if s.tile.ct.now < s.tile.decBusy then s.tile.late ++ [(2 ^ 63 + 2 ^ 62, 1)] else s.tile.late }

/-- A lane op that raised the flags `fl` by lane among its `n` lanes, in the layout of XFLAGS, traps on the first exception that TRAPEN
enables, found `lat` cycles on, with the lowest active lane that raised it and all that any raised; no result is to come (R93, R112). -/
def Sys2Proof.Safety.laneTraps (s : State) (i : Instr) (n lat : Nat) (active : Nat → Bool) (fl : Nat → Nat) : Prop :=
  ∀ m c l, trapsFirst s (laneFlagSum n active fl) m c → l < n → active l = true → bit (fl l) m = true →
    (∀ j, j < l → active j = true → bit (fl j) m = false) →
    ∃ t, exec i s = .next t ∧ t.tile.ct.inflight = s.tile.ct.inflight ∧
      t.tile.dets = (charged s c (raisedIn l (laneFlagSum n active fl)) 1 (s.tile.ct.now + lat)).tile.dets

/-- R93, R112, R114, R121, R123: a binary or decimal lane op whose operands raise no fault and whose active lanes raise no enabled
exception completes, each lane by its scalar rule, with the union of the active lanes' flags; a decimal one takes the decimal
vector unit. An enabled exception traps it. -/
def Sys2Proof.Safety.floatingLaneOpsDeliverTheirFunction : Prop :=
  ∀ (o : RRR) (x : Ext) (s : State), let w := typeWidth o.m.toNat; let n := 512 / w
    let a := s.tile.vRead o.a (w / 8) n; let b := s.tile.vRead o.b (w / 8) n; let d := s.tile.v o.d
    (8 ≤ o.m.toNat → o.m.toNat ≤ 11 → ∀ e ∈ floatLaneTable o x (s.tile.ct.cx.fmode.toNat % 4),
      let res (i : Nat) : FRes := e.2.2.2 (lane w i a) (lane w i b) (lane w i d)
      let fl := laneFlagSum n (s.tile.active x) fun i => (res i).fl
      laneReady s e.2.1 (some o.d) (w / 8) →
        laneTraps s e.1 n e.2.2.1 (s.tile.active x) (fun i => (res i).fl) ∧ (Quiet s fl →
        ∃ r : Vec, exec e.1 s = .next (laneResult s e.2.1 o.d w r (s.tile.active x) fl e.2.2.1) ∧
          ∀ i, i < n → lane w i r = (res i).val % 2 ^ w)) ∧
    (o.m.toNat = 12 → ∀ e ∈ decimalLaneTable o x (s.tile.ct.cx.dmode.toNat % 8),
      let res (i : Nat) : FRes := e.2.2.2 (lane 64 i a) (lane 64 i b) (lane 64 i d)
      let fl := laneFlagSum 8 (s.tile.active x) fun i => (res i).fl * 256
      laneReady s [o.a, o.b] (some o.d) 8 →
        laneTraps s e.1 8 e.2.1 (s.tile.active x) (fun i => (res i).fl * 256) ∧ (Quiet s fl →
        ∃ r : Vec, exec e.1 s =
            .next (laneResult (decimalTaken s e.2.2.1) [o.a, o.b] o.d 64 r (s.tile.active x) fl e.2.1) ∧
          ∀ i, i < 8 → lane 64 i r = (res i).val % 2 ^ 64))

/-- R93, R122: VFCVT converts the first min(Ns, Nt) elements of its source into lanes of the target type, or traps. -/
def Sys2Proof.Safety.laneConversionCountsElements : Prop :=
  ∀ (o : RRR) (x : Ext) (s : State), (Instr.vfcvt o x).wf = true →
    let ws := typeWidth o.m.toNat; let wt := typeWidth o.b.toNat; let n := min (512 / ws) (512 / wt)
    let a := s.tile.vRead o.a (ws / 8) n
    let res (i : Nat) : FRes := fConvert (s.tile.ct.cx.fmode.toNat % 4) o.m.toNat o.b.toNat (lane ws i a)
    let fl := laneFlagSum n (s.tile.active x) fun i => (res i).fl
    s.tile.vReadFault o.a (ws / 8) = none → s.tile.vWriteFault o.d (wt / 8) = none →
    s.tile.vReadRace o.a (ws / 8) n = none → laneTraps s (.vfcvt o x) n 4 (s.tile.active x) (fun i => (res i).fl) ∧ (Quiet s fl →
    ∃ r : Vec, exec (.vfcvt o x) s = .next (withTile s
        ((s.tile.vReadUse o.a (ws / 8) n 1).vWrite o.d (wt / 8) n r (s.tile.active x) fl 4 1)) ∧
      ∀ i, i < 512 / wt → lane wt i r = if i < n then (res i).val % 2 ^ wt else 0)

/-- R93, R118: VCMP, VFCMP and VDCMP write one bit a lane into their mask, 0 in inactive lanes and beyond the lanes, or the floating ones
trap. -/
def Sys2Proof.Safety.laneComparesWriteMasks : Prop :=
  ∀ (o : RRR) (x : Ext) (s : State), let w := typeWidth o.m.toNat; let n := 512 / w; let c := o.d.toNat / 8
    let a := s.tile.vRead o.a (w / 8) n; let b := s.tile.vRead o.b (w / 8) n
    let used (s : State) : State := withTile s (s.tile.useAll [o.a, o.b] (w / 8))
    laneReady s [o.a, o.b] none (w / 8) →
    (o.m.toNat < 8 → c ≤ 5 → ∃ k : Word, exec (.vcmp o x) s = .next (gainsK (used s) (o.d.setWidth 3) k 0 2) ∧
      ∀ i, i < 64 → k.getLsbD i = (decide (i < n) && s.tile.active x i &&
        [decide (lane w i a = lane w i b), decide (lane w i a ≠ lane w i b),
         decide (typed o.m.toNat w (lane w i a) < typed o.m.toNat w (lane w i b)),
         decide (typed o.m.toNat w (lane w i a) ≥ typed o.m.toNat w (lane w i b)),
         decide (typed o.m.toNat w (lane w i a) ≤ typed o.m.toNat w (lane w i b)),
         decide (typed o.m.toNat w (lane w i a) > typed o.m.toNat w (lane w i b))].getD c true)) ∧
    (8 ≤ o.m.toNat → o.m.toNat ≤ 11 →
      let f := bfmt o.m.toNat
      let fl := laneFlagSum n (s.tile.active x) fun i => (fCompare f c (lane w i a) (lane w i b)).2
      laneTraps s (.vfcmp o x) n 2 (s.tile.active x) (fun i => (fCompare f c (lane w i a) (lane w i b)).2) ∧
      (Quiet s fl → ∃ k : Word, exec (.vfcmp o x) s = .next (gainsK (used s) (o.d.setWidth 3) k fl 2) ∧
        ∀ i, i < 64 → k.getLsbD i = (decide (i < n) && s.tile.active x i &&
          floatHolds c (cmpNum (f.read (lane w i a)) (f.read (lane w i b)))))) ∧
    (o.m.toNat = 12 →
      let fl := laneFlagSum 8 (s.tile.active x) fun i => (dCompare c (lane 64 i a) (lane 64 i b)).2 * 256
      laneTraps s (.vdcmp o x) 8 6 (s.tile.active x) (fun i => (dCompare c (lane 64 i a) (lane 64 i b)).2 * 256) ∧
      (Quiet s fl → ∃ k : Word, exec (.vdcmp o x) s =
          .next (gainsK (used (decimalTaken s 2)) (o.d.setWidth 3) k fl 6) ∧
        ∀ i, i < 64 → k.getLsbD i = (decide (i < 8) && s.tile.active x i &&
          floatHolds c (dCmpNum (dRead (lane 64 i a)) (dRead (lane 64 i b))))))

/-- Value of node `i` at level `k` of the reduction tree (R103): of two values their combination, of one that one. -/
def Sys2Proof.Safety.treeValue (f : Nat → Nat → FRes) (leaf : Nat → Option Nat) : Nat → Nat → Option Nat
  | 0, i => leaf i
  | k + 1, i =>
    match treeValue f leaf k (2 * i), treeValue f leaf k (2 * i + 1) with
    | none, y => y
    | x, none => x
    | some a, some b => some (f a b).val

/-- Flags raised in the tree below node `i` at level `k`. -/
def Sys2Proof.Safety.treeFlags (f : Nat → Nat → FRes) (leaf : Nat → Option Nat) : Nat → Nat → Nat
  | 0, _ => 0
  | k + 1, i =>
    treeFlags f leaf k (2 * i) ||| treeFlags f leaf k (2 * i + 1) |||
    match treeValue f leaf k (2 * i), treeValue f leaf k (2 * i + 1) with
    | some a, some b => (f a b).fl
    | _, _ => 0

/-- The flags that node `i` at level `k + 1` of the tree raises itself. -/
def Sys2Proof.Safety.nodeFlags (f : Nat → Nat → FRes) (leaf : Nat → Option Nat) (k i : Nat) : Nat :=
  match treeValue f leaf k (2 * i), treeValue f leaf k (2 * i + 1) with
  | some a, some b => (f a b).fl
  | _, _ => 0

/-- R93, R103, R124: VRADD, VRMAX and VRMIN combine the active lanes of a by the balanced tree over lane numbers into lane 0, write
the other lanes zero, and raise the flags of every node; an enabled exception traps, with the lowest active lane that feeds a node
which raised it. -/
def Sys2Proof.Safety.reductionsFollowTheTree : Prop :=
  ∀ (o : RRR) (x : Ext) (s : State), let m := o.m.toNat; let w := typeWidth m; let n := 512 / w
    let a := s.tile.vRead o.a (w / 8) n
    let leaf (i : Nat) : Option Nat := if i < n ∧ s.tile.active x i then some (lane w i a) else none
    let done (i : Instr) (f : Nat → Nat → FRes) (none_ scale : Nat) : Prop :=
      let fl := treeFlags f leaf 6 0 * scale
      let feeds (m l : Nat) : Prop := leaf l ≠ none ∧ ∃ k, k < 6 ∧ bit (nodeFlags f leaf k (l / 2 ^ (k + 1)) * scale) m = true
      (∀ m c l, trapsFirst s fl m c → feeds m l → (∀ h, h < l → ¬feeds m h) → ∃ t, exec i s = .next t ∧
        t.tile.ct.inflight = s.tile.ct.inflight ∧
        t.tile.dets = (charged s c (raisedIn l fl) 1 (s.tile.ct.now + 6)).tile.dets) ∧
      (Quiet s fl → ∃ r : Vec, exec i s = .next (laneResult s [o.a] o.d w r (fun _ => true) fl 6) ∧
        lane w 0 r = (treeValue f leaf 6 0).getD none_ % 2 ^ w ∧ ∀ i, 0 < i → i < n → lane w i r = 0)
    laneReady s [o.a] (some o.d) (w / 8) →
    (m < 8 → done (.vradd o x) (fun p q => ⟨(p + q) % 2 ^ w, 0⟩) 0 1 ∧
      done (.vrmax o x) (fun p q => ⟨if typed m w p < typed m w q then q else p, 0⟩) 0 1 ∧
      done (.vrmin o x) (fun p q => ⟨if typed m w q ≤ typed m w p then q else p, 0⟩) 0 1) ∧
    (8 ≤ m → m ≤ 11 → done (.vradd o x) (fAdd (bfmt m) (s.tile.ct.cx.fmode.toNat % 4)) 0 1 ∧
      done (.vrmax o x) (fMinMax (bfmt m) true) 0 1 ∧ done (.vrmin o x) (fMinMax (bfmt m) false) 0 1) ∧
    (m = 12 → done (.vradd o x) (dAdd (s.tile.ct.cx.dmode.toNat % 8)) 0x31C0_0000_0000_0000 256)

/-- R119, R125: the ops that move lanes: VSEL, VBCAST, VPERM, VSLIDE, VCOMPRESS and VIOTA into the lanes of d, VINS into one
lane of it, and VEXT from a lane to a scalar. -/
def Sys2Proof.Safety.laneMovesDeliverTheirLanes : Prop :=
  ∀ (o : RRR) (x : Ext) (s : State), o.m.toNat ≤ 12 → let w := typeWidth o.m.toNat; let n := 512 / w
    let a := s.tile.vRead o.a (w / 8) n; let b := s.tile.vRead o.b (w / 8) n
    let moves (i : Instr) (fs : List (BitVec 6)) (act : Nat → Bool) (f : Nat → Nat) : Prop :=
      laneReady s fs (some o.d) (w / 8) → ∃ r : Vec, exec i s = .next (laneResult s fs o.d w r act 0 2) ∧
        ∀ i, i < n → lane w i r = f i
    let sel := (List.range n).filter fun i => (s.tile.ct.cx.rdK (o.b.setWidth 3)).getLsbD i
    moves (.vsel o x) [o.a, o.b] (fun _ => true) (fun i =>
      if (s.tile.ct.cx.rdK (x.bits.extractLsb' 3 3)).getLsbD i then lane w i a else lane w i b) ∧
    moves (.vbcast o x) [] (s.tile.active x) (fun _ => (s.tile.s o.a).toNat % 2 ^ w) ∧
    moves (.vperm o x) [o.a, o.b] (s.tile.active x) (fun i => lane w (lane w i b % n) a) ∧
    moves (.vslide o x) [o.a] (s.tile.active x) (fun i => let j : Int := i - (s.tile.s o.b).toInt
      if 0 ≤ j ∧ j < n then lane w j.toNat a else 0) ∧
    moves (.vcompress o x) [o.a] (s.tile.active x) (fun i => (sel[i]?.map fun j => lane w j a).getD 0) ∧
    moves (.viota o x) [] (s.tile.active x) (fun i =>
      (List.range i).countP fun j => (s.tile.ct.cx.rdK (o.a.setWidth 3)).getLsbD j) ∧
    (o.d.toNat < 32 → ∃ r : Vec, let j := (s.tile.s o.b).toNat % n
      exec (.vins o x) s = .next (laneResult s [] o.d w r (fun i => i == j && s.tile.active x i) 0 2) ∧
        lane w j r = (s.tile.s o.a).toNat % 2 ^ w) ∧
    (laneReady s [o.a] none (w / 8) →
      exec (.vext o) s = .next (gains (withTile s (s.tile.useAll [o.a] (w / 8))) (.s o.d)
        ((placed o.m.toNat (lane w ((s.tile.s o.b).toNat % n) a)).setWidth 512) 0xFF 0 2 1))

/-- A mask register. -/
def Sys2Proof.Safety.mask (s : State) (f : BitVec 6) : Word := s.tile.ct.cx.rdK (f.setWidth 3)

/-- R120: the mask ops work on all 64 bits and land at c+2. -/
def Sys2Proof.Safety.maskOpsWorkOnWholeMasks : Prop :=
  ∀ (o : RRR) (s : State),
    let writes (i : Instr) (f : Nat → Bool) : Prop := ∃ k : Word, exec i s = .next (gainsK s (o.d.setWidth 3) k 0 2) ∧
      ∀ n, n < 64 → k.getLsbD n = f n
    writes (.kand o) (fun n => (mask s o.a).getLsbD n && (mask s o.b).getLsbD n) ∧
    writes (.kor o) (fun n => (mask s o.a).getLsbD n || (mask s o.b).getLsbD n) ∧
    writes (.kxor o) (fun n => (mask s o.a).getLsbD n != (mask s o.b).getLsbD n) ∧
    writes (.knot o) (fun n => !(mask s o.a).getLsbD n) ∧
    (o.m = 0 → writes (.kmov o) fun n => (s.tile.s o.a).getLsbD n) ∧
    (o.m = 2 → writes (.kmov o) fun n => (mask s o.a).getLsbD n) ∧
    (o.m = 1 → exec (.kmov o) s = .next (gains s (.s o.d) ((mask s o.a).setWidth 512) 0xFF 0 2 1)) ∧
    (∃ v : Word, exec (.kpopc o) s = .next (gains s (.s o.d) (v.setWidth 512) 0xFF 0 2 1) ∧
      v.toNat = (List.range 64).countP fun n => (mask s o.a).getLsbD n)

/-- R137: VCHK passes where the active byte lanes agree, and otherwise raises SHADOW_MISMATCH with the lowest differing lane. -/
def Sys2Proof.Safety.vectorShadowCompare : Prop :=
  ∀ (o : RRR) (x : Ext) (s : State), laneReady s [o.a, o.b] none 1 →
    let a := s.tile.vRead o.a 1 64; let b := s.tile.vRead o.b 1 64
    let differs (i : Nat) : Prop := lane 8 i a ≠ lane 8 i b ∧ s.tile.active x i = true
    ((∀ i, i < 64 → ¬ differs i) → exec (.vchk o x) s = .next (withTile s (s.tile.useAll [o.a, o.b] 1))) ∧
    (∀ i, i < 64 → differs i → (∀ j, j < i → ¬ differs j) → exec (.vchk o x) s = .next (charged s .shadowMismatch
      (BitVec.ofNat 64 (i + o.a.toNat * 2 ^ 6 + o.b.toNat * 2 ^ 12)) 1 s.tile.ct.now))

/-- R126, R127: VBQPACK forms one block of the sixteen binary32 lanes, inactive ones entering as +0, its element bytes to d and
its scale entry to s[b]; VBQUNPK reads one back, exactly and with no flag. -/
def Sys2Proof.Safety.blockPackAndUnpack : Prop :=
  ∀ (o : RRR) (x : Ext) (s : State), o.m.toNat ≤ 2 → let w := [2, 4, 7].getD o.m.toNat 7
    let src := (List.range 16).map fun i => if s.tile.active x i then lane 32 i (s.tile.vRead o.a 4 16) else 0
    let fl := (bqForm w src).2
    (s.tile.vReadFault o.a 4 = none → s.tile.vWriteFault o.d 1 = none → s.tile.vReadRace o.a 4 16 = none →
      (∀ m c, trapsFirst s fl m c → ∃ t l, exec (.vbqpack o x) s = .next t ∧ t.tile.ct.inflight = s.tile.ct.inflight ∧
        t.tile.dets = (charged s c (raisedIn l fl) 1 (s.tile.ct.now + 4)).tile.dets) ∧ (Quiet s fl →
      ∃ r : Vec, exec (.vbqpack o x) s = .next (gains (withTile s
          ((s.tile.vReadUse o.a 4 16 1).vWrite o.d 1 16 r (fun _ => true) fl 4 1))
          (.s o.b) ((BitVec.ofNat 64 (bqForm w src).1.scale : Word).setWidth 512) 0xFF 0 4 1) ∧
        ∀ i, i < 64 → lane 8 i r = if i < 16 then ((bqForm w src).1.bytes w).getD i 0 % 256 else 0)) ∧
    (s.tile.vReadFault o.a 1 = none → s.tile.vWriteFault o.d 4 = none → s.tile.vReadRace o.a 1 16 = none →
      let blk := bqRead w ((List.range 16).map fun i => lane 8 i (s.tile.vRead o.a 1 16)) ((s.tile.s o.b).toNat % 2 ^ 16)
      ∃ r : Vec, exec (.vbqunpk o x) s = .next (withTile s
          ((s.tile.vReadUse o.a 1 16 1).vWrite o.d 4 16 r (s.tile.active x) 0 4 1)) ∧
        ∀ i, i < 16 → lane 32 i r = blk.value w i % 2 ^ 32)

/-- R243, R244: VRNG delivers four blocks of the Pip generator and VGAUSS sixteen Gaussian values from the counter in a scalar
pair, taking the generator for a cycle; PIPM sets MEMB at the commit. -/
def Sys2Proof.Safety.pipOpsDeliverTheGenerator : Prop :=
  ∀ (o : RRR) (s : State),
    let key := s.tile.ct.cx.pipkeylo.toNat + 2 ^ 64 * s.tile.ct.cx.pipkeyhi.toNat
    let ctr := (s.tile.s o.a).toNat + 2 ^ 64 * (s.tile.s (o.a + 1)).toNat
    let taken : Tile := { s.tile with
      pipBusy := s.tile.ct.now + 1
      late := if s.tile.ct.now < s.tile.pipBusy then s.tile.late ++ [(9 * 2 ^ 60 + 2, 1)] else s.tile.late }
    (laneReady s [] (some o.d) 8 → ∃ r : Vec,
      exec (.vrng o) s = .next (laneResult (withTile s taken) [] o.d 64 r (fun _ => true) 0 6) ∧
      ∀ i, i < 4 → lane 128 i r = pipBlock key ((ctr + i) % 2 ^ 128) % 2 ^ 128) ∧
    (laneReady s [] (some o.d) 4 → ∃ r : Vec,
      exec (.vgauss o) s = .next (laneResult (withTile s taken) [] o.d 32 r (fun _ => true) 0 6) ∧
      ∀ i, i < 16 → lane 32 i r = pipGaussF32 key (ctr + i) % 2 ^ 32) ∧
    (∀ (p : XM) (x : Ext), exec (.pipm p x) s =
      .next (withPost s (.pipmemb (BitVec.ofNat 64 ((p.cnt.toNat + 1024 * x.bits.toNat) % 2 ^ 16)))))

/-- The address of slot `i` of the deferral queue's ring (R131). -/
def Sys2Proof.Safety.queueSlot (x : Ctx) (i : Nat) : Nat := x.dqbase.toNat + 32 * (i % (x.dqcap.toNat % 2 ^ 14))

/-- R132-R134: VDEFER appends an entry for each active lane, in lane order, stored at c+3, and traps when they do not fit;
VDRAIN gives the oldest entries to the active lanes, all 32 bytes of each read at c+3 and its words visible from c+4, and traps on an
empty queue; DQCNT
reads the count. -/
def Sys2Proof.Safety.deferralQueueOps : Prop :=
  ∀ (o : RRR) (x : Ext) (s : State), let t := s.tile; let q := t.ct.cx.dqcap.toNat
    let cap := q % 2 ^ 14; let head := q / 2 ^ 20 % 2 ^ 14; let count := q / 2 ^ 34 % 2 ^ 14; let held := q / 2 ^ 48 % 2 ^ 14
    let w := if q / 2 ^ 16 % 2 = 1 then 32 else 64
    let act := (List.range (512 / w)).filter (t.active x)
    let vecs := [o.d, o.a, o.b].take (o.m.toNat % 4)
    (cap < count + held + act.length → exec (.vdefer o x) s = .next (charged s .deferqOverflow
      (BitVec.ofNat 64 (count + held * 2 ^ 14 + act.length * 2 ^ 28)) 1 t.ct.now)) ∧
    (count + held + act.length ≤ cap → act = [] → exec (.vdefer o x) s = .next s) ∧
    (count + held + act.length ≤ cap → act ≠ [] →
      (∀ j, j < act.length → t.ct.spOutRange (queueSlot t.ct.cx (head + count + j)) 32 = false) →
      let cells := act.zipIdx.flatMap fun e => cellsAt (queueSlot t.ct.cx (head + count + e.2))
        (dqEntry (vecs.map fun v => lane w e.1 (t.v v)) e.1 (o.m.toNat % 4))
      exec (.vdefer o x) s = .next (withPost (withTile s
        ((t.bookSp (t.ct.now + 3) (cells.map (·.1)) true false 1).pending (t.ct.now + 3) 1 (.spWrite cells)))
        (.dqPush act.length))) ∧
    (count = 0 → exec (.vdrain o x) s = .next (charged s .deferqUnderflow (BitVec.ofNat 64 head) 1 t.ct.now)) ∧
    (0 < count → let n := min count act.length
      (∀ j, j < n → t.ct.spOutRange (queueSlot t.ct.cx (head + j)) 32 = false) →
      let bytes (v : Nat) : List (Option Nat) := (List.range (512 / w)).flatMap fun i =>
        let j := (act.filter (· < i)).length
        if i ∈ act ∧ j < n then (List.range (w / 8)).map fun k => some (queueSlot t.ct.cx (head + j) + 8 * v + k)
        else List.replicate (w / 8) none
      let entries : List Nat := (List.range n).flatMap fun j => (List.range 32).map fun k => queueSlot t.ct.cx (head + j) + k
      ∃ u : State, exec (.vdrain o x) s = .next (withPost u (.dqPull n)) ∧ u.tile.ct.cx = t.ct.cx ∧ u.tile.pend = t.pend ∧
        u.tile.ct.inflight = t.ct.inflight ++ vecs.zipIdx.map fun e => {
          id := t.uid + 1 + e.2, dest := .v (t.ct.cx.phys (e.1.setWidth 5)), due := t.ct.now + 4, rdAt := t.ct.now + 3,
          src := .drain (if e.2 = 0 then entries else []) (bytes e.2), be := laneBytes (w / 8) (t.active x), fl := 0, issue := t.ct.now, slot := 1,
          addr := t.ct.sq.pc, phase := t.ct.cx.phaseNum }) ∧
    (∃ v : Word, exec (.dqcnt o) s = .next (gains s (.s o.d) (v.setWidth 512) 0xFF 0 2 1) ∧ v.toNat = count)

/-- R115-R117, R111, R109: integer lane ops and lane operands. -/
def Obligations.IntegerLaneOpsFromRegistersAndStreams : Prop := integerLaneOpsDeliverTheirFunction ∧ laneOperandsAreRegistersOrStreams

/-- R93, R112, R114, R121, R123, R122: floating lane ops and conversions. -/
def Obligations.FloatingLaneOpsAndConversions : Prop := floatingLaneOpsDeliverTheirFunction ∧ laneConversionCountsElements

/-- R93, R118, R137: lane compares and VCHK. -/
def Obligations.LaneComparesAndShadowCompare : Prop := laneComparesWriteMasks ∧ vectorShadowCompare

/-- R93, R103, R124, R119, R125, R120: reductions, lane moves and mask ops.
Where the manual is silent it follows the model's readings (log 17, 60). -/
def Obligations.ReductionsMovesAndMaskOps : Prop := reductionsFollowTheTree ∧ laneMovesDeliverTheirLanes ∧ maskOpsWorkOnWholeMasks

/-- R126, R127, R243, R244, R132-R134: block formats, the Pip generator and deferral queues.
Where the manual is silent it follows the model's readings (log 17). -/
def Obligations.BlockPipAndDeferralOps : Prop := blockPackAndUnpack ∧ pipOpsDeliverTheGenerator ∧ deferralQueueOps

/-! ### Memory ops (R214-R226, R276-R296, R361-R374) -/

/-- The effective address of an MM op with elements of `n` bytes (R43, R214). -/
def Sys2Proof.Safety.effective (s : State) (o : MM) (x : Ext) (n : Nat) : Nat :=
  (s.tile.s o.base + BitVec.ofInt 64 (signedOf 7 o.off.toNat x * n)).toNat

/-- A context that has recorded an out-of-range access to scratchpad byte `a` (R210, R211): in guard mode a pending fault, unless
one is pending; in zero mode OOBADDR and OOBFLAG, unless FLAG is set. The first access of the cycle is kept beside them. -/
def Sys2Proof.Safety.noted (k : Context) (a : Nat) : Context :=
  { k with
    oor := if k.oor.map (·.1) = some k.now then k.oor else some (k.now, false, a)
    guard := if k.cx.guardMode = true ∧ k.guard = none then
      some (BitVec.ofNat 64 (a % 2 ^ 19 + (a / 8 % 384) * 2 ^ 19 + k.now % 2 ^ 32 * 2 ^ 32)) else k.guard
    cx := if k.cx.guardMode = true ∨ k.cx.oobflag.getLsbD 0 = true then k.cx
      else { k.cx with oobaddr := BitVec.ofNat 64 (a % 2 ^ 48), oobflag := 1 } }

/-- The state in which the first out-of-range access among those of `n` bytes at `as` is recorded. -/
def Sys2Proof.Safety.recorded (s : State) (as : List Nat) (n : Nat) : State :=
  match as.find? fun a => s.tile.ct.spOutRange a n with
  | none => s
  | some a => withTile s { s.tile with ct := noted s.tile.ct a }

/-- The state after a scratchpad load of accesses of `n` bytes, each judged by itself (R209): the banks of those in range are
booked for c+3, and the result lands then, read then; one out of range reads zeros. -/
def Sys2Proof.Safety.loads (s : State) (d : Dest) (be : Word) (as : List Nat) (n : Nat) (sx : Option Nat) : State :=
  let r := recorded s as n
  let bytes (a : Nat) : List Nat := (List.range n).map fun i => a + i
  withTile s ((r.tile.bookSp (s.tile.ct.now + 3) ((as.filter fun a => !s.tile.ct.spOutRange a n).flatMap bytes) false false 2).addResult
    d (s.tile.ct.now + 3) (s.tile.ct.now + 3)
    (.read .sp (as.flatMap fun a => if s.tile.ct.spOutRange a n then List.replicate n none else (bytes a).map some) sx) be 0 2)

/-- The state after scratchpad stores of `n` bytes each (address and value), landing at c+3; one out of range is dropped. -/
def Sys2Proof.Safety.stores (s : State) (els : List (Nat × Nat)) (n : Nat) : State :=
  let r := recorded s (els.map (·.1)) n
  let cells := (els.filter fun e => !s.tile.ct.spOutRange e.1 n).flatMap fun e => cellsAt e.1 (bytesOf n e.2)
  if ∀ e ∈ els, s.tile.ct.spOutRange e.1 n = true then r
  else withTile s ((r.tile.bookSp (s.tile.ct.now + 3) (cells.map (·.1)) true false 2).pending (s.tile.ct.now + 3) 2 (.spWrite cells))

/-- R209-R211, R214-R216: LD, ST, VLD and VST move the bytes at their effective address, landing at c+3; misaligned they raise
ALIGNMENT with it. An access out of range reads zeros or is dropped, and the first of them is recorded: in OOBADDR and OOBFLAG in
zero mode, as a pending fault in guard mode; of a VLD and a VST each of the eight words is judged by itself. -/
def Sys2Proof.Safety.loadsAndStoresReachTheirBytes : Prop :=
  ∀ (o : MM) (x : Ext) (s : State),
    let n := 2 ^ (o.ty.toNat % 4)
    let ea := effective s o x n
    let ev := effective s o x 64
    let sx := if 4 ≤ o.ty.toNat then some (8 * n) else none
    let vd : Dest := .v (s.tile.ct.cx.phys (o.t.setWidth 5))
    let bad (i : Instr) (a : Nat) : Prop := exec i s = .next (charged s .alignment (BitVec.ofNat 64 a) 2 s.tile.ct.now)
    (ea % n ≠ 0 → bad (.ld o x) ea ∧ bad (.st o x) ea) ∧ (ev % 64 ≠ 0 → bad (.vld o x) ev ∧ bad (.vst o x) ev) ∧
    (ea % n = 0 →
      exec (.ld o x) s = .next (loads s (.s o.t) 0xFF [ea] n sx) ∧
      exec (.st o x) s = .next (stores s [(ea, (s.tile.s o.t).toNat)] n)) ∧
    (ev % 64 = 0 →
      exec (.vld o x) s = .next (loads s vd (BitVec.allOnes 64) ((List.range 8).map fun i => ev + 8 * i) 8 none) ∧
      exec (.vst o x) s = .next (stores s ((List.range 8).map fun i => (ev + 8 * i, lane 64 i (s.tile.v o.t))) 8))

/-- R217: VGATHER and VSCATTER access one element a lane, at the base plus the lane's index times the element size; the lowest
misaligned lane raises ALIGNMENT; a lane out of range reads zero or stores nothing, and the lowest of them is recorded. -/
def Sys2Proof.Safety.gatherAndScatterUseLaneAddresses : Prop :=
  ∀ (o : MM) (s : State), o.ty.toNat < 4 →
    let z := 2 ^ o.ty.toNat; let n := 64 / z
    let at_ (i : Nat) : Nat := ((s.tile.s o.base).toNat + lane (8 * z) i (s.tile.v (o.off.setWidth 6)) * z) % 2 ^ 64
    (∀ i, i < n → at_ i % z ≠ 0 → (∀ j, j < i → at_ j % z = 0) → ∀ e ∈ [Instr.vgather o, .vscatter o],
      exec e s = .next (charged s .alignment (BitVec.ofNat 64 (at_ i)) 2 s.tile.ct.now)) ∧
    ((∀ i, i < n → at_ i % z = 0) →
      exec (.vgather o) s = .next (loads s (.v (s.tile.ct.cx.phys (o.t.setWidth 5))) (BitVec.allOnes 64)
        ((List.range n).map at_) z none) ∧
      exec (.vscatter o) s = .next (stores s ((List.range n).map fun i => (at_ i, lane (8 * z) i (s.tile.v o.t))) z))

/-- R221, R223-R225: SETS loads a record; SRD and SWR move the element at POS and leave the next position for the commit; SRST
leaves a reset; each traps as the stream stands. -/
def Sys2Proof.Safety.streamOpsMoveAlongTheWalk : Prop :=
  ∀ (o : MM) (x : Ext) (s : State),
    let k : BitVec 4 := o.base.setWidth 4
    let st := s.tile.ct.cx.rdA k
    let n := 2 ^ (o.ty.toNat % 4)
    let a := recAddr st.record st.pos
    let ev := effective s o x 64
    let ready (write : Bool) : Prop := st.valid = true ∧ recWrite st.record = write ∧ recZ st.record = n ∧
      st.pos < recN st.record
    (ready false → exec (.srd o) s = .next (withPost (loads s (.s o.t) 0xFF [a] n (if 4 ≤ o.ty.toNat then some (8 * n) else none))
      (.stream k (st.pos + 1)))) ∧
    (ready true → exec (.swr o) s = .next (withPost (stores s [(a, (s.tile.s o.t).toNat)] n)
      (.stream k (st.pos + 1)))) ∧
    (st.valid = false → ∀ e ∈ [Instr.srd o, .swr o], exec e s = .next (charged s .shapeFault
      (BitVec.ofNat 64 (9 + 16 * k.toNat)) 2 s.tile.ct.now)) ∧
    (st.valid = true → recZ st.record = n → st.pos = recN st.record →
      ∀ e ∈ [if recWrite st.record then Instr.swr o else .srd o], exec e s = .next (charged s .streamExhausted
        (BitVec.ofNat 64 (k.toNat + st.pos * 2 ^ 32)) 2 s.tile.ct.now)) ∧
    (ev % 64 = 0 → s.tile.ct.spOutRange ev 64 = false → exec (.sets o x) s = .next (withTile s
      ((s.tile.bookSp (s.tile.ct.now + 3) ((List.range 64).map fun i => ev + i) false false 2).addResult
        (.stream (o.t.setWidth 4)) (s.tile.ct.now + 4) (s.tile.ct.now + 3)
        (.read .sp ((List.range 64).map fun i => some (ev + i)) none) (BitVec.allOnes 64) 0 2))) ∧
    ((s.tile.ct.cx.rdA (o.t.setWidth 4)).valid = true →
      exec (.srst o) s = .next (withPost s (.srst (o.t.setWidth 4)))) ∧
    ((s.tile.ct.cx.rdA (o.t.setWidth 4)).valid = false → exec (.srst o) s = .next (charged s .shapeFault
      (BitVec.ofNat 64 (9 + 16 * (o.t.toNat % 16))) 2 s.tile.ct.now))

/-- R226: SGET reads the selected field of a stream as it stands, L = 1. The index i3 of a position at the end of its walk is
left open (log 10), and nothing is said of it. -/
def Sys2Proof.Safety.streamFieldsAreRead : Prop :=
  ∀ (o : MM) (s : State),
    let st := s.tile.ct.cx.rdA (o.base.setWidth 4)
    let r := st.record
    ∃ v : Word, exec (.sget o) s = .next (gains s (.s o.t) (v.setWidth 512) 0xFF 0 1 2) ∧
      (st.valid = false → o.off.toNat % 8 ≠ 5 → v = 0) ∧
      (o.off.toNat % 8 = 5 → v.toNat = st.valid.toNat + 2 * (recWrite r).toNat + 4 * (recShuf r).toNat + 8 * (recBlk r).toNat
        + 16 * recNdim r + 256 * recFmt r) ∧
      (st.valid = true →
        (o.off.toNat % 8 = 0 → v = BitVec.ofNat 64 st.pos) ∧ (o.off.toNat % 8 = 1 → v = BitVec.ofNat 64 (recN r)) ∧
        (o.off.toNat % 8 = 2 → v = if st.pos = recN r then 0 else BitVec.ofNat 64 (recAddr r st.pos)) ∧
        (o.off.toNat % 8 = 3 → v = BitVec.ofNat 64 (recIndex r st.pos 0 + recIndex r st.pos 1 * 2 ^ 32)) ∧
        (o.off.toNat % 8 = 4 → st.pos ≠ recN r →
          v = BitVec.ofNat 64 (recIndex r st.pos 2 + recIndex r st.pos 3 * 2 ^ 32)) ∧
        (o.off.toNat % 8 = 6 → v = BitVec.ofNat 64 (recBase r)))

/-- R285-R288, R291: vault loads and stores: in the partition's share they reach their bank at c + 10 + 2h; in a commons they
ask for a slot, a load landing at c + 534; out of range a load lands zeros and a store is dropped; misaligned both raise
ALIGNMENT.
Where the manual is silent it follows the model's readings (log 12, 13, 18). -/
def Obligations.VaultAccessesReachTheirBank : Prop :=
  ∀ (o : MM) (x : Ext) (s : State) (vec : Bool),
    let n := if vec then 64 else 2 ^ (o.ty.toNat % 4)
    let ea := effective s o x n
    let sx := if !vec && 4 ≤ o.ty.toNat then some (8 * n) else none
    let d : Dest := if vec then .v (s.tile.ct.cx.phys (o.t.setWidth 5)) else .s o.t
    let be : Word := if vec then BitVec.allOnes 64 else 0xFF
    let v := if vec then (s.tile.v o.t).toNat else (s.tile.s o.t).toNat
    let ld : Instr := if vec then .vldv o x else .ldv o x
    let st : Instr := if vec then .vstv o x else .stv o x
    let w := s.tile.ct.now + 10 + 2 * s.vHops ea
    (ea % 2 ^ 24 % n ≠ 0 → ∀ e ∈ [ld, st],
      exec e s = .next (charged s .alignment (BitVec.ofNat 64 ea) 2 s.tile.ct.now)) ∧
    (ea % 2 ^ 24 % n = 0 →
      (s.vPlace ea n = .share →
        exec ld s = .next (withTile s (((s.tile.addResult d w w .wait be 0 2).bookVault w ea false false 2).pending w 2
          (.vaultRead s.tile.uid ea n sx))) ∧
        exec st s = .next (withTile s ((s.tile.bookVault w ea true false 2).pending w 2
          (.vaultWrite (cellsAt ea (bytesOf n v)))))) ∧
      (∀ cid, s.vPlace ea n = .commons cid →
        exec ld s = .next (withTile (s.request cid { s.tile.creq ea 0 n with x := BitVec.ofNat 64 (sx.getD 0) })
          (s.tile.addResult d (s.tile.ct.now + 534) (s.tile.ct.now + 534) .wait be 0 2)) ∧
        exec st s = .next (s.request cid { s.tile.creq ea 1 n with bytes := bytesOf n v })) ∧
      (s.vPlace ea n = .out → let lat := if bit ea 37 then 534 else 10
        exec ld s = .next (gains (withTile s (s.tile.outOfRange true ea)) d 0 be 0 lat 2) ∧
        exec st s = .next (withTile s (s.tile.outOfRange true ea))))

/-- R275-R277: DRIVE and DRIVES send a beat along every path of the route tables, arriving 2 + 2h cycles later (more where a
retiming buffer on the path has slipped), and raise CHANNEL_EMPTY where the tables feed nothing from the lane. -/
def Sys2Proof.Safety.drivesFollowTheRoutes : Prop :=
  ∀ (o : CH) (s : State) (vec : Bool),
    let i : Instr := if vec then .drives o else .drive o
    let data : Vec := if vec then s.tile.v o.t else (s.tile.s o.t).setWidth 512
    let port := 4 + s.tile.ltid % 4
    let fed := fedBy (s.quad (s.tile.ltid / 4)).route port o.lane.toNat 0
    let ps := s.paths maxCrossings [(s.tile.ltid / 4, port, o.lane.toNat, 0, [])]
    let got (u : Tile) : Tile := if u.ct.pid = s.tile.ct.pid ∧ u.ct.strand = s.tile.ct.strand ∧ s.tile.ct.strand ≠ none then
      { u with beats := u.beats ++ (ps.filter fun p => p.ltid == u.ltid).map fun p => {
        lane := p.lane, at_ := s.tile.ct.now + 2 + 2 * p.via.length + s.slipsOn p.via, data := data
        tag := BitVec.ofInt 4 (s.tile.ct.now + (s.quad (s.tile.ltid / 4)).skewOf s.tile.ct.pid + 2 + 2 * p.via.length), via := p.via } }
      else u
    (fed = [] → exec i s = .next (charged s .channelEmpty
      (BitVec.ofNat 64 (o.lane.toNat + (if vec then 8 else 0) + 2 ^ 63)) 2 s.tile.ct.now)) ∧
    (fed ≠ [] → exec i s = .next { s with tile := got s.tile, others := s.others.map got })

/-- R277, R278: TAP and TAPS take the oldest entry of their lane, and raise CHANNEL_EMPTY where there is none. -/
def Sys2Proof.Safety.tapsTakeTheOldestEntry : Prop :=
  ∀ (o : CH) (s : State) (vec : Bool),
    let i : Instr := if vec then .taps o else .tap o
    let d : Dest := if vec then .v (s.tile.ct.cx.phys (o.t.setWidth 5)) else .s o.t
    ((∀ e ∈ s.tile.landing, e.1 = o.lane.toNat → s.tile.ct.now < e.2.1) →
      exec i s = .next (charged s .channelEmpty (BitVec.ofNat 64 (o.lane.toNat + if vec then 8 else 0)) 2 s.tile.ct.now)) ∧
    (∀ e ∈ s.tile.landing, e.1 = o.lane.toNat → e.2.1 ≤ s.tile.ct.now →
      (∀ f ∈ s.tile.landing, f.1 = o.lane.toNat → f = e ∨ e.2.1 < f.2.1) →
      exec i s = .next (gains (withTile s { s.tile with landing := s.tile.landing.erase e }) d e.2.2
        (if vec then BitVec.allOnes 64 else 0xFF) 0 1 2))

/-- The state `t` after an op has sent a window from `s`: its effect is due at `first`, the value, if it has one, lands `lat`
cycles after c, and the effect log holds its entry; no register, no memory and nothing outside the tile has changed. -/
def Sys2Proof.Safety.windowSent (s t : State) (dest : Option (BitVec 6)) (brk : Option Nat) (lat first : Nat) (kind : PendKind)
    (code ea : Nat) (operands : List Word) : Prop :=
  let k := s.tile.ct
  t.tile.ct.cx = k.cx ∧ t.tile.ct.sq = k.sq ∧ t.tile.sp = s.tile.sp ∧ t.tile.dets = s.tile.dets ∧ t.others = s.others ∧
  t.jobs = s.jobs ∧ t.commons = s.commons ∧
  t.tile.pend = s.tile.pend ++ [{
    due := first, kind := kind, issue := k.now, slot := 2, addr := k.sq.pc, phase := k.cx.phaseNum }] ∧
  t.tile.ct.inflight = k.inflight ++ (dest.map fun d => {
    id := s.tile.uid, dest := .s d, due := k.now + lat, rdAt := k.now + lat, src := .wait, be := 0xFF, fl := 0
    issue := k.now, slot := 2, addr := k.sq.pc, phase := k.cx.phaseNum, brk := brk : Result }).toList ∧
  t.tile.ct.log = if k.log.length < 256 then k.log ++ [{
    code := code, addr := BitVec.ofNat 64 ea, operands := operands, value := none, offset := 0, id := s.tile.uid
    made := k.now }] else k.log

/-- The atomics with their function and their code in the effect log (R293). -/
def Sys2Proof.Safety.atomicTable (o : MM) (x : Ext) : List (Instr × AtomOp × Nat) :=
  [(.aadd o x, .add, 0x28), (.amax o x, .max, 0x29), (.aswap o x, .swap, 0x2A), (.acas o x, .cas, 0x2B), (.aor o x, .or, 0x2C)]

/-- R293, R294, R259: an aligned atomic that is not answered from the log sends its window: in the scratchpad its read is at
c+1 and its old value lands at c+4; in the vault its window begins two cycles before the value lands at c + 10 + 2h; in a
commons its request waits for a slot and its value lands at c + 534. -/
def Sys2Proof.Safety.atomicsSendTheirWindow : Prop :=
  ∀ (o : MM) (x : Ext) (s : State), ∀ e ∈ atomicTable o x,
    let n := if o.ty.getLsbD 1 then 4 else 8
    let ea := effective s o x n
    let p : Word := BitVec.ofNat 64 ((s.tile.s o.t).toNat % 2 ^ (8 * n))
    let q : Word := BitVec.ofNat 64 (if e.2.1 = .cas then (s.tile.s (o.t + 1)).toNat % 2 ^ (8 * n) else 0)
    let now := s.tile.ct.now
    let lat := 10 + 2 * s.vHops ea
    s.tile.ct.log[s.tile.ct.logPos]? = none →
    (o.ty.getLsbD 0 = false → ea % n ≠ 0 →
      exec e.1 s = .next (charged s .alignment (BitVec.ofNat 64 ea) 2 now)) ∧
    (o.ty.getLsbD 0 = false → ea % n = 0 → s.tile.ct.spOutRange ea n = false → ∃ t, exec e.1 s = .next t ∧
      windowSent s t (some o.t) none 4 (now + 1) (.atomic s.tile.uid .sp ea n e.2.1 p q) e.2.2 ea [o.ty.setWidth 64, p, q]) ∧
    (o.ty.getLsbD 0 = true → ea % 2 ^ 24 % n = 0 → s.vPlace ea n = .share → ∃ t, exec e.1 s = .next t ∧
      windowSent s t (some o.t) none lat (now + lat - 2) (.atomic s.tile.uid .vault ea n e.2.1 p q) e.2.2 ea
        [o.ty.setWidth 64, p, q]) ∧
    (∀ cid, o.ty.getLsbD 0 = true → ea % 2 ^ 24 % n = 0 → s.vPlace ea n = .commons cid → ∃ t, exec e.1 s = .next t ∧
      t.commons = (s.request cid { s.tile.creq ea 2 n with atom := e.2.1, x := p, y := q }).commons ∧
      t.tile.ct.inflight.getLast?.map (fun r => (r.dest, r.due, r.src)) = some (.s o.t, now + 534, .wait))

/-- R259, R296: in a re-run an atomic that its log entry agrees with lands the logged value and sends nothing; one that it
does not agree with is a silent error. -/
def Sys2Proof.Safety.reRunsAnswerFromTheLog : Prop :=
  ∀ (o : MM) (x : Ext) (s : State) (l : LogEntry), s.tile.ct.log[s.tile.ct.logPos]? = some l →
    o.ty.getLsbD 0 = false → let n := if o.ty.getLsbD 1 then 4 else 8
    let ea := effective s o x n
    ea % n = 0 → s.tile.ct.spOutRange ea n = false → ∀ e ∈ atomicTable o x,
      let p : Word := BitVec.ofNat 64 ((s.tile.s o.t).toNat % 2 ^ (8 * n))
      let q : Word := BitVec.ofNat 64 (if e.2.1 = .cas then (s.tile.s (o.t + 1)).toNat % 2 ^ (8 * n) else 0)
      (l.code = e.2.2 ∧ l.addr = BitVec.ofNat 64 ea ∧ l.operands = [o.ty.setWidth 64, p, q] →
        ∃ t, exec e.1 s = .next t ∧ t.tile.pend = s.tile.pend ∧ t.tile.ct.log = s.tile.ct.log ∧
          t.tile.ct.logPos = s.tile.ct.logPos + 1 ∧ t.tile.sp = s.tile.sp ∧ t.jobs = s.jobs ∧ t.commons = s.commons ∧
          ∃ r, t.tile.ct.inflight = s.tile.ct.inflight ++ [r] ∧ r.dest = .s o.t ∧ r.due = s.tile.ct.now + 4 ∧
            ∀ v, l.value = some v → r.src = .val (v.setWidth 512)) ∧
      (¬(l.code = e.2.2 ∧ l.addr = BitVec.ofNat 64 ea ∧ l.operands = [o.ty.setWidth 64, p, q]) →
        exec e.1 s = .next (charged s .checksum 0 2 s.tile.ct.now)) ∧
      Cause.cls .checksum = .silent

/-- R368-R373: an aligned barrier op on a scratchpad or vault pair sends its window, BARV and BWAIT with a status to come; BWAIT
suspends issue until it lands; BINIT takes a count of 1 to 2^20 − 1, BWAIT a phase with bits 31:12 zero. -/
def Obligations.BarrierOpsSendTheirWindow : Prop :=
  ∀ (o : MM) (x : Ext) (s : State),
    let ea := effective s o x 16
    let v := s.tile.s o.t
    let now := s.tile.ct.now
    let lat := 10 + 2 * s.vHops ea
    let brk : Option Nat := if bit s.tile.ct.cx.trapen.toNat 17 then some ea else none
    let sent (i : Instr) (dest : Option (BitVec 6)) (brk : Option Nat) (op : BarOp) (code : Nat) : Prop :=
      (o.ty.getLsbD 0 = false → s.tile.ct.spOutRange ea 16 = false → ∃ t, exec i s = .next t ∧
        windowSent s t dest brk 4 (now + 1) (.barrier s.tile.uid .sp ea op v) code ea [o.ty.setWidth 64, v]) ∧
      (o.ty.getLsbD 0 = true → s.vPlace ea 16 = .share → ∃ t, exec i s = .next t ∧
        windowSent s t dest brk lat (now + lat - 2) (.barrier s.tile.uid .vault ea op v) code ea [o.ty.setWidth 64, v])
    s.tile.ct.log[s.tile.ct.logPos]? = none →
    (ea % 16 = 0 →
      (1 ≤ v.toNat → v.toNat < 2 ^ 20 → sent (.binit o x) none none .binit 0x30) ∧
      sent (.barv o x) (some o.t) brk .barv 0x31 ∧ sent (.bbytes o x) none none .bbytes 0x33 ∧
      (v.toNat / 2 ^ 12 % 2 ^ 20 = 0 → o.ty.getLsbD 0 = false → s.tile.ct.spOutRange ea 16 = false →
        ∃ t, exec (.bwait o x) s = .next t ∧ t.tile.ct.run = .bwait s.tile.uid ∧ t.tile.ct.cx = s.tile.ct.cx ∧
          t.tile.sp = s.tile.sp ∧ t.tile.ct.log = s.tile.ct.log ∧
          (t.tile.pend.getLast?.map fun p => (p.due, p.kind)) = some (now + 1, .barrier s.tile.uid .sp ea .bwait v) ∧
          (t.tile.ct.inflight.getLast?.map fun r => (r.id, r.dest, r.due, r.src)) =
            some (s.tile.uid, .s o.t, now + 4, .wait))) ∧
    (v.toNat = 0 ∨ 2 ^ 20 ≤ v.toNat → exec (.binit o x) s = .next (charged s .illegalOp v 2 now)) ∧
    (v.toNat / 2 ^ 12 % 2 ^ 20 ≠ 0 → exec (.bwait o x) s = .next (charged s .illegalOp v 2 now)) ∧
    (ea % 16 ≠ 0 → ∀ e ∈ [Instr.barv o x, .bbytes o x], exec e s = .next (charged s .alignment (BitVec.ofNat 64 ea) 2 now))

/-- R361-R365: STAGE and STAGEW at a 64-byte address ask for their descriptor at c+1 and land T, STAGEW holding issue; PUBS leaves
its publish for c+1 where it names a staged region or the overlays; HQRY reads a window's promises, its rate or the misses;
PUBIDX sends an update of a publish-index register and logs it.
Where the manual is silent it follows the model's readings (log 21, 22). -/
def Obligations.HuskOpsAskTheirEngines : Prop :=
  ∀ (o : MM) (x : Ext) (s : State),
    let now := s.tile.ct.now
    let ea := effective s o x 64
    let ei := effective s o x 8
    let e := (s.tile.s o.base).toNat
    let staged (wait : Bool) : State := withTile s
      (s.tile.addResult (.s o.t) (now + 2) (now + 1) (.stage ea wait) 0xFF 0 2)
    (ea % 64 ≠ 0 → ∀ i ∈ [Instr.stage o x, .stagew o x],
      exec i s = .next (charged s .alignment (BitVec.ofNat 64 ea) 2 now)) ∧
    (ea % 64 = 0 → s.tile.ct.spOutRange ea 64 = false → exec (.stage o x) s = .next (staged false) ∧
      exec (.stagew o x) s = .next (withTile (staged true) { (staged true).tile with
        ct := { (staged true).tile.ct with run := .wait (now + 2) .stagew, after := s.tile.ct.run } })) ∧
    (e = 256 ∨ (∃ r, s.tile.ct.regions[e]? = some r ∧ r.staged = true) →
      exec (.pubs o) s = .next (withTile s (s.tile.pending (now + 1) 2 (.publish e)))) ∧
    (e ≠ 256 → (∀ r, s.tile.ct.regions[e]? = some r → r.staged = false) →
      exec (.pubs o) s = .next (charged s .illegalOp (s.tile.s o.base) 2 now)) ∧
    (36 ≤ e → exec (.hqry o) s = .next (charged s .illegalOp (s.tile.s o.base) 2 now)) ∧
    (∀ j, s.myJob = some j → e < 36 → ∃ v : Word, exec (.hqry o) s = .next (gains s (.s o.t) (v.setWidth 512) 0xFF 0 2 2) ∧
      let w := (j.window e).settle now
      (o.off.toNat = 0 → v = BitVec.ofNat 64 (((w.active.filter fun a => now < a.t).map (·.t)).getD 0)) ∧
      (o.off.toNat = 1 → v = BitVec.ofNat 64 ((w.shadow.map (·.t)).getD 0)) ∧
      (o.off.toNat = 2 → v = BitVec.ofNat 64 (j.rate s.pod e)) ∧
      (o.off.toNat = 3 → v = BitVec.ofNat 64 (j.misses s.tile.ct.node))) ∧
    (∀ cid, s.tile.ct.log[s.tile.ct.logPos]? = none → s.vPlace ei 8 = .index cid → ei % 2 ^ 24 < 0xFFFF80 → ei % 8 = 0 →
      ∃ t, exec (.pubidx o x) s = .next t ∧ t.tile.ct.cx = s.tile.ct.cx ∧ t.tile.sp = s.tile.sp ∧
        t.commons = (s.request cid { s.tile.creq ei 4 8 with x := s.tile.s o.t }).commons ∧
        t.tile.ct.log = if s.tile.ct.log.length < 256 then s.tile.ct.log ++ [{
          code := 0x40, addr := BitVec.ofNat 64 ei, operands := [s.tile.s o.t], value := some 0, offset := 0
          id := s.tile.uid, made := now }] else s.tile.ct.log)

/-- R209-R211, R214-R216, R217: scratchpad loads and stores.
Where the manual is silent it follows the model's readings (log 12, 13). -/
def Obligations.ScratchpadAccessesReachTheirBytes : Prop := loadsAndStoresReachTheirBytes ∧ gatherAndScatterUseLaneAddresses

/-- R221, R223-R225, R226: stream ops.
Where the manual is silent it follows the model's readings (log 59). -/
def Obligations.StreamOpsFollowTheWalk : Prop := streamOpsMoveAlongTheWalk ∧ streamFieldsAreRead

/-- R275-R277, R277, R278: drives and taps. -/
def Obligations.DrivesAndTapsUseTheChannel : Prop := drivesFollowTheRoutes ∧ tapsTakeTheOldestEntry

/-- R293, R294, R259, R296: atomics, and the log of a re-run.
Where the manual is silent it follows the model's readings (log 18). -/
def Obligations.AtomicsSendTheirWindowOnce : Prop := atomicsSendTheirWindow ∧ reRunsAnswerFromTheLog

/-! ### Matrix ops (R228-R250) -/

/-- The tile in focus with an engine taken for `n` cycles from c: 0 the CIM engine, 1 the dense engine; where it is not free
yet, the collision of R229. -/
def Sys2Proof.Safety.engineTaken (s : State) (engine n : Nat) : Tile :=
  let busy := if engine = 0 then s.tile.cimBusy else s.tile.denseBusy
  { s.tile with
    cimBusy := if engine = 0 then s.tile.ct.now + n else s.tile.cimBusy
    denseBusy := if engine = 0 then s.tile.denseBusy else s.tile.ct.now + n
    late := if s.tile.ct.now < busy then s.tile.late ++ [(9 * 2 ^ 60 + engine, 3)] else s.tile.late }

/-- An effect of the X op now issuing, due at a cycle. -/
def Sys2Proof.Safety.xEffect (s : State) (due : Nat) (k : PendKind) : Pend :=
  { due := due, kind := k, issue := s.tile.ct.now, slot := 3, addr := s.tile.ct.sq.pc, phase := s.tile.ct.cx.phaseNum }

/-- The stream position that an X op leaves for the commit after `g` elements (R230). -/
def Sys2Proof.Safety.xAdvance (s : State) (n : BitVec 4) (g : Nat) : Post :=
  .stream n (min ((s.tile.ct.cx.rdA n).pos + g) (recN (s.tile.ct.cx.rdA n).record))

/-- R235: CLOADB takes the CIM engine for 384 cycles a plane and begins its reads at c+1; CLOADBQ takes it for nine more, the
tile of TQ 0 reading the quad's vault and the others joining its load; both advance their stream past the planes' elements. -/
def Sys2Proof.Safety.planeLoadsStart : Prop :=
  ∀ (o : XM) (s : State), let n := o.cnt.toNat; let st := s.tile.ct.cx.rdA o.sa; let cfg := s.tile.ct.cx.cimcfg.toNat
    firstFault (s.tile.loadFaults o) = none →
    exec (.cloadb o) s = .next (withTile s { engineTaken s 0 (384 * n) with
      post := s.tile.post ++ [xAdvance s o.sa (24576 * n)]
      pend := s.tile.pend ++ [xEffect s (s.tile.ct.now + 1) (.planeRead false o.dst.toNat n 0 st cfg)] }) ∧
    (s.tile.ltid % 4 = 0 → exec (.cloadbq o) s = .next (withTile s { engineTaken s 0 (384 * n + 9) with
      post := s.tile.post ++ [xAdvance s o.sa (24576 * n)]
      pend := s.tile.pend ++ [xEffect s (s.tile.ct.now + 1) (.planeRead true o.dst.toNat n 0 st cfg)] })) ∧
    (s.tile.ltid % 4 ≠ 0 → s.loadLed o = true → exec (.cloadbq o) s = .next (withTile s { engineTaken s 0 (384 * n + 9) with
      post := s.tile.post ++ [xAdvance s o.sa (24576 * n)]
      pend := s.tile.pend ++ [xEffect s (s.tile.ct.now + (384 * n + 9)) (.planeJoin o.dst.toNat n cfg)] }))

/-- R236-R238: CMM and CMMQ whose operands raise no fault take the CIM engine for P × W cycles a row (with .pip the Pip
generator too), lock their planes, set the end of the command at c + O + 4, and begin their first slice at c+1; CMMQ computes
the rows of its tile's place in the quad. -/
def Sys2Proof.Safety.multipliesStart : Prop :=
  ∀ (o : XM) (s : State) (quad : Bool), firstFault (s.tile.cmmFaults o) = none →
    let m := o.cnt.toNat
    let p := s.tile.ct.cx.cimcfg.toNat / 2 ^ 7 % 2 ^ 5
    let rows := if quad then (List.range m).filter fun i => i % 4 == s.tile.ltid % 4 else List.range m
    let len := p * s.tile.cmmW o * (if quad then (m + 3) / 4 else m)
    let pip := o.sb.getLsbD 0
    ∃ t, exec (if quad then .cmmq o else .cmm o) s = .next t ∧ t.others = s.others ∧ t.jobs = s.jobs ∧
      t.tile.ct = s.tile.ct ∧ t.tile.sp = s.tile.sp ∧ t.tile.acc = s.tile.acc ∧ t.tile.dets = s.tile.dets ∧
      t.tile.cimBusy = s.tile.ct.now + len ∧ t.tile.denseBusy = s.tile.denseBusy ∧
      t.tile.pipBusy = (if pip then s.tile.ct.now + len else s.tile.pipBusy) ∧
      (s.tile.cimBusy ≤ s.tile.ct.now → s.tile.pipBusy ≤ s.tile.ct.now → t.tile.late = s.tile.late) ∧
      t.tile.post = s.tile.post ++ xAdvance s o.sa (m * 64 * p) ::
        (if pip && s.tile.ct.cx.cimcfg.getLsbD 14 then [.minc] else []) ∧
      ∃ run : CimRun, run.row0 = 4 * o.dst.toNat ∧ run.rows = rows ∧ run.planes = p ∧ run.w = s.tile.cmmW o ∧
        run.strm = s.tile.ct.cx.rdA o.sa ∧ run.accmode = s.tile.ct.cx.accmode ∧
        t.tile.pend = s.tile.pend ++
          [xEffect s (s.tile.ct.now + len) (.cimLock (s.tile.ct.cx.cimcfg.toNat % 2 ^ 7)
            (s.tile.ct.cx.cimcfg.toNat % 2 ^ 7 + 8 * p)),
           xEffect s (s.tile.ct.now + len + 4) (.cimEnd s.tile.ct.cx.trapen (List.replicate 48 0) none)] ++
          if rows = [] then [] else [xEffect s (s.tile.ct.now + 1) (.cimSlice run 0 0 [])]

/-- R239: CACCZ clears the cells of its rows and no other; CACCRD reads sixteen cells of a row under ACCMODE into a vector
register after three cycles; CACCST takes the engine and begins its groups at c+1. -/
def Sys2Proof.Safety.accumulatorOps : Prop :=
  ∀ (o : XM) (s : State),
    (∃ m : Store 48, exec (.caccz o) s = .next (withTile s { engineTaken s 0 1 with acc := m }) ∧
      ∀ row col, col < 384 → memGet m (row * 384 + col) =
        if 4 * o.dst.toNat ≤ row ∧ row < 4 * o.dst.toNat + o.cnt.toNat then 0 else memGet s.tile.acc (row * 384 + col)) ∧
    (let row := o.cnt.toNat % 64
     let g := o.cnt.toNat / 64 + (if o.sb.getLsbD 0 then 16 else 0)
     let res (i : Nat) : FRes := readCell s.tile.ct.cx.accmode.toNat (memGet s.tile.acc (row * 384 + (16 * g + i)))
     let fl := laneFlagSum 16 (fun _ => true) fun i => (res i).fl
     s.tile.rowBusy row = false → Quiet s fl → ∃ r : Vec,
       exec (.caccrd o) s = .next (gains s (.v (s.tile.ct.cx.phys (o.dst.setWidth 5))) r (BitVec.allOnes 64) fl 3 3) ∧
       (∀ i, i < 16 → lane 32 i r = (res i).val % 2 ^ 32) ∧
       (s.tile.ct.cx.accmode.getLsbD 0 = false → ∀ i, i < 16 →
         lane 32 i r = (memGet s.tile.acc (row * 384 + (16 * g + i))).toNat % 2 ^ 32)) ∧
    (firstFault (s.tile.caccstFaults o) = none → let st := s.tile.ct.cx.rdA o.sa
      exec (.caccst o) s = .next (withTile s
        { engineTaken s 0 ((if recFmt st.record = 10 then 24 else 48) * o.cnt.toNat) with
          post := s.tile.post ++ [xAdvance s o.sa (384 * o.cnt.toNat)]
          pend := s.tile.pend ++ [xEffect s (s.tile.ct.now + 1)
            (.accStore (4 * o.dst.toNat) o.cnt.toNat 0 st s.tile.ct.cx.accmode s.tile.ct.cx.trapen)] }))

/-- The x register that an X op names, and the state in which a landing on it is set, where no other meets it (R250). -/
def Sys2Proof.Safety.xReg (s : State) (o : XM) : XReg := s.tile.ct.cx.x[(o.dst.setWidth 3 : BitVec 3).toNat]'(BitVec.isLt _)

/-- R246, R247: DMMA reads its groups now and lands at c+8; DXZ empties x at c+1; DXLD reads its groups from c+1 and lands
four cycles after the last; DXST stores the cells as they stand; DXRD reads a cell into a scalar at c+2, and raises ILLEGAL_OP
past the cells of FP64 contents. Each takes the dense engine. -/
def Sys2Proof.Safety.denseOpsStart : Prop :=
  ∀ (o : XM) (s : State),
    let now := s.tile.ct.now
    let x : BitVec 3 := o.dst.setWidth 3
    let ty := o.cnt.toNat % 16
    let z := typeWidth ty / 8
    let a := s.tile.groupNow o.sa z
    let b := a.2.groupNow o.sb z
    let st := s.tile.ct.cx.rdA o.sa
    let n := if recFmt st.record = 11 then 8 else 16
    (firstFault (s.tile.dmmaFaults o) = none → s.tile.xClash x (now + 8) false = false →
      exec (.dmma o) s = .next (withTile s { engineTaken (withTile s b.2) 1 4 with
        pend := b.2.pend ++ [xEffect s (now + 8) (.dmma x ty a.1 b.1 s.tile.ct.cx.trapen)] }) ∧
      ∀ i, i < 64 / z → lane (8 * z) i a.1 =
        if st.pos + i < recN st.record then s.tile.spRead (recAddr st.record (st.pos + i)) z else 0) ∧
    (s.tile.xClash x (now + 1) false = false → exec (.dxz o) s = .next (withTile s { engineTaken s 1 1 with
      pend := s.tile.pend ++ [xEffect s (now + 1) (.xZero x)] })) ∧
    (st.valid = true → recWrite st.record = false → st.pos < recN st.record →
      recFmt st.record = 10 ∨ recFmt st.record = 11 → s.tile.xClash x (now + 4 + n) false = false →
      exec (.dxld o) s = .next (withTile s { engineTaken s 1 n with
        post := s.tile.post ++ [xAdvance s o.sa (n * n)]
        pend := s.tile.pend ++ [xEffect s (now + 4 + n) (.xLoad x (if n = 8 then .f64 else .f32) []),
          xEffect s (now + 1) (.xRead x 0 st)] })) ∧
    (st.valid = true → recWrite st.record = true → st.pos < recN st.record →
      (recFmt st.record = 10 ∧ (xReg s o).kind ≠ .f64) ∨ (recFmt st.record = 11 ∧ (xReg s o).kind ≠ .f32) →
      exec (.dxst o) s = .next (withTile s { engineTaken s 1 n with
        post := s.tile.post ++ [xAdvance s o.sa (n * n)]
        pend := s.tile.pend ++ [xEffect s (now + 1) (.xStore 0 st ((List.range (n * n)).map fun e =>
          (memGet (xReg s o).cells (e / n * (n + 1) + e % n)).toNat))] })) ∧
    (¬((xReg s o).kind = .f64 ∧ 80 < o.cnt.toNat) → exec (.dxrd o) s =
      .next (gains (withTile s (engineTaken s 1 1)) (.s (o.sa.setWidth 6))
        ((memGet (xReg s o).cells o.cnt.toNat).setWidth 512) 0xFF 0 2 3)) ∧
    ((xReg s o).kind = .f64 → 80 < o.cnt.toNat → ∃ v, exec (.dxrd o) s = .next (charged s .illegalOp v 3 now))

/-- R248, R249: DCHK delivers its two masks after 20 cycles, none failing for an EMPTY x, and with TRAPEN.CHK a pattern that
is not one cell sets a CHECKSUM for that cycle instead; DXFIX rewrites one cell after 20 cycles where each mask names one line. -/
def Sys2Proof.Safety.checksAndFixes : Prop :=
  ∀ (o : XM) (s : State),
    let now := s.tile.ct.now
    let x : BitVec 3 := o.dst.setWidth 3
    let r := xReg s o
    let m := checkMasks r (o.cnt.toNat % 64)
    let one (rows cols : Nat) : Bool := popCount 17 rows == 1 && popCount 17 cols == 1
    let fine (rows cols : Nat) : Prop := (rows = 0 ∧ cols = 0) ∨ one rows cols = true
    (r.kind = .empty → m = (0, 0)) ∧
    (fine m.1 m.2 ∨ bit s.tile.ct.cx.trapen.toNat 16 = false → exec (.dchk o) s = .next (gains (gains
      (withTile s (engineTaken s 1 4)) (.s (o.sa.setWidth 6)) ((BitVec.ofNat 64 m.1 : Word).setWidth 512) 0xFF 0 20 3)
      (.s (o.sb.setWidth 6)) ((BitVec.ofNat 64 m.2 : Word).setWidth 512) 0xFF 0 20 3)) ∧
    (¬fine m.1 m.2 → bit s.tile.ct.cx.trapen.toNat 16 = true → exec (.dchk o) s = .next (withTile s { engineTaken s 1 4 with
      pend := s.tile.pend ++ [xEffect s (now + 20) (.checksum m.1 m.2)] })) ∧
    (let w := if r.kind = .f64 then 9 else 17
     let rows := (s.tile.s (o.sa.setWidth 6)).toNat % 2 ^ w
     let cols := (s.tile.s (o.sb.setWidth 6)).toNat % 2 ^ w
     s.tile.xClash x (now + 20) true = false → fine rows cols ∨ bit s.tile.ct.cx.trapen.toNat 16 = false →
     exec (.dxfix o) s = .next (withTile s { engineTaken s 1 4 with
       pend := s.tile.pend ++ [xEffect s (now + 20)
         (.xFix x (if one rows cols then some (fixedCell r rows cols) else none))] }))

/-- R235, R236-R238, R239: plane loads, multiplies and accumulator ops.
Where the manual is silent it follows the model's readings (log 20). -/
def Obligations.MatrixEngineOpsStart : Prop := planeLoadsStart ∧ multipliesStart ∧ accumulatorOps

/-- R246, R247, R248, R249: dense ops and their checks. -/
def Obligations.DenseOpsAndChecksStart : Prop := denseOpsStart ∧ checksAndFixes

/-! ### What comes due on a tile (R36-R40, R198-R250, R275-R296, R368-R376) -/

/-- `p` is the one effect of a kind that is due on the tile in focus, and `t` is the tile once it is taken. -/
def Sys2Proof.Safety.soleDue (s : State) (f : PendKind → Bool) (p : Pend) (t : Tile) : Prop :=
  s.tile.pend.filter (fun q => decide (q.due ≤ s.tile.ct.now) && f q.kind) = [p] ∧
  t = { s.tile with pend := s.tile.pend.filter fun q => !(decide (q.due ≤ s.tile.ct.now) && f q.kind) }

/-- The state in which a cause found in this cycle is charged to the op of an effect (R255). -/
def Sys2Proof.Safety.found (s : State) (t : Tile) (p : Pend) (cause : Cause) (tval : Nat) : State :=
  withTile s { t with dets := t.dets ++ [{
    cause := cause, tval := BitVec.ofNat 64 tval, slot := p.slot, issue := p.issue, addr := p.addr, det := t.ct.now
    nest := t.nests p.issue }] }

/-- No bank collision was charged at issue to this op and waits for its bank cycle (R214). -/
def Sys2Proof.Safety.owesNone (t : Tile) (issue slot : Nat) : Prop := ∀ e ∈ t.owed, e.1 ≠ issue ∨ e.2.1 ≠ slot

/-- No other access of this cycle collides with these accesses of an effect (R201). -/
def Sys2Proof.Safety.meetsNone (s : State) (p : Pend) (as : List Nat) (write : Bool) : Prop :=
  s.firstClash (fun _ => true) s.tile.banks (s.tile.spUses as write p.issue p.slot p.addr false) = none

/-- The registers with one more landing: the byte lanes enabled in `be` take the value, the others stand; s0 discards it. -/
def Sys2Proof.Safety.landed (x : Ctx) (d : Dest) (v : Vec) (be : Word) (y : Ctx) : Prop :=
  let pick (old : Nat → Bool) (i : Nat) : Bool := if be.getLsbD (i / 8) then v.getLsbD i else old i
  match d with
  | .s n => (n = 0 → y = x) ∧ (n ≠ 0 → ∃ w : Word, y = { x with s := x.s.set n.toNat w n.isLt } ∧
      ∀ i, i < 64 → w.getLsbD i = pick (x.rdS n).getLsbD i)
  | .v n => ∃ w : Vec, y = { x with v := x.v.set n.toNat w n.isLt } ∧ ∀ i, i < 512 → w.getLsbD i = pick (x.vAt n).getLsbD i
  | .k n => ∃ w : Word, y = { x with k := x.k.set n.toNat w n.isLt } ∧ ∀ i, i < 64 → w.getLsbD i = pick (x.rdK n).getLsbD i
  | .q n => ∃ w : BitVec 8, y = { x with q := w } ∧
      ∀ i, i < 8 → w.getLsbD i = if i = n.toNat ∧ be.getLsbD 0 = true then v.getLsbD 0 else x.q.getLsbD i
  | .qAll => be.getLsbD 0 = true → y = { x with q := v.setWidth 8 }
  | .stream n => y = { x with a := x.a.set n.toNat { valid := true, record := v, pos := 0 } n.isLt }

/-- R36, R37, R40, R92, R139, R171: when one result lands, its enabled bytes enter its register, its flags enter XFLAGS and the
node flag set, and nothing else of the machine changes; whatever lands, a scalar that no landing names keeps its value, and
memory, the other tiles and the jobs stand. -/
def Sys2Proof.Safety.resultsLandInTheirRegisters : Prop :=
  (∀ (s : State) (r : Result) (v : Vec), let k := s.tile.ct
    k.inflight.filter (·.toRead k.now) = [] → k.inflight.filter (·.lands k.now) = [r] → r.src = .val v → r.brk = none →
    (∀ w, k.waiting = some w → w.1 ≠ r.id) → k.yAt = none →
    ∃ (x : Ctx) (set : BitVec 14), landed { k.cx with xflags := k.cx.xflags ||| r.fl.setWidth 64 } r.dest v r.be x ∧
      exec .resultLanding s = .next (withTile s { s.tile with ct := { k with
        cx := x, inflight := k.inflight.filter fun q => q.id != r.id, flags := k.flags ||| r.fl, flAt := k.now, flSet := set } })) ∧
  (∀ s : State, s.tile.ct.inflight.filter (·.toRead s.tile.ct.now) = [] →
    ∃ t, exec .resultLanding s = .next (withTile s t) ∧ t.sp = s.tile.sp ∧ t.imem = s.tile.imem ∧ t.acc = s.tile.acc ∧
      t.pend = s.tile.pend ∧ t.ct.sq = s.tile.ct.sq ∧ t.ct.now = s.tile.ct.now ∧
      ∀ n : BitVec 6, (∀ r ∈ s.tile.ct.inflight, r.lands s.tile.ct.now = true → r.dest ≠ .s n) →
        (∀ y ∈ s.tile.ct.y.toList, y.valid = true → y.dest ≠ .s n) → t.s n = s.tile.s n)

/-- R133, R214, R215: a read result whose cycle has come takes the bytes it named as the scratchpad holds them in that cycle, absent
ones as zero, sign-extended where its op asks for it; its register is not written by this. A read whose bank collision was found at
issue, and which does not race, raises that LANDING_COLLISION now and delivers nothing. -/
def Sys2Proof.Safety.readsTakeTheirBytesInTheirCycle : Prop :=
  ∀ (s : State) (r : Result) (space : MSpace) (bytes : List (Option Nat)) (sx : Option Nat), let k := s.tile.ct
    k.inflight.filter (·.toRead k.now) = [r] → k.inflight.filter (fun q => q.id == r.id) = [r] →
    r.src = .read space bytes sx ∨ (sx = none ∧ ∃ touch, r.src = .drain touch bytes) → r.y = none → (∀ n, r.dest ≠ .stream n) →
    k.cx.memcfg.getLsbD 4 = false → s.tile.sp.soft = [] → (∀ w, sx = some w → 0 < w ∧ w ≤ 64 ∧ bytes.length * 8 = w) →
    bytes.length ≤ 64 →
    (owesNone s.tile r.issue r.slot →
    ∃ v : Vec, exec .resultLanding s = .next (withTile s { s.tile with ct := { k with
        inflight := k.inflight.map fun q => if q.id = r.id then { q with src := .val v } else q } }) ∧
      let byte (i : Nat) : Byte := match bytes.getD i none with
        | some a => s.tile.spByte a
        | none => 0
      (sx = none → ∀ i, i < 512 → v.getLsbD i = (decide (i < 8 * bytes.length) && (byte (i / 8)).getLsbD (i % 8))) ∧
      (∀ w, sx = some w → ∀ i, i < 64 →
        v.getLsbD i = if i < w then (byte (i / 8)).getLsbD (i % 8) else (byte ((w - 1) / 8)).getLsbD ((w - 1) % 8))) ∧
    (∀ e rest, s.tile.owed = e :: rest → e.1 = r.issue → e.2.1 = r.slot → r.src = .read space bytes sx →
      exec .resultLanding s = .next (withTile s { s.tile with
        owed := rest
        dets := s.tile.dets ++ [{
          cause := .landingCollision, tval := BitVec.ofNat 64 e.2.2, slot := r.slot, issue := r.issue, addr := r.addr, det := k.now
          nest := s.tile.nests r.issue }]
        ct := { k with inflight := k.inflight.filter fun q => q.id != r.id } }))

/-- The byte that a store leaves at `a`: the one stored there, else what was there. -/
def Sys2Proof.Safety.storedByte (cells : List Host.Cell) (a : Nat) (old : Byte) : Byte :=
  ((cells.find? fun c => c.1 == a).map (·.2)).getD old

/-- R202, R206, R213: a scratchpad store lands on exactly its bytes, on the published copy where they are not staged and on the
shadow copy alone where they are; a store that races changes no byte and charges RACE to its op. -/
def Sys2Proof.Safety.storesLandOnTheirBytes : Prop :=
  ∀ (s : State) (p : Pend) (t : Tile) (cells : List Host.Cell), soleDue s PendKind.isSpWrite p t → p.kind = .spWrite cells →
    t.lockedWord (cells.map (·.1)) = none → owesNone t p.issue p.slot →
    (t.ct.cx.memcfg.getLsbD 4 = false → s.tile.sp.wf = true → (cells.map (·.1)).Nodup →
      ∃ u, exec .memoryWriteLanding s = .next (withTile s u) ∧ u.ct = t.ct ∧ u.imem = t.imem ∧ u.acc = t.acc ∧ u.pend = t.pend ∧
        u.dets = t.dets ∧
        ((∀ c ∈ cells, t.ct.spStaged c.1 = false ∧ t.sp.writer (t.ct.sbase + c.1) = none) →
          ∀ a, u.spByte a = storedByte cells a (t.spByte a)) ∧
        ((∀ c ∈ cells, t.ct.spStaged c.1 = true ∧
            (t.sp.writer (t.ct.sbase + c.1) = none ∨ t.sp.writer (t.ct.sbase + c.1) = some 0)) →
          (∀ a, u.spSeen a = t.spSeen a) ∧ ∀ a, u.spByte a = storedByte cells a (t.spByte a))) ∧
    (∀ v, t.spRace (cells.map (·.1)) p.phase true = some v → exec .memoryWriteLanding s = .next (found s t p .race v))

/-- A sequencer whose copies that these overlays (code address and bytes) touch are stale: those of prepared b registers, of the loop
stack and of the return stack that were read before this cycle (R141, R144). -/
def Sys2Proof.Safety.staled (os : List (Nat × List Byte)) (now : Nat) (q : Seq) : Seq :=
  let hit (b : Nat) (read : Option Nat) : Bool := read.all (· < now) &&
    os.any fun o => decide (o.1 < b / 32 * 32 + 32) && decide (b / 32 * 32 < o.1 + o.2.length)
  { q with
    b := q.b.map fun b => if (b.state = .pending ∨ b.state = .ready) ∧ hit b.target b.copyAt = true then { b with state := .stale } else b
    loops := q.loops.map fun e => { e with
      startStale := e.startStale || hit e.start e.startAt, exitStale := e.exitStale || hit e.stop none }
    rets := q.rets.map fun r => if hit r.addr r.copyAt = true then { r with state := .stale } else r }

/-- The published bytes of a space in which group `g` has published region `r`: the lines that it wrote there, and no others. -/
def Sys2Proof.Safety.publishedBy (r : Region) (g : Nat) (old new : Space) : Prop :=
  ∀ a, memGet new.pub a = if r.base ≤ a ∧ a < r.base + r.size ∧ old.writer a = some g then memGet old.shadow a else memGet old.pub a

/-- R144, R207, R268, R360, R362, R383: in a partition that is not to halt, publishing a staged region of the scratchpad, the vault or
DRAM makes the lines written in it visible to every observer and changes no byte of the node's own view; publishing the overlays
writes their bytes into IMEM, marks the copies of the code they replace stale, also in a saved trap frame, and empties the pending
list. -/
def Sys2Proof.Safety.publishingSwapsTheCopies : Prop :=
  ∀ (s : State) (p : Pend) (t : Tile) (id : Nat), s.tile.hasDue PendKind.isSpWrite = false →
    (∀ j, s.myJob = some j → s.halting j = false) → soleDue s PendKind.isPublish p t → p.kind = .publish id →
    (∀ r : Region, id ≠ 256 → t.ct.regions[id]? = some r → r.space = 0 → s.tile.sp.wf = true →
      (t.sp.lines.map (·.1)).Nodup → (t.ct.sbase + r.base) % 64 = 0 → r.size % 64 = 0 →
      ∃ u, exec .memoryWriteLanding s = .next u ∧ u.tile.ct = t.ct ∧ u.tile.imem = t.imem ∧ u.tile.acc = t.acc ∧
        u.others = s.others ∧ u.commons = s.commons ∧ (∀ a, u.tile.spByte a = t.spByte a) ∧
        ∀ a, u.tile.spSeen a = if r.base ≤ a ∧ a < r.base + r.size then t.spByte a else t.spSeen a) ∧
    (∀ (r : Region) (j : Job), id ≠ 256 → t.ct.regions[id]? = some r → s.myJob = some j → r.base % 64 = 0 → r.size % 64 = 0 →
      (r.space = 1 → j.vault.wf = true → (j.vault.lines.map (·.1)).Nodup → ∃ u k, exec .memoryWriteLanding s = .next u ∧
        u.tile = t ∧ u.others = s.others ∧ u.myJob = some k ∧ (∀ a, u.vByteAt a = s.vByteAt a) ∧
        publishedBy r (s.tile.ct.strand.getD 0) j.vault k.vault) ∧
      (r.space = 2 → j.plan = [] → j.dram.wf = true → (j.dram.lines.map (·.1)).Nodup → ∃ u k, exec .memoryWriteLanding s = .next u ∧
        u.tile = t ∧ u.others = s.others ∧ u.myJob = some k ∧ publishedBy r (s.tile.ct.strand.getD 0) j.dram k.dram)) ∧
    (id = 256 → memWf t.imem = true → ∃ (u : State) (m : Mem), exec .memoryWriteLanding s = .next u ∧ u.others = s.others ∧
      u.tile = { t with imem := m, ct := { t.ct with
        overlays := [], sq := staled t.ct.overlays t.ct.now t.ct.sq
        trap := t.ct.trap.map fun v => { v with seq := staled t.ct.overlays t.ct.now v.seq } } } ∧
      ∀ a, memGet m a = t.ct.overlays.foldl (fun old o => if t.ct.ibase * 1024 + o.1 ≤ a then o.2.getD (a - (t.ct.ibase * 1024 + o.1)) old
        else old) (memGet t.imem a))

/-- The accesses of this cycle meet at no vault bank: at most one of the partition's tiles has one that no bank has looked at. -/
def Sys2Proof.Safety.aloneAtBanks (s : State) : Prop :=
  ((s.tiles.filter (·.ct.pid == s.tile.ct.pid)).flatMap (·.freshUses)).length < 2

/-- R283, R285-R287: in its bank cycle a vault write of the partition's share reaches its bytes and no other, and counts the errors that
it corrects; a vault read takes the bytes that stand there; the tile keeps its registers. -/
def Sys2Proof.Safety.vaultBanksServeTheirAccesses : Prop :=
  ∀ (s : State) (p : Pend) (t : Tile) (j : Job), s.myJob = some j → aloneAtBanks s → t.ct.cx.memcfg.getLsbD 4 = false →
    (∀ cells, soleDue s PendKind.isVaultWrite p t → p.kind = .vaultWrite cells → j.vault.wf = true →
      (cells.map (·.1)).Nodup → (∀ c ∈ cells, vStaged t.ct.regions c.1 = false ∧ j.vault.writer c.1 = none) →
      ∃ u, exec .vaultBankAccess s = .next u ∧ u.tile = { t with corrected := t.corrected + j.vMerged t.ct.regions cells } ∧
        u.others = s.others ∧ u.commons = s.commons ∧ ∀ a, u.vByteAt a = storedByte cells a (s.vByteAt a)) ∧
    (∀ id a n sx r, s.tile.hasDue PendKind.isVaultWrite = false → soleDue s PendKind.isVaultRead p t →
      p.kind = .vaultRead id a n sx → j.vault.soft = [] → t.ct.inflight.filter (fun q => q.id == id) = [r] → r.y = none →
      ∃ (v : Vec) (u : State), exec .vaultBankAccess s = .next u ∧ u.others = s.others ∧ u.commons = s.commons ∧
        u.tile = { t with ct := { t.ct with
          inflight := t.ct.inflight.map fun q => if q.id = id then { q with src := .val v } else q } } ∧
        (∀ b, u.vByteAt b = s.vByteAt b) ∧
        (sx = none → n ≤ 64 → ∀ i, i < 512 →
          v.getLsbD i = (decide (i < 8 * n) && (s.vByteAt (a + i / 8)).getLsbD (i % 8))) ∧
        (∀ w, sx = some w → 0 < w → w ≤ 64 → 8 * n = w → ∀ i, i < 64 → v.getLsbD i =
          if i < w then (s.vByteAt (a + i / 8)).getLsbD (i % 8) else (s.vByteAt (a + (w - 1) / 8)).getLsbD ((w - 1) % 8)))

/-- What an atomic of `n` bytes leaves where `old` stood; none where it writes nothing (R294). -/
def Sys2Proof.Safety.atomicLeaves (op : AtomOp) (n old x y : Nat) : Option Nat :=
  match op with
  | .add => some ((old + x) % 2 ^ (8 * n))
  | .max => some (if old < x then x else old)
  | .swap => some x
  | .or => some (old ||| x)
  | .cas => if old = x then some y else none

/-- A pair that is valid and unbroken (R367). -/
def Sys2Proof.Safety.livePair (w0 : Nat) : Bool := w0 / 2 ^ 62 % 4 = 2

/-- What the window of a barrier op leaves of a pair with words `w0` and `w1`, and the status it gives (R368-R372). -/
def Sys2Proof.Safety.pairRule (op : BarOp) (w0 w1 : Nat) (x : Word) : PairRes :=
  let phase := w0 % 2 ^ 12
  let remain := w0 / 2 ^ 12 % 2 ^ 20
  let reload := w0 / 2 ^ 32 % 2 ^ 20
  let marks := w0 / 2 ^ 62 * 2 ^ 62
  let word (p m : Nat) : Nat := p + m * 2 ^ 12 + w0 / 2 ^ 32 * 2 ^ 32
  let after (m : Nat) (bytes : Int) : PairRes :=
    let b := (BitVec.ofInt 64 bytes).toNat
    if m = 0 ∧ bytes ≤ 0 then { w0 := word ((phase + 1) % 4096) reload, w1 := b, advanced := true } else { w0 := word phase m, w1 := b }
  match op with
  | .binit => { w0 := (if w0 / 2 ^ 63 % 2 = 1 then phase else 0) + x.toNat % 2 ^ 20 * 2 ^ 12 + x.toNat % 2 ^ 20 * 2 ^ 32 + 2 ^ 63, w1 := 0 }
  | .barv =>
    if livePair w0 = false then { w0 := w0, w1 := w1, status := phase + marks }
    else if remain = 0 then { w0 := w0, w1 := w1, status := phase + 2 ^ 13 + marks }
    else
      let r := after (remain - 1) (BitVec.ofNat 64 w1).toInt
      { r with status := r.w0 % 2 ^ 12 + (if r.advanced then 2 ^ 12 else 0) + marks }
  | .bwait => { w0 := w0, w1 := w1 }
  | .bbytes =>
    if livePair w0 = false then { w0 := w0, w1 := w1 }
    else after remain (max (-2 ^ 63) (min (2 ^ 63 - 1) ((BitVec.ofNat 64 w1).toInt - x.toInt)))

/-- Does a wait for phase `a` end on a pair with this word 0, and the status it then gives (R368, R373)? -/
def Sys2Proof.Safety.waitOver (w0 a : Nat) : Bool := !livePair w0 || decide ((w0 % 2 ^ 12 + 4096 - a) % 4096 < 2048)
def Sys2Proof.Safety.waitStatus (w0 a : Nat) : Word := BitVec.ofNat 64 (w0 % 2 ^ 12 +
  (if livePair w0 = true ∧ (w0 % 2 ^ 12 + 4096 - a) % 4096 < 2048 then 2 ^ 12 else 0) + w0 / 2 ^ 62 * 2 ^ 62)

/-- The `n` bytes that a window reads at `a`, in the vault or in the scratchpad. -/
def Sys2Proof.Safety.windowReads (vault : Bool) (s : State) (a n : Nat) : Nat :=
  if vault then ofBytes ((List.range n).map fun i => s.vByteAt (a + i)) else s.tile.spNat a n

/-- Between `s` and `u` a window has changed its own tile alone. -/
def Sys2Proof.Safety.onlyItsTile (vault : Bool) (s u : State) : Prop :=
  u.others = s.others ∧ u.commons = s.commons ∧ u.arms = s.arms ∧ (∀ b, u.vByteAt b = s.vByteAt b) ∧ (vault = false → u = withTile s u.tile)

/-- The result numbered `id` has its value, and so has the log entry that waits for it (R259). -/
def Sys2Proof.Safety.valueGiven (k : Context) (id : Nat) (v : Word) : Context := { k with
  inflight := k.inflight.map fun q => if q.id = id then { q with src := .val (v.setWidth 512) } else q
  log := k.log.map fun e => if e.id = id ∧ e.value = none then { e with value := some v } else e }

/-- R294, R368-R373: the window of an atomic, in the scratchpad or the vault, delivers the word as it stands, logs it, and leaves its
new value to land two cycles on; the window of BINIT, BARV and BBYTES delivers the pair's status, logs it and leaves the pair, with
the wake of an advance; a BWAIT on a pair that is broken, invalid or at its phase ends there with its status and no write, one that
finds the bank's 64 entries full ends with TIMEOUT, and else it arms. The write of a window lands on its bytes and wakes the waits
that its advance ends. -/
def Sys2Proof.Safety.windowsReadThenWrite : Prop :=
  (∀ (s : State) (p : Pend) (t : Tile) (vault : Bool) (id a n : Nat) (op : AtomOp) (x y : Word) (r : Result),
    let space : MSpace := if vault then .vault else .sp
    aloneAtBanks s → soleDue s PendKind.isAtomic p t → p.kind = .atomic id space a n op x y →
    t.ct.cx.memcfg.getLsbD 4 = false → owesNone t p.issue p.slot → t.sp.soft = [] → (∀ j, s.myJob = some j → j.vault.soft = []) →
    (vault = true → s.myJob ≠ none) → t.ct.inflight.filter (fun q => q.id == id) = [r] → r.y = none → n ≤ 8 →
    let old := windowReads vault s a n
    ∃ u, exec .atomicWindow s = .next u ∧ onlyItsTile vault s u ∧ u.tile = { t with
      pend := t.pend ++ ((atomicLeaves op n old x.toNat y.toNat).map fun v =>
        { p with due := t.ct.now + 2, kind := .outWrite space (cellsAt a (bytesOf n v)) }).toList
      ct := valueGiven t.ct id (BitVec.ofNat 64 old) }) ∧
  (∀ (s : State) (p : Pend) (t : Tile) (vault : Bool) (id a : Nat) (op : BarOp) (x : Word),
    let space : MSpace := if vault then .vault else .sp
    aloneAtBanks s → soleDue s PendKind.isBarrier p t → p.kind = .barrier id space a op x → op ≠ .bwait → t.sp.soft = [] →
    (∀ j, s.myJob = some j → j.vault.soft = []) → (∀ r ∈ t.ct.inflight, r.id = id → r.y = none) →
    let r := pairRule op (windowReads vault s a 8) (windowReads vault s (a + 8) 8) x
    let wake := if r.advanced then some (if vault then t.ct.pid else t.ltid, if vault then a else t.ct.sbase + a, r.w0) else none
    ∃ u, exec .barrierWindow s = .next u ∧ onlyItsTile vault s u ∧ u.tile = { t with
      ct := valueGiven t.ct id (BitVec.ofNat 64 r.status)
      pend := t.pend ++ [{ p with due := t.ct.now + 2, kind := .outWrite space (cellsAt a (bytesOf 8 r.w0 ++ bytesOf 8 r.w1)) wake }] }) ∧
  (∀ (s : State) (p : Pend) (t : Tile) (vault : Bool) (id a : Nat) (x : Word),
    let space : MSpace := if vault then .vault else .sp
    aloneAtBanks s → soleDue s PendKind.isBarrier p t → p.kind = .barrier id space a .bwait x → t.sp.soft = [] →
    (∀ j, s.myJob = some j → j.vault.soft = []) → (∀ r ∈ t.ct.inflight, r.id = id → r.y = none) → (∀ v ∈ s.others, v.ltid ≠ t.ltid) →
    let w0 := windowReads vault s a 8
    let h := if vault then s.vHops a else 0
    let owner := if vault then t.ct.pid else t.ltid
    let addr := if vault then a else t.ct.sbase + a
    let full := 64 ≤ (s.arms.filter fun b => b.space == space && b.owner == owner &&
      b.bank == if vault then vaultBank a else addr / 8 % 384).length
    let ends (v : Word) : Prop := ∃ u, exec .barrierWindow s = .next u ∧ onlyItsTile vault s u ∧ u.tile.ct = valueGiven t.ct id v ∧
      u.tile.sp = t.sp ∧ u.tile.pend = t.pend
    (waitOver w0 (x.toNat % 4096) = true → ends (waitStatus w0 (x.toNat % 4096))) ∧
    (waitOver w0 (x.toNat % 4096) = false → full → ends (waitStatus w0 (x.toNat % 4096) + BitVec.ofNat 64 (2 ^ 14))) ∧
    (waitOver w0 (x.toNat % 4096) = false → ¬full → ∃ u, exec .barrierWindow s = .next u ∧ u.tile = t ∧ u.others = s.others ∧
      u.arms = s.arms ++ [{
        space := space, owner := owner, addr := addr, phase := BitVec.ofNat 12 (x.toNat % 4096), ltid := t.ltid, pid := t.ct.pid, id := id
        deadline := p.issue + (if vault then 10 + 2 * h else 4) + x.toNat / 2 ^ 32, hops := h, issue := p.issue
        status := waitStatus w0 (x.toNat % 4096) }])) ∧
  (∀ (s : State) (p : Pend) (t : Tile) (cells : List Host.Cell) (wake : Option (Nat × Nat × Nat)),
    soleDue s PendKind.isSpWrite p t → p.kind = .outWrite .sp cells wake → t.lockedWord (cells.map (·.1)) = none →
    (∀ c ∈ cells, t.ct.spStaged c.1 = false ∧ t.sp.writer (t.ct.sbase + c.1) = none) → s.tile.sp.wf = true → (cells.map (·.1)).Nodup →
    ∃ u, exec .memoryWriteLanding s = .next u ∧ u.tile.ct = t.ct ∧ u.tile.dets = t.dets ∧ u.others = s.others ∧
      (∀ a, u.tile.spByte a = storedByte cells a (t.spByte a)) ∧ u.arms = s.arms.map fun b =>
        match wake with
        | some (o, at_, w0) =>
          if b.space = .sp ∧ b.owner = o ∧ b.addr = at_ ∧ b.woken = none ∧ waitOver w0 b.phase.toNat = true then
            { b with woken := some (waitStatus w0 b.phase.toNat, t.ct.now + 3) } else b
        | none => b)

/-- R373: the one wait whose wake has reached the tile takes its status and leaves the armed list; the one whose deadline
has passed takes TIMEOUT with the status its window found; the other waits and everything else stand. -/
def Sys2Proof.Safety.armedWaitsEnd : Prop :=
  ∀ (s : State) (a : Arm) (r : Result), s.tile.ct.inflight.filter (fun q => q.id == a.id) = [r] → r.y = none →
    let ends (v : Word) (arms : List Arm) : State := { withTile s { s.tile with ct := { s.tile.ct with
        inflight := s.tile.ct.inflight.map fun q =>
          if q.id = a.id then { q with due := s.tile.ct.now, src := .val (v.setWidth 512) } else q } } with arms := arms }
    (∀ v c, s.arms.filter (s.armWakes s.tile) = [a] → a.woken = some (v, c) → s.tile.ct.waitGone = false →
      exec .bwaitWake s = .next (ends v (s.arms.filter fun b => !s.armWakes s.tile b))) ∧
    (s.arms.filter (·.expired s.tile) = [a] →
      exec .bwaitTimeout s = .next (ends (a.status + BitVec.ofNat 64 (2 ^ 14))
        (s.arms.filter fun b => !b.expired s.tile)))

/-- R374, R373: BROKEN is set in a pair that the job registered, or that is still to be broken for its partition, no other byte of its
commons changes, and the waits armed on it end with its status 278 cycles on. -/
def Sys2Proof.Safety.brokenPairsWakeTheirWaits : Prop :=
  ∀ (s : State) (pid cid b : Nat) (c : Commons), s.common? cid = some c → memWf c.mem = true →
    (s.jobs.filter fun j => j.pid == pid && j.state != .waiting && j.state != .ended).flatMap (·.pairs) ++
      s.breaksOf pid = [(cid, b)] →
    let w := memNat c.mem b 8 ||| 2 ^ 62
    ∃ (t : State) (m : Mem), exec (.barrierBreak pid) s = .next t ∧ t.tile = s.tile ∧ t.others = s.others ∧
      t.common? cid = some { c with mem := m, breaks := c.breaks.filter (·.1 != pid) } ∧ memNat m b 8 = w ∧
      (∀ a, a < b ∨ b + 8 ≤ a → memGet m a = memGet c.mem a) ∧
      t.arms = s.arms.map fun a =>
        if a.space = .commons ∧ a.owner = cid ∧ a.addr = b ∧ a.woken = none then
          { a with woken := some (BitVec.ofNat 64 (pairStatus w), s.wcyc + 278) } else a

/-- R291, R365: the request of a commons whose slot has come acts on it: a store changes its bytes and no other, a load gives the
tile that asks the bytes as they stand, PUBIDX raises its register to the greater value. -/
def Sys2Proof.Safety.commonsServeTheirSlots : Prop :=
  ∀ (s : State) (c : Commons) (r : CReq),
    (s.commons.findSome? fun c => (c.queue.find? (·.slotDue s.wcyc)).map fun r => (c, r)) = some (c, r) →
    s.common? c.cid = some c → c.soft = [] → memWf c.mem = true → memWf c.value = true →
    r.ltid = s.tile.ltid → r.pid = s.tile.ct.pid → s.tile.ct.cx.memcfg.getLsbD 4 = false → (r.byte + r.n ≤ 0xFFFF00 ∧ 0 < r.n) ∨ r.kind = 4 →
    let served := c.queue.map fun q => if { q with raced := r.raced } = r then { q with served := true } else q
    (r.kind = 1 → r.bytes.length = r.n → ∃ (t : State) (m : Mem), exec .commonsSlotService s = .next t ∧ t.tile = s.tile ∧
      t.others = s.others ∧ t.jobs = s.jobs ∧ t.common? c.cid = some { c with mem := m, queue := served } ∧
      ∀ a, memGet m a = if r.byte ≤ a ∧ a < r.byte + r.n then r.bytes.getD (a - r.byte) 0 else memGet c.mem a) ∧
    (∀ q, r.kind = 0 → r.x = 0 → s.tile.ct.inflight.filter (fun q => q.id == r.id) = [q] → q.y = none →
      ∃ t, exec .commonsSlotService s = .next t ∧ t.tile.ct.cx = s.tile.ct.cx ∧
        t.common? c.cid = some { c with queue := served } ∧
        t.tile.ct.inflight = s.tile.ct.inflight.map fun q =>
          if q.id = r.id then { q with src := .val (BitVec.ofNat 512 (memNat c.mem r.byte r.n)) } else q) ∧
    (r.kind = 4 → ∃ (t : State) (d : Commons), exec .commonsSlotService s = .next t ∧ t.tile = s.tile ∧
      t.common? c.cid = some { d with queue := served } ∧ d.mem = c.mem ∧
      let i := (r.byte - 0xFFFF00) / 8
      ∀ n, memGet d.value n = if n = i ∧ memGet c.value i < r.x then r.x else memGet c.value n)

/-- R291, R355, R376: a commons access that did not complete in time charges MISSED_PROMISE to its op and counts against the node; the
third miss of a node decides the end of the job with status 22. A race that an access met while its context was out is charged to it
when the context is back. -/
def Sys2Proof.Safety.missedPromisesAreCounted : Prop :=
  (∀ (s : State) (r : CReq) (v : Nat), (s.commons.flatMap (·.queue)).filter (·.toRaise s.tile) = [r] → r.raced = some v →
    (∀ c ∈ s.commons, ∀ q ∈ c.queue, q.late s.tile s.wcyc = false) → ∃ t, exec .missedPromise s = .next t ∧ t.others = s.others ∧
      t.jobs = s.jobs ∧ t.tile = { s.tile with dets := s.tile.dets ++ [{
        cause := .race, tval := BitVec.ofNat 64 v, slot := 2, issue := r.issue, addr := r.addr, det := s.tile.ct.now
        nest := s.tile.nests r.issue }] }) ∧
  ∀ (s : State) (c : Commons) (r : CReq) (j : Job), s.myJob = some j → (∀ d ∈ s.commons, ∀ q ∈ d.queue, q.toRaise s.tile = false) →
    (s.commons.findSome? fun c => (c.queue.find? (·.late s.tile s.wcyc)).map fun r => (c, r)) = some (c, r) →
    ∃ (t : State) (k : Job), exec .missedPromise s = .next t ∧ t.others = s.others ∧ t.myJob = some k ∧
      t.tile = { s.tile with dets := s.tile.dets ++ [{
        cause := .missedPromise, tval := BitVec.ofNat 64 (2 ^ 63 + 2 ^ 37 + c.cid * 2 ^ 24 + r.byte), slot := 2
        issue := r.issue, addr := r.addr, det := s.tile.ct.now, nest := s.tile.nests r.issue }] } ∧
      Cause.cls .missedPromise = .replay ∧
      k.misses s.tile.ct.node = j.misses s.tile.ct.node + 1 ∧
      (∀ n, n ≠ s.tile.ct.node → k.misses n = j.misses n) ∧
      k.ending = if 2 ≤ j.misses s.tile.ct.node then
          (j.ending.orElse fun _ => some (j.ref + treeDelay j.width j.height, 0x22, 0, [])) else j.ending

/-- R277, R279, R280: a beat whose tag is the low four bits of the receiver's DCYC copy enters the landing buffer of its lane, and
one whose tag differs raises CHANNEL_TAG and enters nothing; an entry still there four cycles on is dropped and counted. -/
def Sys2Proof.Safety.channelEntriesComeAndGo : Prop :=
  ∀ s : State, let now := s.tile.ct.now
    (∀ b, s.tile.beats.filter (fun b => decide (b.at_ ≤ now)) = [b] →
      let rest := s.tile.beats.filter fun b => !decide (b.at_ ≤ now)
      let own := (BitVec.ofInt 64 (now + (s.quad s.tile.quadIndex).skewOf s.tile.ct.pid)).toNat % 16
      (b.tag.toNat = own → exec .channelArrival s = .next (withTile s { s.tile with
        beats := rest, landing := s.tile.landing ++ [(b.lane, b.at_, b.data)] })) ∧
      (b.tag.toNat ≠ own → exec .channelArrival s = .next (withTile s { s.tile with
        beats := rest, dets := s.tile.dets ++ [{
          cause := .channelTag, tval := BitVec.ofNat 64 (b.lane + b.tag.toNat * 2 ^ 4 + own * 2 ^ 8), slot := 2, issue := now
          addr := s.tile.ct.sq.pc, det := now, nest := s.tile.nests now }] }))) ∧
    exec .channelEntryDrop s = .next (withTile s { s.tile with
      landing := s.tile.landing.filter fun e => decide (now < e.2.1 + 4)
      drops := s.tile.drops + (s.tile.landing.filter fun e => decide (e.2.1 + 4 ≤ now)).length })

/-- R210, R234, R235: a group that meets no other access writes the plane's format tag, its scale entries and its 64 bytes, where they
are in range and no multiply uses their words, and no byte of another line; registers and accumulator stand. -/
def Sys2Proof.Safety.planeWrites : Prop :=
  ∀ (s : State) (p : Pend) (t : Tile) (dst g cfg : Nat) (tag : BitVec 2) (bytes : List Byte) (scales : List (BitVec 16)),
    soleDue s PendKind.isPlaneWrite p t → p.kind = .planeWrite dst g cfg tag bytes scales →
    let at_ (i : Nat) : Nat := loadByte (cfg % 2 ^ 7) dst (64 * g + i)
    bytes.length = 64 → scales.length ≤ 4 → memWf t.scales = true → meetsNone (withTile s t) p (((List.range 64).map at_).filter (!t.ct.spOut ·)) true →
    ∃ u, exec .cimPlaneWrite s = .next u ∧ u.tile.ct = t.ct ∧ u.tile.acc = t.acc ∧ u.tile.pend = t.pend ∧
      (∀ n, n < 16 → u.tile.tags[n]? = if n = dst + 64 * g / 24576 then some tag else t.tags[n]?) ∧
      (∀ m, memGet u.tile.scales m = let i := m - (dst * 1536 + 4 * g)
        if dst * 1536 + 4 * g ≤ m ∧ i < scales.length then scales.getD i 0 else memGet t.scales m) ∧
      (∀ a, (∀ i, i < bytes.length → (t.ct.sbase + at_ i) / 64 ≠ (t.ct.sbase + a) / 64) → t.ct.cx.memcfg.getLsbD 4 = false →
        u.tile.spByte a = t.spByte a) ∧
      (t.ct.cx.memcfg.getLsbD 4 = false → t.sp.wf = true → t.sp.lines = [] → t.lockedWord ((List.range 64).map at_) = none →
        owesNone t p.issue p.slot → (∀ i, i < 64 → t.ct.spOut (at_ i) = false) → (∀ a, t.ct.spStaged a = false) → ∀ i, i < 64 → u.tile.spByte (at_ i) = bytes.getD i 0)

/-- R93, R106, R236: the adds of a slice go into the cells of their row, each taking its four partials in order, and into no other;
the end of a command raises its flags, or traps: with the lowest enabled binary exception and its lowest row, else with ACC_SAT and
the cell that saturated. -/
def Sys2Proof.Safety.slicesAdd : Prop :=
  (∀ (s : State) (p : Pend) (t : Tile) (row : Nat) (am : Word) (parts : List (List (Option (Int × Int)))),
    soleDue s PendKind.isAdd p t → p.kind = .cimAdd row am parts → parts.length ≤ 384 → memWf t.acc = true →
    ∃ u, exec .cimAccumulateAdd s = .next (withTile s u) ∧ u.ct = t.ct ∧ u.sp = t.sp ∧ u.dets = t.dets ∧
      ∀ r c, c < 384 → memGet u.acc (r * 384 + c) =
        if r = row ∧ c < parts.length then
          ((parts.getD c []).foldl (addPartial am.toNat) { cell := memGet t.acc (r * 384 + c) }).cell
        else memGet t.acc (r * 384 + c)) ∧
  (∀ (s : State) (p : Pend) (t : Tile) (te : Word) (fl : List Nat) (sat : Option (Nat × Nat)),
    soleDue s PendKind.isAdd p t → p.kind = .cimEnd te fl sat → (∀ f ∈ fl, f < 32) →
    (∀ (n : Fin 5) (l : Nat), (bit (fl.getD l 0) n.val && bit te.toNat n.val) = true → (∀ i, i < l → bit (fl.getD i 0) n.val = false) →
      (∀ m, m < n.val → ∀ f ∈ fl, (bit f m && bit te.toNat m) = false) →
      exec .cimAccumulateAdd s = .next (found s t p (.binary n) (l + fl.foldl (· ||| ·) 0 * 2 ^ 8))) ∧
    ((∀ f ∈ fl, ∀ n, n < 5 → bit f n = true → bit te.toNat n = false) →
      (∀ r c, sat = some (r, c) → bit te.toNat 13 = true → exec .cimAccumulateAdd s = .next (found s t p .accSat (r + c * 2 ^ 6))) ∧
      (sat = none ∨ bit te.toNat 13 = false →
        ∃ u, exec .cimAccumulateAdd s = .next (withTile s u) ∧ u.acc = t.acc ∧ u.dets = t.dets ∧ u.pend = t.pend ∧
          (∀ n, n < 5 → u.ct.cx.xflags.getLsbD n = (t.ct.cx.xflags.getLsbD n || fl.any (bit · n))) ∧
          u.ct.cx.xflags.getLsbD 13 = (t.ct.cx.xflags.getLsbD 13 || sat.isSome))))

/-- The element at place `j` of a walk, of `n` bytes: zero where it is absent or out of range (R210, R221). -/
def Sys2Proof.Safety.element (t : Tile) (st : Stream) (j n : Nat) : Nat := if j < recN st.record then t.spRead (recAddr st.record j) n else 0

/-- R219, R230, R235: a group of a plane load is read in its bank cycle, absent elements as zero, with four scale entries in plane
order; one cycle on, or nine for CLOADBQ, it is to be written with the stream's format tag, and the next is to be read; under CLOADBQ
the quad's tiles that issued the same load are to write the same group to their own planes. -/
def Sys2Proof.Safety.planesAreRead : Prop :=
  ∀ (s : State) (p : Pend) (t : Tile) (vault : Bool) (dst cnt g : Nat) (st : Stream) (cfg : Nat),
    soleDue s PendKind.isStream p t → p.kind = .planeRead vault dst cnt g st cfg →
    let u0 := withTile s t
    let off := if vault then cfg / 2 ^ 16 % 32 * 2 ^ 19 else 0
    let value (a n : Nat) : Nat :=
      if vault then (if u0.quadVaultOk a n then windowReads true u0 (u0.quadVault a) n else 0) else t.spRead a n
    let byte (i : Nat) : Byte := BitVec.ofNat 8
      (if st.pos + 64 * g + i < recN st.record then value (off + recAddr st.record (st.pos + 64 * g + i)) 1 else 0)
    let scale (i : Nat) : BitVec 16 := BitVec.ofNat 16 (if st.pos + 64 * g < recN st.record then
      value (BitVec.ofInt 64 ((off + recSbase st.record : Nat) + ((4 * g + i : Nat) : Int) * recSstride st.record)).toNat 2 else 0)
    let write (c : Nat) : PendKind :=
      .planeWrite dst g c (BitVec.ofNat 2 (recFmt st.record - 13)) ((List.range 64).map byte) ((List.range 4).map scale)
    ∃ u, exec .engineStreamAccess s = .next u ∧ (vault = false → u.others = s.others) ∧ (u.tile.dets = t.dets →
      u.tile.pend = t.pend ++ [{ p with due := t.ct.now + (if vault then 9 else 1), kind := write cfg }] ++
        if g + 1 < 384 * cnt then [{ p with due := t.ct.now + 1, kind := .planeRead vault dst cnt (g + 1) st cfg }] else []) ∧
      (vault = true → u.others.map (·.dets) = s.others.map (·.dets) → u.others.length = s.others.length ∧
        ∀ (i : Nat) (v w : Tile), s.others[i]? = some v → u.others[i]? = some w →
          (¬(v.ltid / 4 = t.ltid / 4 ∧ v.sameGroup t = true) → w.pend = v.pend) ∧
          (v.ltid / 4 = t.ltid / 4 → v.sameGroup t = true → ∀ q c, q.issue = p.issue → q.kind = .planeJoin dst cnt c →
            (∀ r ∈ v.pend, ∀ c, r.issue = p.issue → r.kind = .planeJoin dst cnt c → r = q) → q ∈ v.pend →
            w.pend = v.pend ++ [{ q with due := t.ct.now + 9, kind := write c }]))

/-- The exact sum P_k of the products of two blocks, and its exponent; nothing for a NaN block (R105). -/
def Sys2Proof.Safety.partialOf (wa wb : Nat) (x y : Block) : Option (Int × Int) :=
  if x.x = 255 ∨ y.x = 255 then none
  else some (((List.range 16).map fun i =>
      let a := x.els.getD i (false, 0)
      let b := y.els.getD i (false, 0)
      (if a.1 = b.1 then 1 else -1) * ((a.2 * b.2 * 2 ^ (2 - (x.d.getD (i / 2) false).toNat - (y.d.getD (i / 2) false).toNat) : Nat) : Int)).sum,
    ((x.x : Int) - 127 - ((wa : Int) - 1)) + ((y.x : Int) - 127 - ((wb : Int) - 1)) - 2)

/-- R105, R219, R236-R238: a slice of a multiply takes its A elements, 64 at once or in four reads of 16 weight pairs, forms its four
blocks, and asks for the adds, W + 3 cycles after it began, of the partial of each with its plane's block in each column; the next
slice is to be read W cycles after it began. -/
def Sys2Proof.Safety.slicesAreFormed : Prop :=
  ∀ (s : State) (p : Pend) (t : Tile) (r : CimRun) (sl part : Nat) (got : List Nat),
    soleDue s PendKind.isStream p t → p.kind = .cimSlice r sl part got → t.ct.cx.memcfg.getLsbD 4 = false → 0 < r.wa →
    let first := r.strm.pos + r.rows.getD (sl / r.planes) 0 * (64 * r.planes) + 64 * (sl % r.planes)
    let pair (i : Nat) : Nat := element t r.strm (first + 16 * part + i) 4
    let goes (ps : List Pend) : Prop := ∃ u, exec .engineStreamAccess s = .next u ∧ u.others = s.others ∧
      (u.tile.dets = t.dets → u.tile.pend = t.pend ++ ps)
    (r.pip = true → part < 3 → goes [{ p with due := t.ct.now + 1, kind := .cimSlice r sl (part + 1) (got ++ (List.range 16).map pair) }]) ∧
    (part = (if r.pip then 3 else 0) → got.length = (if r.pip then 48 else 0) →
      let start := if r.pip then t.ct.now - 3 else t.ct.now
      let scale (k : Nat) : Nat := if first + 16 * k < recN r.strm.record then t.spRead (recScale r.strm.record (first + 16 * k)) 2 else 0
      let a (k : Nat) : Block :=
        if r.pip then (bqForm r.wa ((List.range 16).map fun i => let j := first + 16 * k + i
          if j < recN r.strm.record then perturbed r.key (r.ctr + j) ((got ++ (List.range 16).map pair).getD (16 * k + i) 0) else 0)).1
        else bqRead r.wa ((List.range 16).map fun i => element t r.strm (first + 16 * k + i) 1) (scale k)
      ∃ parts : List (List (Option (Int × Int))), parts.length = 384 ∧
        (∀ n, n < 384 → parts[n]? = some ((List.range 4).map fun k => let b := t.planeBlock r.baseRow (sl % r.planes) n k
          partialOf r.wa b.1 (a k) b.2)) ∧
        goes ([{ p with due := start + r.w + 3, kind := .cimAdd (r.row0 + sl / r.planes) r.accmode parts }] ++
          if sl + 1 < r.rows.length * r.planes then [{ p with due := start + r.w, kind := .cimSlice r (sl + 1) 0 [] }] else []))

/-- What a group of `n` stores of `z` bytes at place `j` of a walk leaves to land two cycles on: the first out of range to be recorded, and
the bytes of those in range. -/
def Sys2Proof.Safety.groupStored (t : Tile) (p : Pend) (st : Stream) (j n z : Nat) (val : Nat → Nat) : List Pend :=
  let is_ := (List.range n).filter fun i => j + i < recN st.record
  let at_ (i : Nat) : Nat := recAddr st.record (j + i)
  let cells := (is_.filter fun i => !t.ct.spOutRange (at_ i) z).flatMap fun i => cellsAt (at_ i) (bytesOf z (val i))
  ((is_.find? fun i => t.ct.spOutRange (at_ i) z).map fun i => { p with due := t.ct.now + 2, kind := .engineOut (at_ i) }).toList ++
    if cells = [] then [] else [{ p with due := t.ct.now + 2, kind := .spWrite cells }]

/-- R210, R239, R247: a group of CACCST takes its cells as they stand, 16 rounded to single or 8 as 64-bit integers, and is to land
two cycles on with its flags, or as a trap that stores nothing; a group of DXST takes the next elements of the register read at its
issue. -/
def Sys2Proof.Safety.groupsAreStored : Prop :=
  ∀ (s : State) (p : Pend) (t : Tile), soleDue s PendKind.isStream p t →
    let goes (ps : List Pend) : Prop := ∃ u, exec .engineStreamAccess s = .next u ∧ u.others = s.others ∧ u.tile.acc = t.acc ∧
      u.tile.sp = t.sp ∧ (u.tile.dets = t.dets → u.tile.pend = t.pend ++ ps)
    (∀ row rows g st am te, p.kind = .accStore row rows g st am te →
      let single : Bool := recFmt st.record == 10
      let n := if single then 16 else 8
      let cell (i : Nat) : BitVec 48 := memGet t.acc (row * 384 + (n * g + i))
      let res (i : Nat) : FRes := if single then readCell am.toNat (cell i) else ⟨((cell i).signExtend 64).toNat, 0⟩
      let fls := (List.range n).map fun i => (res i).fl
      let all := fls.foldl (· ||| ·) 0
      let next : List Pend := if (g + 1) * n < 384 * rows then
        [{ p with due := t.ct.now + 1, kind := .accStore row rows (g + 1) st am te }] else []
      let flags (trap : Option (Cause × Nat)) : List Pend :=
        if all = 0 then [] else [{ p with due := t.ct.now + 2, kind := .accFlags all trap }]
      (∀ e, arithTrap te.toNat fls = some e → goes (next ++ flags (some e))) ∧
      (arithTrap te.toNat fls = none → goes (next ++ flags none ++
        groupStored t p st (st.pos + n * g) n (recZ st.record) fun i => (res i).val))) ∧
    (∀ g st vals, p.kind = .xStore g st vals → let n := 64 / recZ st.record; n ≤ vals.length →
      goes ((if n < vals.length then [{ p with due := t.ct.now + 1, kind := .xStore (g + 1) st (vals.drop n) }] else []) ++
        groupStored t p st (st.pos + n * g) n (recZ st.record) fun i => vals.getD i 0))

/-- R230, R247: a group of DXLD read in its bank cycle gives its elements to its op's landing and asks for the next group, until the
last; no byte of memory changes. -/
def Sys2Proof.Safety.groupsAreRead : Prop :=
  ∀ (s : State) (p : Pend) (t : Tile) (x : BitVec 3) (g : Nat) (st : Stream),
    soleDue s PendKind.isStream p t → p.kind = .xRead x g st → t.ct.cx.memcfg.getLsbD 4 = false →
    let z := recZ st.record
    let as := (walk st (st.pos + 64 / z * g) (64 / z)).filterMap id
    meetsNone (withTile s t) p (t.spReached as z) false →
    let vals := (List.range (64 / z)).map fun i =>
      let n := st.pos + 64 / z * g + i
      if n < recN st.record then t.spRead (recAddr st.record n) z else 0
    ∃ u, exec .engineStreamAccess s = .next u ∧ (∀ a, u.tile.spByte a = t.spByte a) ∧ u.tile.ct.inflight = t.ct.inflight ∧
      u.tile.pend = t.pend.map (fun q => match q.kind with
        | .xLoad y k got => if q.issue = p.issue ∧ y = x then { q with kind := .xLoad y k (got ++ vals) } else q
        | _ => q) ++
        if g + 1 < (if z = 8 then 8 else 16) then [{ p with due := t.ct.now + 1, kind := .xRead x (g + 1) st }] else []

/-- R245-R250: a DMMA lands its cells on x, each one rounding of its cell and the products of its row and column, of a check cell with
the predicted sums, or traps and leaves x; DXZ empties x; DXLD fills its data cells with the elements read and each check cell with
one rounding of its exact sum; DXFIX rewrites its one cell; an unrepairable pattern raises CHECKSUM with its masks. Only x changes. -/
def Sys2Proof.Safety.denseLandings : Prop :=
  (∀ (s : State) (p : Pend) (t : Tile) (x : BitVec 3) (ty : Nat) (a b : Vec) (te : Word),
    soleDue s PendKind.isDmma p t → p.kind = .dmma x ty a b te →
    let u := dmmaUpdate (t.ct.cx.rdX x) ty a b
    let k := dmmaKind ty
    (∀ c v, arithTrap te.toNat u.2 = some (c, v) → exec .dmmaLanding s = .next (found s t p c v)) ∧
    (arithTrap te.toNat u.2 = none → finjUnit t.ct.finj.toNat ≠ 1 → t.ct.finjPrev = none →
      ∃ w set, exec .dmmaLanding s = .next (withTile s { t with ct := { t.ct with
        cx := { t.ct.cx with xflags := w, x := t.ct.cx.x.set x.toNat { kind := k, cells := u.1 } x.isLt }
        flags := t.ct.flags ||| BitVec.ofNat 14 (u.2.foldl (· ||| ·) 0), flAt := t.ct.now, flSet := set } })) ∧
    let qs := List.range (if ty < 10 then 2 else 1)
    let row (i : Nat) : List Nat := qs.map (dmmaA ty a i)
    let col (j : Nat) : List Nat := qs.map fun q => dmmaB ty b q j
    let total (l : List Nat) : Nat := (k.fmt.sumAll (l.map fun v => some ((bfmt ty).read v))).val
    let sA := qs.map fun q => total ((List.range k.n).map fun i => dmmaA ty a i q)
    let sB := qs.map fun q => total ((List.range k.n).map fun j => dmmaB ty b q j)
    let becomes (i j v : Nat) : Prop := memGet u.1 (k.index i j) = BitVec.ofNat 64 v
    let old := (t.ct.cx.rdX x).cell k
    ∀ i j, i < k.n → j < k.n →
      becomes i j (updateCell k.fmt (bfmt ty) (bfmt ty) (old i j) (row i) (col j)).val ∧
      becomes k.n j (updateCell k.fmt k.fmt (bfmt ty) (old k.n j) sA (col j)).val ∧
      becomes i k.n (updateCell k.fmt (bfmt ty) k.fmt (old i k.n) (row i) sB).val ∧
      becomes k.n k.n (updateCell k.fmt k.fmt k.fmt (old k.n k.n) sA sB).val) ∧
  (∀ (s : State) (p : Pend) (t : Tile), soleDue s PendKind.isXLanding p t →
    let sets (x : BitVec 3) (r : XReg) : Out := .next (withTile s { t with ct := { t.ct with
      cx := { t.ct.cx with x := t.ct.cx.x.set x.toNat r x.isLt } } })
    (∀ x, p.kind = .xZero x → exec .xRegisterLanding s = sets x {}) ∧
    (∀ x i v, p.kind = .xFix x (some (i, v)) → exec .xRegisterLanding s = sets x { t.ct.cx.rdX x with
      cells := memSet (t.ct.cx.rdX x).cells i (BitVec.ofNat 64 v) }) ∧
    (∀ x, p.kind = .xFix x none → exec .xRegisterLanding s = .next (withTile s t)) ∧
    (∀ x k vals, p.kind = .xLoad x k vals → k ≠ .empty → ∃ r : XReg, exec .xRegisterLanding s = sets x r ∧ r.kind = k ∧
      (∀ i j, i < k.n → j < k.n → memGet r.cells (k.index i j) = BitVec.ofNat 64 (vals.getD (i * k.n + j) 0)) ∧
      (vals.length = k.n * k.n → let d (e : Nat) : Option BNum := some (k.fmt.read (vals.getD e 0))
        let becomes (i j : Nat) (l : List (Option BNum)) : Prop := memGet r.cells (k.index i j) = BitVec.ofNat 64 (k.fmt.sumAll l).val
        ∀ i, i < k.n → becomes i k.n ((List.range k.n).map fun j => d (i * k.n + j)) ∧
          becomes k.n i ((List.range k.n).map fun j => d (j * k.n + i)) ∧ becomes k.n k.n ((List.range (k.n * k.n)).map d)))) ∧
  (∀ (s : State) (p : Pend) (t : Tile) (rows cols : Nat), soleDue s PendKind.isChecksum p t → p.kind = .checksum rows cols →
    exec .checksum s = .next (found s t p .checksum (rows + cols * 2 ^ 32)))

/-- R230-R250: what the engines do in their later cycles.
Where the manual is silent it follows the model's readings (log 20, 59). -/
def Obligations.EnginesLandTheirEffects : Prop :=
  planesAreRead ∧ planeWrites ∧ slicesAreFormed ∧ slicesAdd ∧ groupsAreRead ∧ groupsAreStored ∧ denseLandings

/-- R197, R198: a write of FINJ that passes its checks arms the injection of its UNIT, from this cycle on, but with UNIT 0 where the same
write of the attempt has fired before; one that fires inverts its bit of a scalar register, or its bits of a scratchpad word, clears UNIT,
and is remembered; where none is due nothing changes. -/
def Sys2Proof.Safety.injectedFaultsFireOnce : Prop :=
  (∀ (v : Word) (s : State), s.tile.csrWriteFault 0x0F0 v.toNat = none → exec (.finjWrite v) s = .next (withTile s { s.tile with ct := { s.tile.ct with
    finj := if s.tile.ct.finjSeen + 1 ∈ s.tile.ct.finjGone then v &&& ~~~7 else v
    finjPrev := some (s.tile.ct.now + 1, s.tile.ct.finj, s.tile.ct.finjDue)
    finjDue := if s.tile.ct.finjSeen + 1 ∈ s.tile.ct.finjGone then 0
      else if v.toNat % 8 = 1 then v.toNat / 2 ^ 21 % 2 ^ 10 else s.tile.ct.now + v.toNat / 2 ^ 21 % 2 ^ 10
    finjSeen := s.tile.ct.finjSeen + 1, finjBy := (s.tile.ct.finjSeen + 1, s.tile.ct.finjBy.1) } })) ∧
  (∀ (v : Word) (s : State), s.tile.ct.cx.partid.getLsbD 10 = false → 0 < v.toNat →
    ∃ w, exec (.finjWrite v) s = .next (charged s .illegalOp w 0 s.tile.ct.now)) ∧
  (∀ s : State, s.tile.ct.finjPrev = none → s.tile.ct.finjDue ≤ s.tile.ct.now →
    let w := s.tile.ct.finj
    let b := w.toNat / 2 ^ 15 % 2 ^ 6
    let word := (s.tile.ct.sbase + w.toNat / 2 ^ 32 % 2 ^ 19) / 8
    (w.toNat % 8 = 4 → (∀ r ∈ s.tile.ct.inflight, r.due ≠ s.tile.ct.now) → s.tile.ct.yAt = none →
      ∃ t, exec .finjFire s = .next (withTile s t) ∧ t.ct.finj = w &&& ~~~7 ∧ t.sp = s.tile.sp ∧
        t.ct.finjGone = s.tile.ct.finjBy.1 :: s.tile.ct.finjGone ∧
        ∀ n, t.s n = if n.toNat = w.toNat / 2 ^ 6 % 2 ^ 6 ∧ n ≠ 0 then s.tile.s n ^^^ (1 <<< b) else s.tile.s n) ∧
    let struck (bits : List (BitVec 6)) : Prop := exec .finjFire s = .next (withTile s { s.tile with
      ct := { s.tile.ct with finj := w &&& ~~~7, finjDue := 0, finjGone := s.tile.ct.finjBy.1 :: s.tile.ct.finjGone }
      sp := { s.tile.sp with soft := [{
        word := word, shadow := (s.tile.sp.writer (s.tile.ct.sbase + w.toNat / 2 ^ 32 % 2 ^ 19)).isSome, bits := bits }] } })
    (w.toNat % 8 = 2 → s.tile.sp.soft = [] → struck [BitVec.ofNat 6 b]) ∧
    (w.toNat % 8 = 3 → s.tile.sp.soft = [] → struck [BitVec.ofNat 6 b, BitVec.ofNat 6 (b + 1)]) ∧
    (w.toNat % 8 < 2 → exec .finjFire s = .next s))

/-- R46, R141, R158, R161, R167, R187, R361: the sequencer's own steps: an open segment whose count reaches 2^20 is a mismatch and
is dropped; a pending b register or return entry whose cycle has come is ready; in a REP the X op is issued again at each
interval and its buffer bundles follow in turn, an empty bundle at each cycle where there are none, and after its n intervals the
sequential bundle after them; a wait of its kind that is over lets the tile go on with
what stood before it (R31).
Where the manual is silent it follows the model's readings (log 14). -/
def Obligations.SequencerTimersAct : Prop :=
  ∀ s : State, let k := s.tile.ct; let q := k.sq
    (∀ g, q.seg = some g → exec .segmentCountLimit s = .next (if 2 ^ 20 ≤ g.count then
      charged (withSeq s { q with seg := none }) .segMismatch (BitVec.ofNat 64 (g.index % 2 ^ 23 + 2 ^ 60)) 4 k.now else s)) ∧
    (∀ b : BitVec 3, let r := q.b[b.toNat]'b.isLt
      exec (.bTargetReady b) s = .next (if r.state = .pending ∧ r.ready ≤ k.now then
        withSeq s { q with b := q.b.set b.toNat { r with state := .ready } b.isLt } else s)) ∧
    exec .returnEntryReady s = .next (withSeq s { q with rets := q.rets.map fun r =>
      if r.state = .pending ∧ r.ready ≤ k.now then { r with state := .ready } else r }) ∧
    (∀ r, q.rep = some r → r.start < k.now → k.now < r.start + r.count * r.interval →
      ((k.now - r.start) % r.interval = 0 → r.reissued ≠ k.now →
        exec .repReissue s = .next (withSeq s { q with reissue := some r.op, rep := some { r with reissued := k.now } })) ∧
      ((k.now - r.start) % r.interval ≠ 0 → exec .repReissue s = .next s) ∧
      (∀ b, r.staged ≠ k.now → r.body[(k.now - r.start - 1) % r.body.length]? = some b →
        exec .loopBufferIssue s = .next (withSeq s { q with
          buffer := some b, pc := b.1, sequential := true, fetchCopy := none, rep := some { r with staged := k.now } })) ∧
      (r.staged ≠ k.now → r.body = [] →
        exec .loopBufferIssue s = .next (withSeq s { q with pc := r.after, rep := some { r with staged := k.now } }))) ∧
    (∀ r b after nxt, q.rep = some r → q.target = none → let u := s.tile.committed b false after nxt
      (r.start + r.count * r.interval ≤ k.now + 1 → u.ct.sq.rep = none ∧ u.ct.sq.pc = r.after ∧ u.ct.sq.sequential = true ∧
        u.ct.sq.fetchCopy = none) ∧
      (k.now + 1 < r.start + r.count * r.interval → u.ct.sq.rep = some r)) ∧
    ∀ e ∈ [(Instr.waitcResume, WaitKind.waitc), (.stagewResume, .stagew), (.fenceResume, .fence)],
      (∀ till, k.run = .wait till e.2 → till ≤ k.now →
        exec e.1 s = .next (withTile s { s.tile with ct := { k with run := k.after, after := .issue } })) ∧
      (∀ till, k.run = .wait till e.2 → k.now < till → exec e.1 s = .next s)

/-- R36, R37, R40, R92, R139, R171, R133, R214, R215, R202, R206, R213, R144, R207, R268, R360, R362, R383: results, scratchpad reads,
stores and publishing. Where the manual is silent it follows the model's readings (log 11, 59). -/
def Obligations.ResultsReadsAndStoresLand : Prop := resultsLandInTheirRegisters ∧ readsTakeTheirBytesInTheirCycle ∧ storesLandOnTheirBytes ∧ publishingSwapsTheCopies

/-- R283, R285-R287, R294, R368-R373, R373, R374: vault banks, windows, armed waits and broken pairs.
Where the manual is silent it follows the model's readings (log 12, 19, 22, 37). -/
def Obligations.VaultBanksWindowsAndWaitsAct : Prop := vaultBanksServeTheirAccesses ∧ windowsReadThenWrite ∧ armedWaitsEnd ∧ brokenPairsWakeTheirWaits

/-- R291, R365, R355, R376: commons slots and missed promises.
Where the manual is silent it follows the model's readings (log 18, 34). -/
def Obligations.CommonsAndPromises : Prop := commonsServeTheirSlots ∧ missedPromisesAreCounted

/-- R277, R279, R280, R197, R198: landing buffers and injected faults.
Where the manual is silent it follows the model's readings (log 24, 59, 68). -/
def Obligations.ChannelsAndInjectedFaults : Prop := channelEntriesComeAndGo ∧ injectedFaultsFireOnce

/-! ### The Husk engines (R348, R353-R355, R372) -/

/-- The transfer `x` is the one of the tile in focus that `f` picks, and `j` is the job. -/
def Sys2Proof.Safety.soleTransfer (s : State) (j : Job) (f : Transfer → Bool) (x : Transfer) : Prop :=
  s.myJob = some j ∧ (j.transfers.filter fun y => y.ltid == s.tile.ltid && !y.done).filter f = [x]

/-- R348: six cycles after issue, where the map words read hold no error, a transfer all of whose lines are mapped has walked; an
unmapped line charges TRANSLATION with the engine and the line, ends the transfer, and counts; the second of a node decides the end of
the job with status 21. -/
def Sys2Proof.Safety.walksAreMade : Prop :=
  ∀ (s : State) (j : Job) (x : Transfer), let now := s.tile.ct.now
    soleTransfer s j (fun y => !y.walked && decide (y.issue + 6 ≤ now)) x →
    let line (i : Nat) : Nat := dscDva x.desc + 64 * i
    (∀ i, i < dscN x.desc → s.walkErrs j (dscEngine x.desc) (line i) = []) →
    ((∀ i, i < dscN x.desc → j.mapped (line i) = true) → ∃ t k, exec .translation s = .next t ∧ t.tile = s.tile ∧
      t.myJob = some k ∧ k.stats = j.stats ∧ k.ending = j.ending ∧
      k.windows = (j.onTransfers x.same fun y => { y with walked := true }).windows) ∧
    (∀ i, i < dscN x.desc → j.mapped (line i) = false → (∀ m, m < i → j.mapped (line m) = true) →
      ∃ t k, exec .translation s = .next t ∧ t.myJob = some k ∧
        t.tile = { s.tile with dets := s.tile.dets ++ [{
          cause := .translation, tval := BitVec.ofNat 64 (dscEngine x.desc + line i / 2 ^ 6 % 2 ^ 38 * 2 ^ 6), slot := 2
          issue := x.issue, addr := x.addr, det := now, nest := s.tile.nests x.issue }] } ∧
        k.windows = (j.onTransfers x.same fun y => { y with walked := true, done := true }).windows ∧
        (((j.stats.find? fun e => e.node == s.tile.ct.node).map (·.translations)).getD 0 = 1 → j.ending = none →
          k.ending = some (j.ref + treeDelay j.width j.height, 0x21, 0, [])))

/-- R354, R355, R206: a raw inbound line is written to the staged scratchpad as the DRAM bytes stand in the view of its group, and no
other byte changes, where no other access of the cycle meets it; an outbound transfer at T enters the DRAM shadow in its group's view,
with nothing published; a source line takes its 64 bytes as they stand. -/
def Sys2Proof.Safety.linesAreMoved : Prop :=
  (∀ (s : State) (j : Job) (x : Transfer), soleTransfer s j s.lineDue x → dscKind x.desc = 0 → dscXfmt x.desc = 0 →
    x.next < x.nd → dscVault x.desc = false → j.dram.soft = [] → s.tile.sp.wf = true →
    let a := dscLoc x.desc + 64 * x.next
    (∀ i, i < 64 → s.tile.ct.spStaged (a + i) = true) →
    s.firstClash (fun _ => true) s.tile.banks (s.tile.spUses ((List.range 64).map (a + ·)) true x.issue 2 x.addr true) = none →
    ∃ t k, exec .huskLocalLineWrite s = .next t ∧ t.tile.ct = s.tile.ct ∧ t.myJob = some k ∧
      k.windows = (j.onTransfers x.same fun y => { y with next := y.next + 1 }).windows ∧
      ∀ b, t.tile.spByte b = if a ≤ b ∧ b < a + 64 then
        j.dram.view x.strand (dscDva x.desc + 64 * x.next + (b - a)) else s.tile.spByte b) ∧
  (∀ (s : State) (j : Job) (x : Transfer), soleTransfer s j s.lineDue x → dscKind x.desc = 1 → j.dram.wf = true →
    ∃ t k, exec .huskLocalLineWrite s = .next t ∧ t.tile = s.tile ∧ t.myJob = some k ∧
      k.windows = (j.onTransfers x.same fun y => { y with done := true }).windows ∧
      ∀ b, k.dram.seen b = j.dram.seen b ∧
        k.dram.view x.strand b = if dscDva x.desc ≤ b ∧ b < dscDva x.desc + x.got.length then
          x.got.getD (b - dscDva x.desc) 0 else j.dram.view x.strand b) ∧
  (∀ (s : State) (j : Job) (x : Transfer), soleTransfer s j s.sourceDue x → dscVault x.desc = false → s.tile.sp.soft = [] →
    s.firstClash (fun _ => true) s.tile.banks (s.tile.spUses ((List.range 64).map (dscLoc x.desc + 64 * x.next + ·)) false
      x.issue 2 x.addr true) = none →
    ∃ t k, exec .huskSourceRead s = .next t ∧ t.tile.ct = s.tile.ct ∧ t.tile.sp = s.tile.sp ∧ t.myJob = some k ∧
      k.windows = (j.onTransfers x.same fun y => { y with
        next := y.next + 1, got := y.got ++ s.tile.spBytes (dscLoc x.desc + 64 * x.next) 64 }).windows)

/-- R353, R355: the shadow transfer of a window becomes active when the active one has reached its T; a transfer that DRAM cannot
meet is marked before its T, and at T charges MISSED_PROMISE to its op. -/
def Sys2Proof.Safety.windowsSwap : Prop :=
  ∀ (s : State) (pid engine : Nat) (j : Job), s.job? pid = some j → let w := j.window engine
    (s.windowOver pid w = true → ∃ t k, exec (.huskWindowSwapin pid engine) s = .next t ∧ t.tile = s.tile ∧
      t.job? pid = some k ∧ k.window engine = { w with active := w.shadow, shadow := none } ∧
      ∀ e, e ≠ engine → k.window e = j.window e) ∧
    (∀ x, w.active = some x → x.done = false → s.cycleOf pid x < x.t →
      ∃ t k, exec (.huskPromiseMiss pid engine) s = .next t ∧ t.tile = s.tile ∧ t.job? pid = some k ∧
        k.windows = (j.onTransfers x.same fun y => { y with missed := true }).windows) ∧
    (∀ x, w.active = some x → x.done = false → x.t ≤ s.tile.ct.now → s.tile.ltid = x.ltid → s.tile.ct.pid = pid →
      ∃ t k, exec (.huskPromiseMiss pid engine) s = .next t ∧ t.job? pid = some k ∧
        t.tile = { s.tile with dets := s.tile.dets ++ [{
          cause := .missedPromise, tval := BitVec.ofNat 64 (engine + dscDva x.desc / 2 ^ 6 % 2 ^ 38 * 2 ^ 6), slot := 2
          issue := x.issue, addr := x.addr, det := s.tile.ct.now, nest := s.tile.nests x.issue }] } ∧
        k.misses s.tile.ct.node = j.misses s.tile.ct.node + 1 ∧
        k.windows = (j.onTransfers x.same fun y => { y with missed := true, done := true }).windows)

/-- R372: the decrement of a finished transfer, once its destination is published, begins its window on a scratchpad pair in the
next cycle, and leaves the list; it is charged with no collision where no access of those cycles meets its banks. -/
def Sys2Proof.Safety.decrementsBegin : Prop :=
  ∀ (s : State) (j : Job) (b : BarDue), s.myJob = some j → j.bars.filter (·.isDue s.tile) = [b] → b.vault = false →
    (∀ u ∈ s.tile.banks, u.vault = true ∨ u.due ≤ s.tile.ct.now ∨ s.tile.ct.now + 3 < u.due) →
    ∃ t k, exec .huskBarrierDecrement s = .next t ∧ t.tile.ct = s.tile.ct ∧ t.tile.sp = s.tile.sp ∧ t.tile.dets = s.tile.dets ∧ t.myJob = some k ∧
      k.bars = j.bars.filter (fun b => !b.isDue s.tile) ∧
      t.tile.pend = s.tile.pend ++ [{
        due := s.tile.ct.now + 1, kind := .barrier s.tile.uid .sp b.baddr .bbytes (BitVec.ofNat 64 b.bytes)
        issue := s.tile.ct.now, slot := 2, addr := s.tile.ct.sq.pc, phase := s.tile.ct.cx.phaseNum }]

/-- R348, R353-R355, R372: what the Husk engines do for the transfers of a tile.
Where the manual is silent it follows the model's readings (log 34). -/
def Obligations.HuskEnginesMoveTheirLines : Prop := walksAreMade ∧ linesAreMoved ∧ windowsSwap ∧ decrementsBegin

/-! ### Halts, replays, handlers and ends (R252-R269, R381, R382) -/

/-- No record waits to be admitted, the job runs alone, and its ring has room for an entry: its end is all that happens. -/
def Sys2Proof.Safety.endsPlainly (s : State) (j : Job) : Prop :=
  j.twin = none ∧ (∀ c : Fin 4, s.hilum.admission[c] = []) ∧ (s.hilum.ring j.ring).waiting.length < 1024

/-- From `s` to `t` the job `j` has ended: its place is free, no tile of it holds a context of its partition, and one entry more
waits for its ring, with its JOBID, the status and the trap record (R404). -/
def Sys2Proof.Safety.jobEnded (s t : State) (j : Job) (status : Nat) (trap : List Word) : Prop :=
  (∀ k ∈ t.jobs, k.same j = true → k.state = .ended) ∧
  (∀ u ∈ t.tiles, j.ltids.contains u.ltid = true → u.ct.isOf j.pid = false) ∧
  ∃ e : Entry, (t.hilum.ring j.ring).waiting = (s.hilum.ring j.ring).waiting ++ [e] ∧ e.words.getD 0 0 = j.jobid ∧
    (e.words.getD 1 0).toNat % 2 ^ 16 = status ∧ (e.words.drop 8).take 4 = trap

/-- R256, R232, R206: a group in which a class P cause was detected d cycles ago by more than its tree delay halts: each tile gets
its node-start registers back, loses what it had in flight and its staged lines, keeps its IMEM, its published bytes and the
windows of its outside effects, and runs again from S1 = d + TD + 96, up to the offset at which the first charged bundle issued;
at S1 it issues. -/
def Sys2Proof.Safety.groupsRewindToTheirStop : Prop :=
  (∀ (s : State) (d n tb : Nat) (j : Job), let k := s.tile.ct; let ds := s.groupDets s.tile
    firstDet ds = some d → k.strand = some n → s.myJob = some j → s.haltDue = true → replayCause ds = none →
    stopIssue ds = some tb → (∀ u ∈ s.strandTiles k.pid n, u.ct.logFull = false ∧ u.ct.log.length < 256) → k.isize ≠ 0 →
    let s1 := d + s.tile.groupDelay + 96
    ∃ t, exec .groupHalt s = .next t ∧ t.tile.ct.cx = k.snap ∧ t.tile.ct.run = .halt (some s1) ∧ t.tile.ct.s0 = s1 ∧
      t.tile.ct.attempt = k.attempt + 1 ∧ t.tile.ct.inflight = [] ∧ t.tile.dets = [] ∧ t.tile.ct.flags = 0 ∧
      t.tile.ct.log = k.log ∧ t.tile.ct.logPos = 0 ∧ t.tile.ct.sq.pc = k.entry ∧ t.tile.imem = s.tile.imem ∧
      t.tile.sp.pub = s.tile.sp.pub ∧ t.tile.pend = s.tile.pend.filter (·.kind.isOutside) ∧
      t.tile.ct.stop.map (·.at_) = some (s1 + (tb - k.s0)) ∧ t.tile.ct.stop.map (·.own) = some (s.tile.ownAt tb) ∧
      (k.sbase % 64 = 0 → ∀ a, a < k.ssize * 1024 → t.tile.spByte a = s.tile.spSeen a)) ∧
  (∀ (s : State) (s1 : Nat), s.tile.ct.run = .halt (some s1) →
    (s1 ≤ s.tile.ct.now → exec .nodeRerunStart s = .next (withRun s .issue)) ∧
    (s.tile.ct.now < s1 → exec .nodeRerunStart s = .next s))

/-- R256, R310, R381, R382: where a class R cause was detected the halt is a replay: it counts for the node, and the attempt runs
whole; after sixteen replays of a node in a row, or with a full effect log, a rollback is asked for instead. -/
def Sys2Proof.Safety.replaysCountAndEscalate : Prop :=
  ∀ (s : State) (d n : Nat) (j : Job) (c : Cause), let k := s.tile.ct; let ds := s.groupDets s.tile
    firstDet ds = some d → k.strand = some n → s.myJob = some j → s.haltDue = true → replayCause ds = some c → k.isize ≠ 0 →
    let full := (s.strandTiles k.pid n).any fun u => u.ct.logFull || decide (256 ≤ u.ct.log.length)
    (full = false → j.replaysOf k.node < 16 → ∃ t m, exec .groupHalt s = .next t ∧ t.myJob = some m ∧
      m.replaysOf k.node = j.replaysOf k.node + 1 ∧ m.rolling = j.rolling ∧ t.tile.ct.cx = k.snap ∧ t.tile.ct.stop = none ∧
      t.tile.ct.run = .halt (some (d + s.tile.groupDelay + 96)) ∧ t.tile.dets = [] ∧
      ((∃ e ∈ ds, e.2.cause = .drift ∨ e.2.cause = .channelTag) → (t.quad s.tile.quadIndex).skewOf k.pid = s.refOff k.pid ∧
        (t.quad s.tile.quadIndex).slipped = Vector.replicate 4 0)) ∧
    (full = true ∨ 16 ≤ j.replaysOf k.node → ∃ t m, exec .groupHalt s = .next t ∧ t.myJob = some m ∧
      t.tile.ct.run = .halt none ∧ t.tile.dets = [] ∧ (j.rolling = none →
        m.rolling = some (j.ref + j.td - (k.now - d)) ∧ m.breakAsk = true))

/-- R39, R232, R253, R261: at its stop a tile whose image has a handler saves its sequencer state, freezes its engine effects, captures
what is in flight and writes the five trap CSRs; no other register, CSR but XFLAGS, or memory changes. Without a handler the
job ends with the group's cause in its status (R260). -/
def Sys2Proof.Safety.takingATrapSavesTheContext : Prop :=
  ∀ (s : State) (st : Stop) (j : Job), s.tile.ct.stop = some st → s.myJob = some j → st.at_ ≤ s.tile.ct.now →
    let k := s.tile.settlePc.ct; let n := k.now
    let own (f : Det → Nat) : Nat := (st.own.map f).getD 0
    (s.tile.hasHandler = true → ∃ t fl sv, exec .trapStop s = .next t ∧ t.others = s.others ∧ t.jobs = s.jobs ∧
      t.commons = s.commons ∧ t.tile.sp = s.tile.sp ∧ t.tile.imem = s.tile.imem ∧ t.tile.acc = s.tile.acc ∧
      t.tile.ct.cx = { s.tile.ct.cx with
        xflags := fl
        tcause := BitVec.ofNat 64 (own (·.cause.code) + st.gcode.toNat * 2 ^ 8 + st.gsrc.toNat * 2 ^ 16)
        tpc := BitVec.ofNat 64 k.sq.pc, tcyc := BitVec.ofNat 64 n, tval := (st.own.map (·.tval)).getD 0
        tslot := BitVec.ofNat 64 (own (·.slot) + (if st.own.isSome && k.sq.pfx.isSome then 8 else 0) + (n - k.s0) * 2 ^ 16) } ∧
      t.tile.ct.run = .stopped (n + 4) ∧ t.tile.ct.stop = none ∧ t.tile.ct.trap = some sv ∧ sv.at_ = n ∧ sv.seq = k.sq ∧
      sv.rotb = k.cx.rotb ∧ t.tile.pend = s.tile.pend.filter (!·.isEngine) ∧
      sv.held = (s.tile.pend.filter (·.isEngine)).map (fun p => { p with due := p.due - n }) ∧
      (s.tile.ct.inflight = [] → fl = s.tile.ct.cx.xflags) ∧
      (∀ r v, s.tile.ct.inflight = [r] → r.src = .val v → r.y = none → r.dest.isS0 = false → (∀ y ∈ s.tile.ct.y.toList, y.valid = false) →
        fl = s.tile.ct.cx.xflags ||| r.fl.setWidth 64 ∧ t.tile.ct.y[0] = {
          value := v, byteen := r.be, remain := BitVec.ofNat 10 (max 1 (r.due - n)), dnum := BitVec.ofNat 6 r.dest.codes.2
          dclass := BitVec.ofNat 3 r.dest.codes.1, valid := true })) ∧
    (s.tile.hasHandler = false → endsPlainly s j → ∃ t rec, exec .trapStop s = .next t ∧
      jobEnded s t j (0x100 + st.gcode.toNat) rec)

/-- R261: the handler's first bundle issues from code address 0 with every b register Empty, both stacks empty, ROTB 0, no repeat
and a segment due; every other register, CSR and memory stands. -/
def Sys2Proof.Safety.handlersStartAtAddressZero : Prop :=
  ∀ (s : State) (e : Nat), s.tile.ct.run = .stopped e → let k := s.tile.ct
    (k.now < e → exec .handlerEntry s = .next s) ∧
    (e ≤ k.now → exec .handlerEntry s = .next (withTile s { s.tile with ct := { k with
      run := .issue, after := .issue, sq := { pc := 0, mustSeg := true }, cx := { k.cx with rotb := 0 } } }))

/-- R263, R168, R232: returning from a trap whose replay registers are fit to land restores ROTB and the sequencer, brings the
engine effects back at their offsets, and lands the replay registers from t'; with TPC as saved the charged bundle issues again
in its open segment, or the wait in which the tile stood goes on; with TPC changed the bundle at TPC issues, with no repeat, no
prefix and a segment due. An unfit replay register charges ILLEGAL_OP. -/
def Sys2Proof.Safety.returningFromATrapRestoresTheContext : Prop :=
  ∀ (s : State) (u : Nat) (sv : TrapSave), s.tile.ct.run = .resume u → s.tile.ct.trap = some sv → let k := s.tile.ct
    let free : Prop := (withTile s s.tile.returnTrap).firstClash (fun _ => true) s.tile.returnTrap.banks
      (sv.banks.map fun b => { b with due := b.due + k.now }) = none
    (k.now < u → exec .contextResume s = .next s) ∧
    (u ≤ k.now → (∀ y ∈ k.y.toList, y.valid = true → y.sound = true) → yClash (k.y.toList.filter (·.valid)) = none → free →
      ∃ t, exec .contextResume s = .next (withTile s t) ∧ t.ct.trap = none ∧ t.ct.cx = { k.cx with rotb := sv.rotb } ∧
        t.ct.yAt = some k.now ∧ t.ct.y = k.y ∧ t.sp = s.tile.sp ∧ t.imem = s.tile.imem ∧ t.dets = s.tile.dets ∧
        t.pend = s.tile.pend ++ sv.held.map (fun p => { p with due := p.due + k.now }) ∧
        (k.cx.tpc.toNat = sv.seq.pc → ((∀ w, sv.run ≠ .wait w .fence) → t.ct.run = sv.run) ∧
          (∀ w, sv.run = .wait w .fence → t.ct.run = .wait (w + (k.now - sv.at_)) .fence) ∧ t.ct.sq.pc = sv.seq.pc ∧
          t.ct.sq.seg = sv.seq.seg ∧ t.ct.sq.pfx = sv.seq.pfx ∧
          t.ct.sq.mustSeg = sv.seq.mustSeg ∧ t.ct.sq.sequential = sv.seq.sequential ∧
          t.ct.sq.rep.map (·.start) = sv.seq.rep.map (·.start + (k.now - sv.at_))) ∧
        (k.cx.tpc.toNat ≠ sv.seq.pc → t.ct.run = .issue ∧ t.ct.sq.pc = k.cx.tpc.toNat ∧ t.ct.sq.seg = none ∧ t.ct.sq.pfx = none ∧
          t.ct.sq.mustSeg = true ∧ t.ct.sq.sequential = false ∧ t.ct.sq.rep = none)) ∧
    (u ≤ k.now → (∃ y ∈ k.y.toList, y.valid = true ∧ y.sound = false) → free →
      ∃ t w, exec .contextResume s = .next (withTile s t) ∧ t.dets = s.tile.dets ++ [w] ∧ w.cause = .illegalOp)

/-- R262, R268: TD_P after its detection, the only cause of a group, of class P and raised in a handler, ends the job with the cause as
its status and NEST set; the only cause of a partition, a silent error, asks for its unit to be retired and ends the job KILLED. -/
def Sys2Proof.Safety.handlerFaultsAndSilentErrorsEndTheJob : Prop :=
  ∀ (s : State) (j : Job), s.myJob = some j → endsPlainly s j →
    ∀ d, s.tile.dets = [d] → d.det + treeDelay j.width j.height ≤ s.tile.ct.now →
    (d.nest = true → d.cls = .precise →
      (∀ u ∈ s.others, u.sameGroup s.tile = true ∨ u.ltid = s.tile.ltid → u.dets = []) →
      ∃ t, exec .handlerFaultEnd s = .next t ∧ jobEnded s t j (0x100 + d.cause.code) [
        BitVec.ofNat 64 (d.cause.code + 2 ^ 8 + d.slot * 2 ^ 9 + s.tile.ltid * 2 ^ 16 + s.tile.ct.node * 2 ^ 32),
        BitVec.ofNat 64 d.addr, BitVec.ofNat 64 d.issue, d.tval]) ∧
    (d.cls = .silent → s.tile.ct.isize ≠ 0 → (∀ u ∈ s.others, u.ct.isOf s.tile.ct.pid = true → u.dets = []) →
      ∃ t, exec .silentErrorKill s = .next t ∧
        t.retireAsk = s.retireAsk ++
          [BitVec.ofNat 32 (s.tile.ltid / 4 * 5 + s.positionOf s.tile.ltid + d.cause.code * 2 ^ 16)] ∧
        jobEnded s t j 0x25 [0, 0, 0, 0])

/-- R269: the reload of a tile's IMEM share gives every byte of the share the program's image again, and changes nothing else. -/
def Sys2Proof.Safety.sharesReloadFromTheImage : Prop :=
  ∀ (s : State) (j : Job) (im : Image), s.myJob = some j → s.imageOf j = some im → s.tile.reloadAsk = true →
    memWf s.tile.imem = true →
    let k := s.tile.ct; let i := (j.ltids.findIdx? (· == s.tile.ltid)).getD 0
    ∃ m : Mem, exec .imemShareReload s = .next (withTile s { s.tile with imem := m, reloadAsk := false }) ∧
      ∀ a, a < k.isize * 1024 → memGet m (k.ibase * 1024 + a) = memGet (shareCode im i) a

/-- R256, R232, R206, R310, R381, R382: the halt of a group.
Where the manual is silent it follows the model's readings (log 9, 54). -/
def Obligations.GroupsRewindAndReplay : Prop := groupsRewindToTheirStop ∧ replaysCountAndEscalate

/-- R39, R232, R253, R261, R263, R168: taking a trap, the handler, and the return.
Where the manual is silent it follows the model's readings (log 14, 16, 59). -/
def Obligations.TrapsAreTakenAndLeft : Prop := takingATrapSavesTheContext ∧ handlersStartAtAddressZero ∧ returningFromATrapRestoresTheContext

/-- R262, R268, R269: handler faults, silent errors and reloads. -/
def Obligations.FaultsOfHandlersAndShares : Prop := handlerFaultsAndSilentErrorsEndTheJob ∧ sharesReloadFromTheImage

/-! ### Pre-emption and the movement of contexts (R264-R267, R307, R340, R344) -/

/-- R266, R39, R168: a delivered request stops the starts of nodes from its cycle on; a tile that leaves alone at its point, with
nothing but engine effects and results under way, captures and freezes them and is out, and an awaited standby context takes its
place for 96 cycles; when they are over a frozen context resumes where it left, its effects at their offsets and its registers as
they were. -/
def Sys2Proof.Safety.contextsSwitch : Prop :=
  (∀ (s : State) (pid r : Nat) (j : Job), s.job? pid = some j → j.preemptAt = some r → r ≤ j.ref →
    ∃ t, exec (.preemptDelivery pid) s = .next t ∧ t.tile = s.tile ∧ t.others = s.others ∧
      t.job? pid = some { j with preempting := true, preemptFrom := j.ref, preemptAt := none, preemptAsk := false }) ∧
  (∀ s : State, let k := s.tile.ct
    s.switchDue = true → s.leavers = [s.tile] → (∀ u ∈ s.others, u.ltid ≠ s.tile.ltid) → s.tile.dets = [] →
    s.tile.pend.filter (!·.isEngine) = [] → k.inflight.filter (fun r => r.toRead r.rdAt) = [] →
    ∃ t x fl sv, exec .contextSwitch s = .next t ∧ x.run = .out ∧ x.cx = { k.cx with xflags := fl } ∧ x.pid = k.pid ∧
      x.frozen = some sv ∧ sv.at_ = k.now ∧ sv.seq = k.sq ∧ sv.run = k.run ∧ sv.after = k.after ∧
      sv.held = s.tile.pend.map (fun p => { p with due := p.due - k.now }) ∧
      t.tile.sp = s.tile.sp ∧ t.tile.imem = s.tile.imem ∧ t.tile.pend = [] ∧
      (s.tile.standby = none → t.tile.ct = x) ∧
      (∀ c, s.tile.standby = some c → s.awaits c = true → k.isize ≠ 0 →
        t.tile.ct = c ∧ t.tile.standby = some x ∧ t.tile.switchLeft = some 96)) ∧
  (∀ (s : State) (sv : TrapSave), let k := s.tile.ct
    s.tile.switchLeft = some 0 → k.frozen = some sv → k.adrift = none →
    ∃ t, exec .contextSwitchIn s = .next t ∧ t.others = s.others ∧ t.tile.switchLeft = none ∧ t.tile.ct.run = sv.run ∧
      t.tile.ct.after = sv.after ∧ t.hilum = s.hilum ∧
      t.tile.ct.frozen = none ∧ t.tile.ct.cx = { k.cx with rotb := sv.rotb } ∧ t.tile.ct.sq.pc = sv.seq.pc ∧
      t.tile.ct.sq.seg = sv.seq.seg ∧ t.tile.ct.yAt = some k.now ∧ t.tile.sp = s.tile.sp ∧
      t.tile.pend = s.tile.pend ++ sv.held.map fun p => { p with due := p.due + k.now })

/-- R264, R265: the context that has to leave goes to its save area with its share, and with the arrays where both are CIM users; the
wanted one's movement begins at once where it fits beside the one that stays. A streamed context comes into an empty tile with the
share that was saved with it. -/
def Sys2Proof.Safety.contextsStream : Prop :=
  (∀ (s : State) (o k : Context), s.leaving s.tile = some o → s.tile.wanted = some k →
    let rest : Context := if s.tile.standby = some o then s.tile.ct else s.tile.standby.getD {}
    let saved := s.tile.saved ++ [{ s.tile.getShare o with arrays := o.cimUser && k.cimUser }]
    (sharesBeside (if rest.full then some rest else none) k).isSome = true →
    exec .contextStreamOut s = .next (withTile s { s.tile with
      ct := rest, standby := none, saved := saved, streamed := s.tile.streamed ++ [o]
      moveAt := some (s.wcyc + (16 * (k.ssize + k.isize) + if saved.any (fun v => v.pid == k.pid && v.arrays) then 2496 else 0)) })) ∧
  (∀ (s : State) (k : Context) (v : SavedShare), s.tile.standby = none → s.tile.ct.isize = 0 →
    (s.tile.want.bind fun p => s.tile.streamed.find? (·.isOf p)) = some k → s.tile.saved.find? (·.pid == k.pid) = some v →
    memWf s.tile.sp.pub = true → memWf v.sp.pub = true →
    ∃ t, exec .contextStreamIn s = .next (withTile s t) ∧ t.ct = { k with ibase := 0, sbase := 0 } ∧ t.want = none ∧ t.moveAt = none ∧
      t.streamed = s.tile.streamed.filter (!·.isOf k.pid) ∧
      ∀ a, a < k.ssize * 1024 → memGet t.sp.pub a = memGet v.sp.pub a)

/-- R307, R340: a pre-empted job whose tiles all hold its context is running again, withheld until its contexts are active, after
96 cycles where one of them stood by and at once where all stood active; a job that stood aside before its start stands active again. -/
def Sys2Proof.Safety.partitionsReturn : Prop :=
  ∀ (s : State) (pid : Nat) (j : Job), s.returner pid (fun j => j.plan.isEmpty ||
      (s.tiles.filter fun t => j.ltids.contains t.ltid).any (!·.holds pid)) = some j → (∀ c : Fin 4, s.hilum.admission[c] = []) → let mine := s.tiles.filter fun t => j.ltids.contains t.ltid
    (∀ t ∈ mine, t.holds pid = true) → ∃ t, exec (.partitionSwitchIn pid) s = .next t ∧
      (j.aside = false → ∃ k ∈ t.jobs, k.same j = true ∧ k.state = .running ∧ k.withheld = true ∧ k.preempting = false) ∧
      (j.aside = true → { j with aside := false } ∈ t.jobs) ∧
      (j.ltids.contains s.tile.ltid = true → t.tile.ct.isOf pid = true ∧
        t.tile.switchLeft = some (if ∀ u ∈ mine, u.ct.isOf pid = true then 0 else 96))

/-- R344: when both placements of a dual job have run to their ends, equal digests end the job with its status and commit the pages
of its placement 0, and digests that differ end it DIVERGED: what it had before them stays, and nothing of them is committed; one entry
is made and no placement is left. -/
def Sys2Proof.Safety.placementsCompare : Prop :=
  ∀ (s : State) (a b : Job) (st st' : Nat),
    s.jobs.find? (fun j => j.jobid == a.jobid && j.place == 0 && j.endStatus.isSome) = some a → s.twinOf a = some b →
    a.placed = true → a.endStatus = some st → b.endStatus = some st' → st < 2 ^ 16 → (∀ c : Fin 4, s.hilum.admission[c] = []) →
    (s.hilum.ring a.ring).waiting.length < 1024 →
    ∃ t e, exec (.dualCompare a.jobid) s = .next t ∧
      (t.hilum.ring a.ring).waiting = (s.hilum.ring a.ring).waiting ++ [e] ∧
      (∀ k ∈ t.jobs, k.same a = true ∨ k.same b = true → k.state = .ended) ∧
      (a.digest = b.digest → (e.words.getD 1 0).toNat % 2 ^ 16 = st ∧ (s.jobs.filter (·.same a) = [a] →
        ∀ k ∈ t.jobs, k.same a = true → k.pages = a.pages ∧ k.dram.published = a.dram.published ∧ k.kept = [])) ∧
      (a.digest ≠ b.digest → (e.words.getD 1 0).toNat % 2 ^ 16 = 0x24 ∧ (s.jobs.filter (·.same a) = [a] →
        ∀ k ∈ t.jobs, k.same a = true → k.pages = a.kept ∧ k.dram = a.keptDram))

/-- R264-R267, R307, R340, R344: contexts leave, move and come back, and placements are compared.
Where the manual is silent it follows the model's readings (log 31, 32, 39). -/
def Obligations.ContextsLeaveAndReturn : Prop := contextsSwitch ∧ contextsStream ∧ partitionsReturn ∧ placementsCompare

/-- The only record that waits for admission is `j`, at the head of the queue of class `c`. -/
def Sys2Proof.Safety.onlyHead (s : State) (c : Fin 4) (j : Job) : Prop :=
  (∀ d : Fin 4, s.hilum.admission[d] = if d = c then [j.serial] else []) ∧
  s.waiter c j.serial = some j ∧ s.power.hot = false

/-- R340: `place` is first fit: the least spot, rows from the south and columns from the west, at which the whole rectangle may be
used; quads with a job of a lower class are used only where no spot without one fits. -/
def Sys2Proof.Safety.firstFit : Prop :=
  ∀ (s : State) (j : Job) (im : Image) (bad : Nat → Nat → Bool) (x y : Nat), s.place j im bad = some (x, y) →
    let ok (pass u v : Nat) : Prop := u + j.width ≤ 72 ∧ v + j.height ≤ 64 ∧ s.rectOk j im pass bad u v = true
    let first (pass : Nat) : Prop := ok pass x y ∧ ∀ u v, v < y ∨ (v = y ∧ u < x) → ¬ok pass u v
    first 1 ∨ ((∀ u v, ¬ok 1 u v) ∧ first 2)

/-- R337-R341: the admission loop acts on the head of the highest class: a record of no units completes with EMPTY, one that the
checks refuse with its status, and its queue's STALLS clears; one that does not fit waits, and its queue's STALLS counts; one that
fits takes the lowest free partition id and its place. -/
def Sys2Proof.Safety.headActs : Prop :=
  ∀ (s : State) (c : Fin 4) (j : Job), onlyHead s c j →
    let gone (t : State) (st : Nat) : Prop := (∀ d : Fin 4, t.hilum.admission[d] = []) ∧
      (∀ k ∈ t.jobs, ¬(k.jobid = j.jobid ∧ k.serial = j.serial ∧ k.state = .waiting)) ∧ t.tile = s.tile ∧ t.hilum.stalls[c] = 0 ∧
      ((s.hilum.ring j.ring).waiting.length < 1024 → ∃ e : Entry, (t.hilum.ring j.ring).waiting = (s.hilum.ring j.ring).waiting ++ [e] ∧
        e.words.getD 0 0 = j.jobid ∧ (e.words.getD 1 0).toNat % 2 ^ 16 = st)
    (j.units = 0 → ∃ t : State, exec .thermalAdmissionResume s = .next t ∧ gone t 0x01) ∧
    (j.units ≠ 0 →
      (∀ st, s.refusal j = some st → st < 2 ^ 16 → ∃ t : State, exec .thermalAdmissionResume s = .next t ∧ gone t st) ∧
      (∀ im, s.refusal j = none → s.verifiedImage j = some im →
        ((s.placements j im).filter (s.memoryReady j im) = none → ∃ t : State, exec .thermalAdmissionResume s = .next t ∧
          t = { s with hilum := t.hilum } ∧ t.hilum.admission = s.hilum.admission ∧
          t.hilum.stalls[c] = min 65535 (s.hilum.stalls[c] + 1)) ∧
        (∀ p x y, s.placements j im = some [(p, (x, y))] → s.memoryReady j im [(p, (x, y))] = true →
          j.replacing = false → (j.resuming = false → some p = s.freePid) ∧ s.place j im (fun _ _ => false) = some (x, y) ∧
          ∃ t : State, exec .thermalAdmissionResume s = .next t ∧ (∀ d : Fin 4, t.hilum.admission[d] = []) ∧
            ∃ k ∈ t.jobs, k.same j = true ∧ k.state = (if j.hold then .held else .loaded) ∧ k.pid = p ∧ k.x = x ∧ k.y = y ∧
              k.loadedAt = some s.tick)))

/-- R337-R341: admission.
Where the manual is silent it follows the model's readings (log 38, 61). -/
def Obligations.AdmissionTakesTheHead : Prop := firstFit ∧ headActs

/-! ### The walker (R325-R334, R341, R385) -/

/-- R325, R326: a strand at a BRANCH takes the successor that its condition word names, the last one beyond their number; at a WHILE
successor 0 where the word is not zero and successor 1 where it is; at a COLLECT whose block passes its successor, 32 + TD_P cycles
after the post by which it passed where that is later, and nothing where it does not pass; at a FINISH it ends, and the last one ends
the job OK. The sixty-fifth node in a row that is not code decides the end of the job with status 20. -/
def Sys2Proof.Safety.strandsMove : Prop :=
  ∀ (s : State) (pid n : Nat) (j : Job) (x : Strand) (d : List Word),
    let moved (t : State) (dst ready : Nat) : Prop :=
      t.tile = s.tile ∧ ∃ k, t.job? pid = some k ∧ k.ending = j.ending ∧
        k.strand n = some { x with node := dst, ready := ready, passed := x.passed + 1 }
    let failed (t : State) : Prop := t.tile = s.tile ∧ ∃ k, t.job? pid = some k ∧
      k.ending = some (j.ref + treeDelay j.width j.height, 0x20, 0, [])
    (s.readyAt pid n 1 = some (j, x, d) → ∃ t, exec (.walkerBranch pid n) s = .next t ∧
      if x.passed < 64 then moved t (ndSucc d (min x.cw.toNat (ndNsucc d - 1))) x.ready else failed t) ∧
    (s.readyAt pid n 2 = some (j, x, d) → ∃ t, exec (.walkerWhile pid n) s = .next t ∧
      if x.passed < 64 then moved t (ndSucc d (if x.cw = 0 then 1 else 0)) x.ready else failed t) ∧
    (s.readyAt pid n 3 = some (j, x, d) → let b := j.jcbs.getD (ndJcb d) {}
      (b.expected ≤ b.completed → b.posted &&& b.bound = b.bound → ∃ t, exec (.walkerCollect pid n) s = .next t ∧
        if x.passed < 64 then moved t (ndSucc d 0) (match b.passAt with
          | some y => max x.ready (y + 32 + treeDelay j.width j.height)
          | none => x.ready) else failed t) ∧
      (b.completed < b.expected → exec (.walkerCollect pid n) s = .next s)) ∧
    (s.readyAt pid n 4 = some (j, x, d) → x.passed < 64 →
      (j.strands.filter (·.num != n) ≠ [] → ∃ t k, exec (.walkerFinish pid n) s = .next t ∧ t.tile = s.tile ∧
        t.job? pid = some k ∧ k.strands = j.strands.filter (·.num != n)) ∧
      (j.strands.filter (·.num != n) = [] → endsPlainly s j → ∃ t, exec (.walkerFinish pid n) s = .next t ∧
        jobEnded s t j 0 [0, 0, 0, 0]))

/-- R327, R139, R193: a code node whose group meets no running one starts: on each of its tiles the entry bundle is next, the
registers stand and are the snapshot, GROUPID, GROUPSIZE and NODEINST name the node, and the effect log and the flag set are
empty. -/
def Sys2Proof.Safety.nodesStart : Prop :=
  ∀ (s : State) (pid n : Nat) (j : Job) (x : Strand) (d : List Word) (im : Image) (e : Nat × Nat),
    s.readyAt pid n 0 = some (j, x, d) → s.imageOf j = some im → s.meeting j d = [] → j.preempting = false →
    (j.groupLtids d).filter (·.1 == s.tile.ltid) = [e] → s.tile.ct.isOf pid = true →
    let entry := ((im.entries.getD x.node []).getD e.2 0).toNat % 2 ^ 17
    ∃ t k, exec (.walkerCodeStart pid n) s = .next t ∧ t.job? pid = some k ∧
      k.strand n = some { x with running := true, passed := 0, started := j.ref } ∧
      t.tile.ct.cx = { s.tile.ct.cx with
        groupid := groupidOf d e.2, groupsize := groupsizeOf d
        nodeinst := BitVec.ofNat 64 (x.node + j.starts x.node % 2 ^ 32 * 2 ^ 10) } ∧
      t.tile.ct.snap = t.tile.ct.cx ∧ t.tile.ct.sq = { pc := entry, mustSeg := true } ∧ t.tile.ct.run = .issue ∧ t.tile.ct.after = .issue ∧
      t.tile.ct.strand = some n ∧ t.tile.ct.node = x.node ∧ t.tile.ct.s0 = s.tile.ct.now + s.tile.ct.lag ∧
      t.tile.ct.log = [] ∧ t.tile.ct.flags = 0 ∧ t.tile.sp = s.tile.sp ∧ t.tile.imem = s.tile.imem

/-- R94, R325, R329, R330: when every tile of its group has drained a node ends: its tiles run nothing, their flags enter the
job's flag word, and its strand goes on at successor 0 after 32 + TD_P cycles with the node's condition word; for each further
successor the lowest free strand goes on there, and where the sixteen strands do not suffice the end of the job is decided, with
status 20. -/
def Sys2Proof.Safety.nodesEnd : Prop :=
  ∀ (s : State) (pid n : Nat) (j : Job) (x : Strand), s.job? pid = some j → j.strand n = some x → x.running = true →
    let ts := s.strandTiles pid n; let d := s.nodeOf j x.node
    ts ≠ [] → (∀ t ∈ ts, t.drained j = true) → s.halting j = false → 1 ≤ ndNsucc d →
    let more := ndNsucc d - 1; let free := (List.range 16).filter fun m => j.strands.all (·.num != m)
    ∃ t k, exec (.nodeEnd pid n) s = .next t ∧ t.job? pid = some k ∧
      (∀ u ∈ t.tiles, u.ct.isOf pid = true → u.ct.strand ≠ some n) ∧
      k.flagWord = j.flagWord ||| ts.foldl (fun f t => f ||| t.ct.flags) 0 ∧
      k.strand n = some { x with
        node := ndSucc d 0, ready := j.ref + 32 + treeDelay j.width j.height, running := false
        cw := combine (ndCop d) (ts.filterMap (·.ct.condw)) } ∧
      (more ≤ free.length → ∀ i < more, k.strand (free.getD i 0) = some {
        num := free.getD i 0, node := ndSucc d (i + 1), ready := j.ref + 32 + treeDelay j.width j.height
        cw := combine (ndCop d) (ts.filterMap (·.ct.condw)) }) ∧
      (free.length < more → j.ending = none → k.ending = some (j.ref + treeDelay j.width j.height, 0x20, 0, []))

/-- R334, R385, R402: a checkpoint that has been written is complete, and delivery resumes; under MIGRATE_OUT the job ends. A
newer complete checkpoint ends the count of rollbacks to the one before it (R383). One whose write an error struck stays incomplete, and
a rollback is asked for. -/
def Sys2Proof.Safety.checkpointsComplete : Prop :=
  ∀ (s : State) (pid : Nat) (j : Job), s.job? pid = some j → j.saving = true →
    let spoiled := j.checkpoints.head?.any (·.spoiled)
    let now := j.checkpoints.map fun c => if c.num = j.ckNum then { c with complete := true } else c
    let top (l : List Checkpoint) : Nat := ((l.filter (·.complete)).map (·.num)).foldl max 0
    (spoiled = false → j.migrate = false → ∃ t k, exec (.checkpointComplete pid) s = .next t ∧ t.tile = s.tile ∧ t.job? pid = some k ∧
      k = { j with saving := false, checkpoints := now, rollbacks := k.rollbacks } ∧
      (j.twin = none → j.plan = [] → k.rollbacks = if top j.checkpoints < top now then 0 else j.rollbacks)) ∧
    (spoiled = false → j.migrate = true → endsPlainly s j → ∃ t, exec (.checkpointComplete pid) s = .next t ∧
      jobEnded s t j 0x02 [0, 0, 0, 0]) ∧
    (spoiled = true → ∃ t k, exec (.checkpointComplete pid) s = .next t ∧ t.tile = s.tile ∧ t.job? pid = some k ∧
      k.saving = false ∧ k.checkpoints = j.checkpoints ∧
      (j.rolling = none → k.rolling = some (j.ref + treeDelay j.width j.height)))

/-- R325, R331, R341: a job that starts has reference count 0, the entry node ready on strand 0 after 32 + TD_P cycles, its blocks
as the image binds them and an empty digest; its tiles' counts stand at 0. -/
def Sys2Proof.Safety.jobsStart : Prop :=
  ∀ (s : State) (pid : Nat) (j : Job) (im : Image),
    s.jobs.find? (fun j => j.pid == pid && s.startsNow j && (j.plan.isEmpty || j.resuming)) = some j → j.resuming = false →
    s.imageOf j = some im →
    ∃ t, exec (.jobStart pid) s = .next t ∧ (∃ k ∈ t.jobs, k.same j = true ∧ k.state = .running ∧ k.ref = 0 ∧
        k.tick = s.tick ∧ k.startWcyc = s.wcyc ∧ k.flagWord = 0 ∧ k.digest = digest256 [] ∧ k.jcbs = startBlocks im ∧
        k.strands = [{ num := 0, node := im.entry, ready := 32 + treeDelay j.width j.height, cw := 0 }]) ∧
      (s.tile.ct.isOf pid = true → t.tile.ct = { s.tile.ct with
        now := 0, lag := 0, run := .idle, finj := 0, finjDue := 0, finjPrev := none })

/-- R325-R334, R341, R385: what the walker does with a job.
Where the manual is silent it follows the model's readings (log 36, 39, 40, 48). -/
def Obligations.TheWalkerRunsTheGraph : Prop := strandsMove ∧ nodesStart ∧ nodesEnd ∧ checkpointsComplete ∧ jobsStart

/-! ### The oscillator grid, power, and repair (R299-R316, R381-R390, R409-R411, R414) -/

/-- R308, R309, R312, R316, R386: at a beacon every quad latches its counts and sends them with the partitions that its slots hold, an
armed one sets the copies armed to where their references stand, throttle changes whose cycle has come take effect on every quad,
every quad that has something to find is compared across each of its links, and the routers compare one entry of their map copies with
the map store: what the code corrects is corrected, and a copy beyond that retires its quad. The arrival of a beacon records what
differs, and removes itself. -/
def Sys2Proof.Safety.beaconsCompare : Prop :=
  (∀ s : State, s.beaconDone = false → s.wcyc % 1024 = 0 → ∃ t, exec .beacon s = .next t ∧ t.tile = s.tile ∧
    t.others = s.others ∧ t.beaconDone = true ∧ t.driftDone = false ∧ t.jobs = s.jobs.map (fun j => match j.thrNext with
      | some (n, w) => if w ≤ s.wcyc then { j with thr := n, thrFrom := w, thrNext := none } else j
      | none => j) ∧
    t.storeErr = s.storeErr.filter (fun e => e.1 != s.mapTurn || !eccCorrects e.2) ∧
    (∀ a ∈ t.arrivals, t.named (quadBeyond a.1 a.2) = s.occupied (quadBeyond a.1 a.2)) ∧
    ∀ n, let q := s.quad n; let r := t.quad n
      r.latchW = r.wskew ∧ r.latchC = r.dskews ∧ r.latchK = r.tickSkew ∧ r.armed = [] ∧ r.findings = [] ∧
      r.wskew = (if q.armed = [] then q.wskew else 0) ∧ r.dskews = ((uniq q.armed).filter fun p => s.refOff p != 0).map (fun p => (p, s.refOff p)) ++
        q.dskews.filter (fun e => !q.armed.contains e.1) ∧
      r.thrs = q.thrs.filter (fun e => !s.jobs.any fun j => j.pid == e.1 && j.thrNext.any (·.2 ≤ s.wcyc)) ∧
      r.copyErr = q.copyErr.filter (fun e => e.1 != s.mapTurn || !eccCorrects e.2) ∧
      (∀ bs, q.copyErr.find? (·.1 == s.mapTurn) = some (s.mapTurn, bs) → eccCorrects bs = false → q.state = 0 →
        BitVec.ofNat 32 (5 * n + 2 ^ 15) ∈ t.retireAsk) ∧
      ∀ d, d < 4 → hasNeighbour n d = true → r.off = true →
        (n, d) ∈ t.arrivals ∧ (quadBeyond n d, (d + 2) % 4) ∈ t.arrivals) ∧
  (∀ (s : State) (quad dir : Nat), (quad, dir) ∈ s.arrivals → let from_ := quadBeyond quad dir
    let own := s.quad quad; let other := s.quad from_; let slip : Int := other.slipOf ((dir + 2) % 4)
    ∃ t, exec (.beaconArrival quad dir) s = .next t ∧ t.tile = s.tile ∧ t.others = s.others ∧ t.jobs = s.jobs ∧
      t.arrivals = s.arrivals.filter (fun a => a ≠ (quad, dir)) ∧ (∀ n, n ≠ quad → t.quad n = s.quad n) ∧
      (t.quad quad).wskew = own.wskew ∧ (t.quad quad).dskews = own.dskews ∧
      (t.quad quad).tickSkew = (if own.latchK = other.latchK then own.tickSkew else s.leadTick quad) ∧
      (∀ f, f ∈ (t.quad quad).findings ↔ f ∈ own.findings ∨ (f = ⟨dir, 0, 0⟩ ∧ own.latchW ≠ other.latchW) ∨
        (∃ p, f = ⟨dir, 1, p⟩ ∧ p ∈ s.occupied quad ∧ p ∈ s.named from_ ∧ own.latchOf p ≠ other.latchOf p) ∨
        (f = ⟨dir, 2, 0⟩ ∧ (other.latchW - (own.wskew + slip)) % 16 ≠ 0)))

/-- R310: with nothing found the resolution changes no copy and no tile; a quad found adrift whose neighbours outvote it has its
WCYC copy set to their value, and a node that runs there is charged with DRIFT, of class R. -/
def Sys2Proof.Safety.driftIsResolved : Prop :=
  (∀ s : State, s.driftDone = false → (∀ e ∈ s.quads, e.2.findings = [] ∧ e.2.slips ≤ 255) →
    exec .drift s = .next { s with arrivals := [], driftDone := true }) ∧
  (∀ (s : State) (a b q : Nat) (v : Int), s.driftDone = false → (a, b) ∈ s.pairsOf (·.kind == 0) → q = a ∨ q = b → s.outvoted q = some v →
    ∃ t, exec .drift s = .next t ∧ t.driftDone = true ∧ (t.quad q).wskew = v ∧
      (∀ j ∈ s.jobs, j.started = true → j.placed = true → s.tile.quadIndex = q → s.tile.ltid % 4 = 0 →
        j.ltids.contains s.tile.ltid = true → s.tile.ct.isOf j.pid = true → s.tile.ct.strand ≠ none → s.tile.ct.run ≠ .out →
        ∃ d ∈ t.tile.dets, d.cause = .drift ∧ d.det = s.tile.ct.now)) ∧
  Cause.cls .drift = .replay

/-- R301, R305, R306, R316: a fault moves one copy of one count: of a quad, of a partition in it, of a reference, or the THR that a quad
holds; a retiming buffer of a stitch crossing that slips delays by a cycle the beats that have not crossed it. R414: at a tick edge
TICK rises by one. -/
def Sys2Proof.Safety.gridFaults : Prop :=
  (∀ (s : State) (n pid : Nat) (delta : Int), let q := s.quad n
    let only (t : State) : Prop := t.tile = s.tile ∧ t.others = s.others ∧ t.jobs = s.jobs ∧ ∀ m, m ≠ n → t.quad m = s.quad m
    (∃ t, exec (.counterCopyFault n .wcyc delta) s = .next t ∧ only t ∧ t.quad n = { q with wskew := q.wskew + delta }) ∧
    (∃ t, exec (.counterCopyFault n .tick delta) s = .next t ∧ only t ∧ t.quad n = { q with tickSkew := q.tickSkew + delta }) ∧
    (∃ t, exec (.counterCopyFault n (.dcyc pid) delta) s = .next t ∧ only t ∧ (t.quad n).skewOf pid = q.skewOf pid + delta ∧
      (∀ p, p ≠ pid → (t.quad n).skewOf p = q.skewOf p) ∧ t.quad n = { q with dskews := (t.quad n).dskews }) ∧
    (∀ j, s.job? pid = some j →
      (∃ t, exec (.counterCopyFault n (.throttle pid) delta) s = .next t ∧ only t ∧
        (t.quad n).thrOf j = ((q.thrOf j + delta) % 16).toNat ∧ t.quad n = { q with thrs := (t.quad n).thrs }) ∧
      ∀ i : Fin 3, ∃ t, exec (.counterCopyFault n (.reference pid i) delta) s = .next t ∧ t.tile = s.tile ∧ t.quads = s.quads ∧
        t.job? pid = some { j with refs := j.refs.set i ((j.refs[i] + delta) % 2 ^ 64).toNat })) ∧
  (∀ (s : State) (quad dir : Nat), let q := s.quad quad
    (isStitch quad dir = true → ∃ t, exec (.retimingBufferSlip quad dir) s = .next t ∧
      t.quad quad = { q with slipped := Vector.ofFn fun i => if i.val = dir then q.slipped[i] + 1 else q.slipped[i] } ∧
      (∀ n, n ≠ quad → t.quad n = s.quad n) ∧
      t.tile = { s.tile with beats := s.tile.beats.map fun b => match b.via.findIdx? (· == (quad, dir)) with
        | none => b
        | some i => if s.tile.ct.now + 2 * (b.via.length - 1 - i) < b.at_ then { b with at_ := b.at_ + 1 } else b }) ∧
    (isStitch quad dir = false → exec (.retimingBufferSlip quad dir) s = .next s)) ∧
  (∀ s : State, s.edge = false → s.wcyc % 1250 = 0 → s.tick < 2 ^ 64 - 1 →
    exec .tickEdge s = .next { s with tick := s.tick + 1, edge := true })

/-- R299-R316, R386, R414: the grid's counts, beacons and faults.
Where the manual is silent it follows the model's readings (log 47, 62). -/
def Obligations.TheGridComparesItsCounts : Prop := beaconsCompare ∧ driftIsResolved ∧ gridFaults

/-- R410, R411: once in a period of 2^20 WCYC cycles, above a limit of power or temperature the running partitions of the last class that
can take a step have their THR raised by one; below the lower limits the step down waits 2^24 cycles and begins with class 0. A pause
withholds every pulse until it is over; after ten seconds every job ends THERMAL, those that wait among them, and nothing is
admitted until every quad is cool.
Where the manual is silent it follows the model's readings (log 46, 56). -/
def Obligations.PowerAndHeatThrottleTheJobs : Prop :=
  (∀ (s : State) (watts hottest c : Nat), let period := s.wcyc / 2 ^ 20
    let cool (since : Option Nat) : Power := { s.power with coolSince := since, decided := period }
    let step (can : Job → Bool) (f : Nat → Nat) (since : Option Nat) : State :=
      { s with power := cool since, jobs := s.jobs.map fun j =>
        if j.state = .running ∧ j.cls = c ∧ can j = true then
          (if j.plan = [] then { j with thrNext := some (f j.thrGoal, (s.wcyc + 2048 + 1023) / 1024 * 1024) }
            else { j with thrAsk := f j.thrGoal, thrAskAt := some s.wcyc }) else j }
    let takes (can : Job → Bool) (k : Nat) : Prop := ∃ j ∈ s.jobs, j.state = .running ∧ j.cls = k ∧ can j = true
    let up (j : Job) : Bool := decide (j.thrGoal < 12)
    let down (j : Job) : Bool := decide (0 < j.thrGoal)
    (period ≤ s.power.decided → exec (.powerDecision watts hottest) s = .next s) ∧
    (s.power.decided < period → c < 4 →
      (26000 < watts ∨ 95 < hottest → takes up c → (∀ k, c < k → k < 4 → ¬takes up k) →
        exec (.powerDecision watts hottest) s = .next (step up (· + 1) none)) ∧
      (watts < 24000 → hottest < 90 →
        (s.power.coolSince = none → exec (.powerDecision watts hottest) s = .next { s with power := cool (some s.wcyc) }) ∧
        (∀ w, s.power.coolSince = some w →
          (s.wcyc < w + 2 ^ 24 → exec (.powerDecision watts hottest) s = .next { s with power := cool (some w) }) ∧
          (w + 2 ^ 24 ≤ s.wcyc → takes down c → (∀ k, k < c → ¬takes down k) →
            exec (.powerDecision watts hottest) s = .next (step down (· - 1) (some w))))))) ∧
  (∀ s : State, s.power.hot = true → s.runAdmission = s) ∧
  (∀ s : State, exec .thermalPause s = .next { s with power := { s.power with paused := true } } ∧
    exec .thermalResume s = .next { s with power := { s.power with paused := false } } ∧
    (∀ j, s.power.paused = true → s.delivers j = false) ∧
    ((∀ c : Fin 4, s.hilum.admission[c] = []) →
      exec .thermalAdmissionResume s = .next { s with power := { s.power with hot := false } }) ∧
    (∀ j, s.power.paused = true → s.jobs.filter (·.placed) = [j] → j.pid < 256 → endsPlainly s j → ∃ t, exec .thermalTimeout s = .next t ∧
      t.power.paused = false ∧ t.power.hot = true ∧ jobEnded s t j 0x26 [0, 0, 0, 0]) ∧
    (∀ (j : Job) (c : Fin 4), s.power.paused = true → s.jobs.filter (·.placed) = [] → onlyHead s c j → j.replacing = false →
      (s.hilum.ring j.ring).waiting.length < 1024 → ∃ t, ∃ e : Entry, exec .thermalTimeout s = .next t ∧
        (∀ d : Fin 4, t.hilum.admission[d] = []) ∧ (∀ k ∈ t.jobs, ¬(k.jobid = j.jobid ∧ k.serial = j.serial ∧ k.state = .waiting)) ∧
        (t.hilum.ring j.ring).waiting = (s.hilum.ring j.ring).waiting ++ [e] ∧ e.words.getD 0 0 = j.jobid ∧
        (e.words.getD 1 0).toNat % 2 ^ 16 = 0x26))

/-- R387, R388: while a job has a context on a unit that is to be retired it is asked to leave; with none left the tile's
physical position is quarantined and the spare serves in its place where one is left, or the quad is out of use. -/
def Sys2Proof.Safety.unitsRetire : Prop :=
  ∀ (s : State) (u : BitVec 32), u ∈ s.retireAsk → let q := unitQuad u; let p := u.toNat % 2 ^ 15 % 5
    (∀ j, s.affected u = [j] → j.placed = true → j.replacing = false → ∃ t, exec (.unitRetirement (.unit u)) s = .next t ∧
      t.retireAsk = s.retireAsk ∧ t.quads = s.quads ∧ t.tile = s.tile ∧
      ∀ k ∈ t.jobs, k.same j = true → k.placed = true → k.replacing = true) ∧
    (s.affected u = [] → (∀ c : Fin 4, s.hilum.admission[c] = []) → ∃ t, exec (.unitRetirement (.unit u)) s = .next t ∧ u ∉ t.retireAsk ∧
      (u.getLsbD 15 = false →
        (t.quad q).quar = (s.quad q).quar ||| BitVec.ofNat 5 (2 ^ p) ∧
        (∀ i, (s.quad q).serve.findIdx? (· == p) = some i → (s.quad q).quar.getLsbD 4 = false → p ≠ 4 →
          4 ∉ (s.quad q).serve → (t.quad q).serve = (s.quad q).serve.set i 4 ∧ (t.quad q).state = (s.quad q).state) ∧
        (p ∈ (s.quad q).serve → 4 ∈ (s.quad q).serve ∨ (s.quad q).quar.getLsbD 4 = true → (t.quad q).state = 1)))

/-- R383, R385, R389, R424: a job whose halt has come and that leaves its placement heads its class queue, to resume from its last
complete checkpoint; one that rolls back in place takes that checkpoint's reference, digest, flag word and memory, or the
state of its start where there is none, and waits to go on, its streams on their alternates from then on where a port failed; the fourth
rollback to one checkpoint ends it with status 23. -/
def Sys2Proof.Safety.jobsRollBack : Prop :=
  (∀ (s : State) (j : Job), s.leaver j.jobid = some j → j.twin = none →
    (j.started = true → 3 ≤ j.rollbacks → endsPlainly s j → ∃ t, exec (.jobReplacement j.jobid) s = .next t ∧
      jobEnded s t j 0x23 [0, 0, 0, 0]) ∧
    (j.rollbacks < 3 → ∃ t, exec (.jobReplacement j.jobid) s = .next t ∧
      (∀ c : Fin 4, c.val = j.cls → t.hilum.admission[c] = j.serial :: s.hilum.admission[c]) ∧
      ∃ k ∈ t.jobs, k.same j = true ∧ k.state = .waiting ∧ k.replacing = true ∧ (j.started = true → k.resuming = true))) ∧
  (∀ (s : State) (pid : Nat) (j : Job) (im : Image), s.rollerOf pid = some j → s.imageOf j = some im → j.twin = none →
    (3 ≤ j.rollbacks → endsPlainly s j → ∃ t, exec (.checkpointRollback pid) s = .next t ∧ jobEnded s t j 0x23 [0, 0, 0, 0]) ∧
    (j.rollbacks < 3 → j.plan = [] → ∃ t, exec (.checkpointRollback pid) s = .next t ∧ ∃ k ∈ t.jobs, k.same j = true ∧ k.restart = true ∧
      k.rolling = none ∧ k.rollbacks = j.rollbacks + 1 ∧
      (∀ c, j.checkpoints.find? (·.complete) = some c → (∀ e ∈ j.checkpoints, e.num ≤ c.num) →
        k.ref = c.at_ ∧ k.digest = c.digest ∧ k.flagWord = c.flagWord ∧ k.jcbs = c.jcbs ∧ k.dram.pub = c.dram ∧
        k.vault.pub = c.vault) ∧
      ((∀ e ∈ j.checkpoints, e.complete = false) → k.ref = 0 ∧ k.flagWord = 0 ∧ k.jcbs = startBlocks im ∧ k.dram.pub = []))) ∧
  (∀ (s : State) (pid : Nat), exec (.rollbackRestart pid) s = .next { s with jobs := s.jobs.map fun j =>
    if j.pid = pid ∧ (j.state = .running ∨ j.state = .preempted) ∧ j.restart = true then { j with restart := false, alts := uniq (j.altsNext ++ j.alts), altsNext := [] } else j })

/-- R269, R283, R349, R386: bits struck in a word of scratchpad or DRAM stay in it until it is read or written; one bit of a tile's other
storage is corrected and counted, more of it raise UE_REPLAY on the node that runs there; struck bits of a map copy or of the map store
stay until the entry is compared. -/
def Sys2Proof.Safety.errorsStrike : Prop :=
  ∀ (s : State) (b : BitVec 6) (l : Nat), s.tile.ltid = l → s.tile.ct.isize ≠ 0 →
    (∀ a, a < s.tile.ct.ssize * 1024 → s.tile.sp.soft = [] → ∃ t, exec (.softError (.scratchpad l a) [b]) s = .next t ∧
      t.tile = { s.tile with sp := { s.tile.sp with
        soft := [{ word := (s.tile.ct.sbase + a) / 8, shadow := false, bits := [b] }] } }) ∧
    (∀ i, ∃ t, exec (.softError (.register l i) [b]) s = .next t ∧
      t.tile = { s.tile with corrected := s.tile.corrected + 1 }) ∧
    (∀ i c, b ≠ c → s.tile.ct.strand ≠ none → ∃ t d, exec (.softError (.register l i) [b, c]) s = .next t ∧
      t.tile.dets = s.tile.dets ++ [d] ∧ d.cause = .ueReplay ∧ d.det = s.tile.ct.now ∧ t.tile.ct = s.tile.ct) ∧
    (∀ pid a j, s.job? pid = some j → j.dram.soft = [] → (∀ r ∈ s.regionsOf pid, r.staged = false) →
      ∃ t, exec (.softError (.dram pid a) [b]) s = .next t ∧ t.tile = s.tile ∧ t.job? pid = some { j with
        dram := { j.dram with soft := [{ word := a / 8, shadow := false, bits := [b] }] } }) ∧
    (∀ q e, q < 4608 → e < 4608 → (s.quad q).copyErr = [] → ∃ t, exec (.softError (.mapCopy q e) [b]) s = .next t ∧
      t.quad q = { s.quad q with copyErr := [(e, [b])] }) ∧
    (∀ e, e < 4608 → s.storeErr = [] → exec (.softError (.mapStore e) [b]) s = .next { s with storeErr := [(e, [b])] })

/-- R381-R390, R269, R283, R349: retirement, re-placement, rollback and the errors that lead there.
Where the manual is silent it follows the model's readings (log 27, 40, 41, 42, 45, 62). -/
def Obligations.ErrorsAreRepaired : Prop := unitsRetire ∧ jobsRollBack ∧ errorsStrike

/-! ### The host's side (R338, R387-R414) -/

/-- R404: an answer makes one entry on the command's own ring, with its CTAG, its status, the job it names and its result, and
leaves what goes to the host's buffer; nothing else of the machine changes. -/
def Sys2Proof.Safety.answersMakeOneEntry : Prop :=
  ∀ (s : State) (c : Cmd) (status : Nat) (jobid : Word) (result buf : List Byte), (s.hilum.ring c.ring).waiting.length < 1024 →
    let t := s.reply c status jobid result buf
    t = { s with hilum := t.hilum } ∧ t.hilum.bufs = (if buf = [] ∨ c.buf = 0 then s.hilum.bufs else (c.buf, buf) :: s.hilum.bufs) ∧
    t.hilum.admission = s.hilum.admission ∧ t.hilum.own = s.hilum.own ∧ (∀ r, r ≠ c.ring → t.hilum.ring r = s.hilum.ring r) ∧
    ∃ e : Entry, t.hilum.ring c.ring = { s.hilum.ring c.ring with waiting := (s.hilum.ring c.ring).waiting ++ [e] } ∧
      e.words.length = 23 ∧ e.words[0]? = some jobid ∧ e.words[1]? = some (BitVec.ofNat 64 (status + c.ctag.toNat * 2 ^ 32)) ∧
      (e.words.drop 12).take 4 = word4 result ∧ e.words[22]? = some (BitVec.ofNat 64 s.tick)

/-- The command came by a management ring, and the module has booted. -/
def Sys2Proof.Safety.onMgmt (s : State) (c : Cmd) : Prop := (∃ p, c.ring = .mgmt p) ∧ s.hilum.booting = false

/-- The command came by a submission queue from the owner, and the module has booted. -/
def Sys2Proof.Safety.onQueue (s : State) (c : Cmd) : Prop := (∃ q, c.ring = .queue q) ∧ s.hilum.booting = false ∧ s.hilum.owner c.port = true

/-- `i` is the command `c` of a management ring, and `n` its code (R399). -/
def Sys2Proof.Safety.mgmtCode (c : Cmd) (n : Nat) (i : Instr) : Prop :=
  (n = 0x01 ∧ i = .identify c) ∨ (n = 0x02 ∧ i = .attest c) ∨ (n = 0x03 ∧ i = .claim c) ∨ (n = 0x04 ∧ i = .handover c) ∨
  (n = 0x05 ∧ i = .accept c) ∨ (n = 0x06 ∧ i = .release c) ∨ (n = 0x07 ∧ i = .queryJob c) ∨ (n = 0x08 ∧ i = .queryMap c) ∨
  (n = 0x09 ∧ i = .readDigest c) ∨ (n = 0x0A ∧ i = .readUtil c) ∨ (n = 0x0B ∧ i = .readErrors c)

/-- `i` is the command `c` of a submission queue, and `n` its code (R399). -/
def Sys2Proof.Safety.queueCode (c : Cmd) (n : Nat) (i : Instr) : Prop :=
  (n = 0x10 ∧ i = .loadImage c) ∨ (n = 0x11 ∧ i = .verifyImage c) ∨ (n = 0x12 ∧ i = .admitJob c) ∨ (n = 0x13 ∧ i = .launch c) ∨
  (n = 0x14 ∧ i = .cancel c) ∨ (n = 0x15 ∧ i = .preempt c) ∨ (n = 0x16 ∧ i = .migrateOut c) ∨ (n = 0x17 ∧ i = .checkpoint c) ∨
  (n = 0x18 ∧ i = .restore c) ∨ (n = 0x19 ∧ i = .retireUnit c) ∨ (n = 0x1A ∧ i = .copyIn c) ∨ (n = 0x1B ∧ i = .copyOut c) ∨
  (n = 0x1C ∧ i = .setTime c)

/-- The commands of a ring. -/
def Sys2Proof.Safety.ringCode (r : RingId) (c : Cmd) (n : Nat) (i : Instr) : Prop :=
  match r with
  | .mgmt _ => mgmtCode c n i
  | .queue _ => queueCode c n i

/-- R393, R398, R409: on the wrong ring a command answers BAD_OPCODE; while the module boots each but IDENTIFY answers BUSY; a
command of a queue from a port that is not the owner answers NOT_OWNER; none of them has any other effect. -/
def Sys2Proof.Safety.commandsAreTurnedAway : Prop :=
  ∀ (s : State) (c : Cmd) (n : Nat) (i : Instr),
    (mgmtCode c n i →
      (∀ q, c.ring = .queue q → exec i s = .next (s.reply c 0x15)) ∧
      (∀ p, c.ring = .mgmt p → s.hilum.booting = true → n ≠ 0x01 → exec i s = .next (s.reply c 0x19))) ∧
    (queueCode c n i →
      (∀ p, c.ring = .mgmt p → exec i s = .next (s.reply c 0x15)) ∧
      (∀ q, c.ring = .queue q → s.hilum.booting = true → exec i s = .next (s.reply c 0x19)) ∧
      (∀ q, c.ring = .queue q → s.hilum.booting = false → s.hilum.owner c.port = false → exec i s = .next (s.reply c 0x16)))

/-- R394, R395, R396: a ring's registers follow the maximum rule: STAIL beyond the ring is counted as an overrun, a greater value is
taken, a smaller one is counted and ignored; MCRING takes a size of 0 or 16 to 256 entries; a word written to a slot window lands
in the slot that the window names, and a read gives the host what the block shows. -/
def Sys2Proof.Safety.ringsTakeWrites : Prop :=
  (∀ (s : State) (r : RingId) (v : Word), let q := s.hilum.ring r; let n := match r with | .queue _ => 256 | .mgmt _ => 16
    ∃ t u : State, exec (.stailWrite r v) s = .next t ∧ exec (.cheadWrite r v) s = .next u ∧ t = { s with hilum := t.hilum } ∧
      t.hilum.ring r = (if q.head + n < v.toNat then { q with ovr := min (2 ^ 32 - 1) (q.ovr + 1) }
        else if q.stail < v.toNat then { q with stail := v.toNat }
        else if v.toNat < q.stail then { q with ignS := min (2 ^ 32 - 1) (q.ignS + 1) } else q) ∧
      u.hilum.ring r = (if q.chead < v.toNat then { q with chead := v.toNat }
        else if v.toNat < q.chead then { q with ignC := min (2 ^ 32 - 1) (q.ignC + 1) } else q)) ∧
  (∀ (s : State) (p : BitVec 1) (v : Word), let k := v.toNat % 16; let good := (k = 0 ∨ (4 ≤ k ∧ k ≤ 8)) ∧ v.toNat / 16 % 256 = 0
    (good → ∃ t : State, exec (.mcringWrite p v) s = .next t ∧ t.hilum.ring (.mgmt p) = { s.hilum.ring (.mgmt p) with
      mcring := v, caddr := v.toNat / 4096 * 4096, csize := if k = 0 then 0 else 2 ^ k }) ∧
    (¬good → ∃ t : State, exec (.mcringWrite p v) s = .next t ∧ t.hilum.mgmt = s.hilum.mgmt ∧
      t.hilum.errors.mcring = s.hilum.errors.mcring + 1)) ∧
  (∀ (s : State) (p : BitVec 1) (q : BitVec 4) (w i : Nat) (v : Word), w < 16 → i < 16 →
    (∀ e ∈ (s.hilum.ring (.queue q)).slots, e.2.length = 17) → let r := s.hilum.ring (.queue q); let slot := r.slotAt 256 w
    (r.head ≤ r.head + (w + 16 - r.head % 16) % 16 ∧ (r.head + (w + 16 - r.head % 16) % 16) % 16 = w) ∧
    ∃ (t : State) (ws : List Word), exec (.barRegisterWrite p (BitVec.ofNat 24 (q.toNat * 4096 + 0x800 + w * 128 + i * 8)) (some v)) s = .next t ∧
      (t.hilum.ring (.queue q)).slots.find? (fun e => e.1 == slot) = some (slot, ws) ∧ ws[i]? = some v ∧
      ∀ n, n ≠ slot → (t.hilum.ring (.queue q)).slots.find? (fun e => e.1 == n) = r.slots.find? (fun e => e.1 == n)) ∧
  (∀ (s : State) (p : BitVec 1) (q : BitVec 4), let r := s.hilum.ring (.queue q)
    let reads (o n : Nat) : Prop := exec (.barRegisterWrite p (BitVec.ofNat 24 (q.toNat * 4096 + o)) none) s =
      .next { s with hilum := { s.hilum with barData := BitVec.ofNat 64 n } }
    reads 0 r.stail ∧ reads 8 r.head ∧ reads 0x10 r.chead ∧ reads 0x18 r.ctail ∧ reads 0x20 (r.ignS + r.ignC * 2 ^ 32) ∧
      reads 0x28 r.ovr ∧ reads 0x30 (r.cls + if r.enabled = true then 4 else 0))

/-- R391, R395, R397, R398, R399, R404: a ready position whose SEQ agrees is consumed in its queue's turn and its command carried out,
BAD_OPCODE where its code is not one of the ring's; a queue alone of its class with a ready position is in turn; a position whose SEQ
does not agree completes with BAD_SEQ; the first waiting entry goes to its slot of the completion ring while it has room, with its
number and phase in word 23, and the owner is interrupted. -/
def Sys2Proof.Safety.ringsAreServed : Prop :=
  (∀ (s : State) (r : RingId) (data : List Byte) (im : Option Image) (ws : List Word), s.nextSlot r = some ws →
    let q := s.hilum.ring r; let w := (ws.getD 0 0).toNat; let c := cmdOf r ws data im
    let s' := s.onHilum (·.onRing r fun q => { q with head := q.head + 1 })
    let s1 := s.onHilum fun h => (h.tookTurn r).onRing r fun q => { q with head := q.head + 1 }
    (s.onTurn r = false → exec (.submissionConsume r data im) s = .next s) ∧
    (w / 2 ^ 16 % 2 ^ 16 = q.head % 2 ^ 16 → s.onTurn r = true →
      (∀ i, ringCode r c (w % 2 ^ 16) i → exec (.submissionConsume r data im) s = exec i s1) ∧
      ((∀ i, ¬ringCode r c (w % 2 ^ 16) i) → exec (.submissionConsume r data im) s = .next (s1.reply c 0x15))) ∧
    (w / 2 ^ 16 % 2 ^ 16 ≠ q.head % 2 ^ 16 → exec (.badSeq r) s = .next (s'.reply (cmdOf r ws [] none) 0x18))) ∧
  (∀ (s : State) (q : BitVec 4), s.slotReady (.queue q) = true →
    (∀ p, p ≠ q → (s.hilum.ring (.queue p)).cls = (s.hilum.ring (.queue q)).cls → s.slotReady (.queue p) = false) →
    s.onTurn (.queue q) = true) ∧
  (∀ (s : State) (r : RingId), s.nextEnd r = none → let q := s.hilum.ring r
    (∀ e es, q.waiting = e :: es → q.csize ≠ 0 → q.ctail < q.chead + q.csize →
      ∃ t : State, exec (.completionEntryWrite r) s = .next t ∧ t = { s with hilum := t.hilum } ∧ t.hilum.ring r = { q with
        waiting := es, ctail := q.ctail + 1, written := (q.caddr + 192 * (q.ctail % q.csize), ⟨e.words ++ [BitVec.ofNat 64
          (q.ctail % 2 ^ 63 + if q.ctail / q.csize % 2 = 0 then 2 ^ 63 else 0)]⟩) :: q.written } ∧
        t.hilum.irqs = (s.hilum.vectorOf r).toList ++ s.hilum.irqs) ∧
    (q.csize = 0 ∨ q.chead + q.csize ≤ q.ctail → ∃ t : State, exec (.completionEntryWrite r) s = .next t ∧ t.hilum.ring r = q)) ∧
  (∀ (s : State) (r : RingId) (j : Job) (at_ st unit : Nat) (trap : List Word), s.nextEnd r = some j →
    j.ending = some (at_, st, unit, trap) → endsPlainly s j → j.placed = true → st < 2 ^ 16 → trap.length = 4 →
    ∃ t : State, exec (.completionEntryWrite r) s = .next t ∧ jobEnded s t j st trap)

/-- R394-R398, R404: the rings. -/
def Sys2Proof.Safety.ringsMoveTheirEntries : Prop := ringsTakeWrites ∧ ringsAreServed

/-- R392, R396: CLAIM takes an unowned module with a good queue table, and every queue's class and enable with it, port 0 winning where
both claim in one cycle; HANDOVER opens a
transfer, ACCEPT by the other port completes it, and its timer or RELEASE ends it with TIMEOUT; RELEASE or a link down for five
seconds leaves the module unowned with every queue disabled.
Where the manual is silent it follows the model's readings (log 30, 49, 56). -/
def Obligations.OwnershipChangesHands : Prop :=
  ∀ (s : State) (c : Cmd), let h := s.hilum; let rows := tableOf c.data
    let installed (t : State) : Prop := ∀ i : Fin 16, ∀ r, rows[i.val]? = some r →
      (t.hilum.queues[i]).cls = r.cls ∧ (t.hilum.queues[i]).enabled = r.enabled ∧ (t.hilum.queues[i]).caddr = r.addr ∧
      (t.hilum.queues[i]).csize = (if ringSizeOk r.size then r.size else 0) ∧ (t.hilum.queues[i]).head = (h.queues[i]).head
    let free (t : State) : Prop := t.hilum.own = .unowned ∧ ∀ i : Fin 16, (t.hilum.queues[i]).enabled = false
    (onMgmt s c →
      (h.own = .unowned → tableOk rows = true → c.port = 1 → s.claimsToo = true → exec (.claim c) s = .next (s.reply c 0x17)) ∧
      (h.own = .unowned → tableOk rows = true → c.port = 0 ∨ s.claimsToo = false → ∃ t : State, exec (.claim c) s = .next (t.reply c 0) ∧ t.hilum.own = .owned c.port ∧
        installed t) ∧
      (h.own = .unowned → tableOk rows = false → exec (.claim c) s = .next (s.reply c 0x11)) ∧
      (h.own = .owned c.port → exec (.claim c) s = .next (s.reply c 0x17) ∧
        exec (.handover c) s = .next { s with hilum := { h with own := .pending c.port, handover := some c } } ∧
        ∃ t : State, exec (.release c) s = .next (t.reply c 0) ∧ free t) ∧
      (∀ p d, h.own = .pending p → h.handover = some d →
        (p ≠ c.port → tableOk rows = true → ∃ t : State, exec (.accept c) s = .next ((t.reply d 0).reply c 0) ∧
          t.hilum.own = .owned c.port ∧ installed t ∧ t.hilum.handover = none) ∧
        (p = c.port → exec (.release c) s =
          .next (({ s with hilum := { h with own := .owned p, handover := none } }.reply d 0x1B).reply c 0)))) ∧
    (∀ p d, h.own = .pending p → h.handover = some d → exec .handoverTimeout s =
      .next ({ s with hilum := { h with own := .owned p, handover := none } }.reply d 0x1B)) ∧
    (∀ p, h.own = .owned p → h.up p = false → ∃ t : State, exec .linkDownTimeout s = .next t ∧ free t ∧
      t.hilum.errors.linkDowns = h.errors.linkDowns + 1) ∧
    (∀ p : BitVec 1, exec (.portLinkDown p) s = .next { s with hilum := { h with linkUp := h.linkUp.set p.toNat false p.isLt } } ∧
      exec (.portLinkUp p) s = .next { s with hilum := { h with linkUp := h.linkUp.set p.toNat true p.isLt } })

/-- R343, R386, R399, R407, R408, R412: the queries answer OK and change nothing but their ring and buffer: IDENTIFY begins with the
part number and gives BOOTS and the ownership state; ATTEST signs a report of 103 words; QUERY_MAP, QUERY_JOB, READ_DIGEST, READ_UTIL
and READ_ERRORS give what their rules name, READ_UTIL of a slot that is not verified zero counts, and of a slot beyond the sixteen
BAD_RECORD. The places of the fields that no rule lays out are the model's (log 29). Where the manual is silent it follows the model's
readings (log 29, 62). -/
def Obligations.QueriesAnswer : Prop :=
  ∀ (s : State) (c : Cmd),
    (∀ p, c.ring = .mgmt p → ∃ b, exec (.identify c) s = .next (s.reply c 0 0 [] b) ∧
      b.take 6 = ascii "CG-W72" ∧ ofBytes ((b.drop 14).take 8) = s.hilum.boots % 2 ^ 64 ∧
      ofBytes ((b.drop 22).take 8) = (match s.hilum.own with
        | .unowned => 0
        | .owned q => 1 + q.toNat
        | .pending q => 3 + q.toNat) ∧
      (b.drop 30) = Config.publicKey ++ Config.certificate) ∧
    (onMgmt s c →
      (∃ b, exec (.attest c) s = .next (s.reply c 0 0 [] (b ++ Config.signature (shake256 b 64))) ∧ b.length = 824 ∧ (Config.signature (shake256 b 64)).length = 1280 ∧
        ofBytes (b.take 8) = 1 + c.port.toNat * 2 ^ 8 + s.hilum.ownCode * 2 ^ 9 + s.hilum.boots % 2 ^ 32 * 2 ^ 32) ∧
      (∀ j, s.jobOf (par c 0) = some j → ∃ b, exec (.queryJob c) s = .next (s.reply c 0 j.jobid [] b) ∧
        b.length = 8 * (2 + 4 * 64 + 4) ∧ ofBytes ((b.drop 8).take 8) = (j.thr + j.thrFrom / 1024 * 1024) % 2 ^ 64) ∧
      (s.jobOf (par c 0) = none → exec (.queryJob c) s = .next (s.reply c 0x1A)) ∧
      (parN c 0 + parN c 1 ≤ 4608 → ∃ b, exec (.queryMap c) s = .next (s.reply c 0 0 [] b) ∧
        b.length = 16 * parN c 1 + 256 ∧ ∀ i, i < parN c 1 →
          ofBytes ((b.drop (16 * i)).take 8) = (s.quad (parN c 0 + i)).mapEntry.toNat ∧
          ofBytes ((b.drop (16 * i + 8)).take 8) = (s.quad (parN c 0 + i)).clockWord.toNat) ∧
      (parN c 0 < 16 → let q := s.hilum.ring (.queue (BitVec.ofNat 4 (parN c 0)))
        exec (.readDigest c) s = .next (s.reply c 0 0 q.chain (bytesOf 8 q.count))) ∧
      (∀ j, 2 ^ 63 ≤ parN c 0 → s.jobOf (par c 1) = some j → exec (.readDigest c) s = .next (s.reply c 0 j.jobid j.digest)) ∧
      (∀ i, s.hilum.images.toList[parN c 0]? = some i →
        exec (.readUtil c) s = .next (s.reply c 0 0 [] (wordBytes (i.utilTable.flatMap fun e =>
          BitVec.ofNat 64 (e.1 + e.2.1 * 2 ^ 16) :: e.2.2.map (BitVec.ofNat 64 ·)))) ∧
        ∀ im, i.image = some im → ∀ n g l, (n, g, l) ∈ i.utilTable ↔ ∃ d, im.nodes[n]? = some d ∧ ndKind d = 0 ∧ g < 4 * ndGw d * ndGh d ∧
          l = ((if i.verified then (i.util.find? fun e => e.1 == n && e.2.1 == g).map (·.2.2) else none).getD (List.replicate 6 0))) ∧
      (16 ≤ parN c 0 → exec (.readUtil c) s = .next (s.reply c 0x11)) ∧
      (∃ b, exec (.readErrors c) s = .next (s.reply c 0 0 [] b) ∧
        ofBytes (b.take 8) = s.hilum.errors.linkDowns % 2 ^ 64 ∧ ofBytes ((b.drop 8).take 8) = s.hilum.errors.noreg % 2 ^ 64))

/-- R338, R344, R399, R400, R403, R404: LOAD_IMAGE fills a slot that no job names and answers its digest; a slot beyond the sixteen and a
length of zero, above 2 GiB or not of whole lines complete with BAD_RECORD, and a slot that a job names with BUSY; VERIFY_IMAGE takes the
digest that it is given where it is the slot's; ADMIT and LAUNCH make the entry of their answer, put the record at the end of its class
queue, and run admission; LAUNCH of a held job releases it; RESTORE of an ended job submits the record that inherits its pages, in mode
1 to resume from its last complete checkpoint, and completes with BAD_STATE where the mode's requirement fails.
Where the manual is silent it follows the model's readings (log 6, 50, 69, 70). -/
def Obligations.ImagesAndRecordsAreTaken : Prop :=
  ∀ (s : State) (c : Cmd), onQueue s c →
    let queued (u : State) (j : Job) : Prop := u.launches = s.launches + 1 ∧
      (∃ k, u.jobs.getLast? = some k ∧ k.same j = true ∧ k.state = .waiting ∧ k.hold = j.hold ∧ k.record = j.record ∧
        k.pages = j.pages ∧ k.kept = j.kept ∧ k.plan = j.plan ∧ k.resuming = j.resuming ∧ k.checkpoints = j.checkpoints) ∧
      j.serial = s.launches ∧ (∀ r, u.hilum.ring r = (s.reply c 0 j.jobid).hilum.ring r) ∧
      ∀ i : Fin 4, u.hilum.admission[i] = s.hilum.admission[i] ++ if i.val = j.cls then [j.serial] else []
    let record (n : Nat) : List Word := (List.range 8).map fun i => par c (n + i)
    (parN c 0 < 16 → 0 < parN c 2 → parN c 2 ≤ 2 ^ 31 → parN c 2 % 64 = 0 → s.slotBusy (parN c 0) = false →
      ∃ t : State, exec (.loadImage c) s = .next (t.reply c 0 0 (digest256 c.data)) ∧ t = { s with hilum := t.hilum } ∧
        t.hilum.images.toList[parN c 0]? =
          some { image := c.image, digest := digest256 c.data, verified := false, util := [] } ∧
        ∀ n, n ≠ parN c 0 → t.hilum.images.toList[n]? = s.hilum.images.toList[n]?) ∧
    (16 ≤ parN c 0 ∨ parN c 2 = 0 ∨ 2 ^ 31 < parN c 2 ∨ parN c 2 % 64 ≠ 0 → exec (.loadImage c) s = .next (s.reply c 0x11)) ∧
    (parN c 0 < 16 → 0 < parN c 2 → parN c 2 ≤ 2 ^ 31 → parN c 2 % 64 = 0 → (∃ j ∈ s.jobs, j.state ≠ .ended ∧ j.imageNo = parN c 0) →
      exec (.loadImage c) s = .next (s.reply c 0x19)) ∧
    (16 ≤ parN c 0 → exec (.verifyImage c) s = .next (s.reply c 0x11)) ∧
    (∀ i, s.hilum.images.toList[parN c 0]? = some i → i.digest ≠ [] →
      (i.digest = wordBytes ((c.params.drop 1).take 4) → ∃ t : State, exec (.verifyImage c) s = .next (t.reply c 0) ∧
        t.hilum.images.toList[parN c 0]? = some { i with verified := true }) ∧
      (i.digest ≠ wordBytes ((c.params.drop 1).take 4) → exec (.verifyImage c) s = .next (s.reply c 0x12))) ∧
    (∃ (u : State) (j : Job), exec (.admitJob c) s = .next u.runAdmission ∧ queued u j ∧ j.hold = true ∧ j.record = record 0 ∧
      j.jobid = par c 6 ∧ j.ctag = c.ctag ∧ j.plan = planOf c) ∧
    (parN c 0 < 2 ^ 63 → ∃ (u : State) (j : Job), exec (.launch c) s = .next u.runAdmission ∧ queued u j ∧ j.hold = false ∧ j.record = record 0 ∧
      j.jobid = par c 6 ∧ j.ctag = c.ctag ∧ j.plan = planOf c) ∧
    (∀ j, 2 ^ 63 ≤ parN c 0 → s.jobOf (par c 1) = some j → j.state = .held → ∃ t : State, exec (.launch c) s =
      .next (t.reply c 0 j.jobid) ∧ t.hilum = s.hilum ∧
        ∃ k ∈ t.jobs, k.same j = true ∧ k.state = .loaded ∧ k.hold = false ∧ k.loadedAt = some s.tick) ∧
    (∀ old, s.jobOf (par c 0) = some old → let new : Job := { jobid := par c 7, record := record 1 }
      let same := old.p2m = new.p2m ∧ old.p2g = new.p2g
      let fits := old.imageNo = new.imageNo ∧ old.width = new.width ∧ old.height = new.height ∧ ∃ k ∈ old.checkpoints, k.complete = true
      let takes (u : State) (j : Job) : Prop := queued u j ∧ j.record = record 1 ∧ j.jobid = par c 7 ∧
        (∀ k ∈ u.jobs, k.same old = true → k.state ≠ .ended) ∧
        (if new.dual = true then j.pages = [] ∧ j.kept = old.pages else j.pages = old.pages ∧ j.kept = [])
      (old.state = .ended → parN c 9 = 0 → same → ∃ (u : State) (j : Job), exec (.restore c) s = .next u.runAdmission ∧ takes u j ∧
        j.resuming = false ∧ j.checkpoints = []) ∧
      (old.state = .ended → parN c 9 = 1 → fits → ∃ (u : State) (j : Job), exec (.restore c) s = .next u.runAdmission ∧ takes u j ∧
        j.resuming = true ∧ j.checkpoints = old.checkpoints.filter (·.complete) ∧ j.ckNum = old.ckNum) ∧
      (old.state ≠ .ended ∨ (parN c 9 = 0 ∧ ¬same) ∨ (parN c 9 = 1 ∧ ¬fits) ∨ 1 < parN c 9 →
        exec (.restore c) s = .next (s.reply c 0x17 old.jobid)))

/-- R387, R399, R401, R402, R404, R414, R422: CANCEL of a running or pre-empted job decides its end CANCELLED; a waiting or held one leaves,
with an entry CANCELLED on its ring at once, and an ended one is gone with its pages; PREEMPT holds out a running job of a lower class, and
asks the other members where it is a pod job; MIGRATE_OUT and CHECKPOINT ask for the next checkpoint; RETIRE_UNIT asks for its tile or quad;
COPY_IN and COPY_OUT move the pages of a held job; SET_TIME sets TICK, and in a pod answers BAD_STATE.
Where the manual is silent it follows the model's readings (log 44, 50, 53). -/
def Obligations.JobCommandsAct : Prop :=
  ∀ (s : State) (c : Cmd) (j : Job), onQueue s c →
    let live (k : Job) : Prop := k.jobid = j.jobid ∧ k.serial = j.serial ∧ k.state ≠ .ended
    let r := s.reply c 0 j.jobid
    let gone (t : State) : Prop := ∀ k ∈ t.jobs, ¬(k.jobid = j.jobid ∧ k.serial = j.serial)
    let entered (t : State) : Prop := (r.hilum.ring j.ring).waiting.length < 1024 → ∃ e : Entry,
      (t.hilum.ring j.ring).waiting = (r.hilum.ring j.ring).waiting ++ [e] ∧ e.words.getD 0 0 = j.jobid ∧
        (e.words.getD 1 0).toNat % 2 ^ 16 = 0x03
    (s.jobOf (par c 0) = some j →
      (j.state = .running ∨ j.state = .preempted → j.ending = none → ∃ t : State, exec (.cancel c) s = .next t ∧ t.hilum = r.hilum ∧
        t.tile = s.tile ∧ ∃ k ∈ t.jobs, live k ∧ k.breakAsk = true ∧
          k.ending = some (j.ref + treeDelay j.width j.height, 0x03, 0, [])) ∧
      (j.state = .waiting → ∃ t : State, exec (.cancel c) s = .next t.runAdmission ∧ gone t ∧ entered t ∧
        t.tile = s.tile ∧ ∀ i : Fin 4, t.hilum.admission[i] =
          if i.val = j.cls then (s.hilum.admission[i]).erase j.serial else s.hilum.admission[i]) ∧
      (j.state = .held → j.twin = none → ∃ t : State, exec (.cancel c) s = .next t.runAdmission ∧ gone t ∧ entered t ∧
        (∀ u ∈ t.tiles, j.ltids.contains u.ltid = true → u.ct.isOf j.pid = false) ∧ t.hilum.admission = s.hilum.admission) ∧
      (j.state = .ended → ∃ t : State, exec (.cancel c) s = .next t.runAdmission ∧ t = { r with jobs := t.jobs } ∧
        t.jobs = s.jobs.filter fun k => !(k.jobid == j.jobid && k.serial == j.serial)) ∧
      (j.state = .running → (s.hilum.ring c.ring).cls < j.cls → j.preempting = false → j.preemptAt = none →
        ∃ t : State, exec (.preempt c) s = .next (t.reply c 0 j.jobid) ∧ ∃ k ∈ t.jobs, live k ∧ k.heldOut = true ∧
          if j.plan = [] then k.preemptAt = some (j.ref + treeDelay j.width j.height) else k.preemptAsk = true) ∧
      (j.state = .running → j.cls ≤ (s.hilum.ring c.ring).cls → exec (.preempt c) s = .next (s.reply c 0x17 j.jobid)) ∧
      (∀ im, j.state = .running → s.imageOf j = some im → imageCkpt im = true → ∃ t : State, exec (.migrateOut c) s =
        .next (t.reply c 0 j.jobid) ∧ ∃ k ∈ t.jobs, live k ∧ k.migrate = true) ∧
      (j.state = .running → ∃ t : State, exec (.checkpoint c) s = .next (t.reply c 0 j.jobid (bytesOf 8 (j.ckNum + 1))) ∧
        ∃ k ∈ t.jobs, live k ∧ k.ckAsked = true) ∧
      (j.state = .held → j.copyOk (parN c 1) (parN c 3) = true → memWf j.dram.pub = true → ∃ (t : State) (d : List Byte), exec (.copyIn c) s =
        .next (t.reply c 0 j.jobid d) ∧ d = digest256 (c.data.take (parN c 3)) ∧ ∃ k ∈ t.jobs, live k ∧ ∀ a, memGet k.dram.pub a =
          if parN c 1 ≤ a ∧ a < parN c 1 + (c.data.take (parN c 3)).length then c.data.getD (a - parN c 1) 0
          else memGet j.dram.pub a) ∧
      (j.state = .held ∨ j.state = .ended → j.copyOk (parN c 1) (parN c 3) = true → ∃ t : State, exec (.copyOut c) s =
        .next (t.reply c 0 j.jobid) ∧ t = { s with hilum := t.hilum } ∧
        t.hilum.bufs = (par c 2, (List.range (parN c 3)).map fun i => memGet j.dram.pub (parN c 1 + i)) :: s.hilum.bufs)) ∧
    (parN c 0 < 23040 → ∃ t : State, exec (.retireUnit c) s = .next (t.reply c 0) ∧ BitVec.ofNat 32 (parN c 0) ∈ t.retireAsk ∧
      (∀ u ∈ s.retireAsk, u ∈ t.retireAsk) ∧ t.tile = s.tile) ∧
    (∀ q p, q < 4608 → p < 5 → parN c 0 = 2 ^ 15 + 5 * q + p → ∃ t : State, exec (.retireUnit c) s = .next (t.reply c 0) ∧
      t = { s with retireAsk := t.retireAsk } ∧ BitVec.ofNat 32 (2 ^ 15 + 5 * q) ∈ t.retireAsk ∧ ∀ u ∈ s.retireAsk, u ∈ t.retireAsk) ∧
    (1 < s.pod.members.length → exec (.setTime c) s = .next (s.reply c 0x17)) ∧
    (s.pod.members.length ≤ 1 →
      (s.wcyc < parN c 1 → exec (.setTime c) s = .next ({ s with timeAt := some (parN c 0, parN c 1) }.reply c 0)) ∧
      (parN c 1 = s.wcyc → exec (.setTime c) s = .next ({ s with tick := parN c 0, timeAt := none }.reply c 0)))

/-- R409, R411, R407, R386: a trip leaves the module without power, and a step stuck until POWER_GOOD; POWER_GOOD and a reset begin a
boot in which nothing of a job, a memory or an owner is left, and of the quads the fuse maps alone; at the boot's end the tile position
that failed its test is quarantined, and each chain is D(0).
Where the manual is silent it follows the model's readings (log 45, 51, 62). -/
def Obligations.PowerAndResetClearTheModule : Prop :=
  (∀ s : State, let clear (t : State) : Prop := t.jobs = [] ∧ t.tile = {} ∧ t.others = [] ∧ t.commons = [] ∧ t.arms = [] ∧
      t.wcyc = 0 ∧ t.tick = 0 ∧ t.hilum.own = .unowned ∧ t.hilum.booting = true ∧ t.hilum.images = Vector.replicate 16 {} ∧
      ∀ n, t.quad n = { fused := (s.quad n).fused }
    (∃ t : State, exec .carrierTrip s = .next t ∧ clear t ∧ t.power.on = false ∧ (t.inbox = [] → step t = .fault .noPower)) ∧
    (∃ t : State, exec .powerGood s = .next t ∧ clear t ∧ t.power.on = true ∧ t.hilum.boots = s.hilum.boots + 1) ∧
    (∃ t : State, exec .moduleReset s = .next t ∧ clear t ∧ t.power.on = true ∧ t.hilum.boots = s.hilum.boots + 1 ∧
      t.hilum.linkUp = s.hilum.linkUp)) ∧
  (∀ (s : State) (b : BootTest), s.hilum.booting = true →
    exec (.unitRetirement (.tests b)) s = .next { s with hilum := { s.hilum with test := b } }) ∧
  (∀ (s : State) (q p : Nat), s.hilum.booting = true → (∀ e ∈ s.quads, e.2.fused = false) → q < 4608 → p < 5 →
    s.hilum.test = { positions := [(q, p)] } → ∃ t : State, exec .bootComplete s = .next t ∧ (∀ n, n ≠ q → t.quad n = s.quad n) ∧
      (t.quad q).quar = (s.quad q).quar ||| BitVec.ofNat 5 (2 ^ p)) ∧
  (∀ s : State, s.hilum.booting = true → ∃ t : State, exec .bootComplete s = .next t ∧ t.hilum.booting = false ∧
    t.tile = s.tile ∧ t.jobs = s.jobs ∧ ∀ i : Fin 16, t.hilum.queues[i] = { s.hilum.queues[i] with
      chain := digest256 (ascii "CORTAL CHAIN" ++ bytesOf 1 i.val ++ bytesOf 8 s.hilum.boots), count := 0 })

/-- R404, R393, R398, R409, R394-R398: the rings, and answers of commands.
Where the manual is silent it follows the model's readings (log 28, 50, 51, 65). -/
def Obligations.RingsCarryCommandsAndAnswers : Prop := answersMakeOneEntry ∧ commandsAreTurnedAway ∧ ringsMoveTheirEntries

/-! ### The pod (R412-R425) -/

/-- R412-R414, R424: a member that joins takes the lowest free pod id, and the delays of its links count in FL; a module that is not the
grandmaster steers its grid by at most 100 ppm, and after joining takes the pod's TICK; a lost grandmaster is followed by the lowest id
left; a lost member ends the jobs it took part in with ROLLBACK, those that have not started with their entry, and no port has it for its
peer; a second lost lane, or a failed port, fails the port: a job that sends on it rolls back, its streams on their alternates from the
restart, where all of them have one that works, and else ends with ROLLBACK. -/
def Sys2Proof.Safety.membersComeAndGo : Prop :=
  ∀ s : State,
    (∀ id : BitVec 6, s.hilum.booting = false → (∀ i, i < id.toNat → i ∈ s.pod.members) → id.toNat ∉ s.pod.members →
      exec (.podJoin { id := id }) s = .next { s with pod := { s.pod with members := s.pod.members ++ [id.toNat], fl := max s.pod.fl 16 } } ∧
      ∀ k pk d far, k < 32 → d ≤ 4096 → far ≤ 4096 → ∃ t : State,
        exec (.podJoin { id := id, links := [(k, pk, d)], delays := [far] }) s = .next t ∧ t = { s with pod := t.pod } ∧
        t.pod.members = s.pod.members ++ [id.toNat] ∧ t.pod.portWord k = BitVec.ofNat 64 (2 ^ 63 + id.toNat + pk * 2 ^ 8) ∧
        d ≤ t.pod.fl ∧ far ≤ t.pod.fl ∧ s.pod.fl ≤ t.pod.fl) ∧
    (∀ member, s.hilum.booting = true → exec (.podJoin member) s = .next s) ∧
    (∀ (ppm : Int) (tick : Nat), tick < 2 ^ 64 → 2 ≤ s.pod.members.length → s.pod.grandmaster ≠ s.pod.id → ∃ z : Int, -100 ≤ z ∧ z ≤ 100 ∧
      (-100 ≤ ppm → ppm ≤ 100 → z = ppm) ∧ exec (.ptpMessage { ppm := ppm, tick := tick }) s = .next { s with
        tick := if s.pod.synced then s.tick else tick, pod := { s.pod with ppm := z, synced := true } }) ∧
    (s.pod.grandmaster ≠ s.pod.id → s.pod.id ∈ s.pod.members → (∀ m ∈ s.pod.members, m < 64) →
      ∃ t : State, exec .grandmasterLoss s = .next t ∧ t.pod.grandmaster ∈ s.pod.members ∧ t.pod.grandmaster ≠ s.pod.grandmaster ∧
        ((∀ j ∈ s.jobs, bit (j.plan.getD 0 0).toNat s.pod.grandmaster = false) → t = { s with pod := t.pod }) ∧
        ∀ m ∈ s.pod.members, m ≠ s.pod.grandmaster → t.pod.grandmaster ≤ m) ∧
    (∀ id : BitVec 6, id.toNat ≠ s.pod.id → id.toNat ∈ s.pod.members → let hit (j : Job) : Prop := bit (j.plan.getD 0 0).toNat id.toNat = true
      (∃ t : State, exec (.podMemberLost id) s = .next t ∧ id.toNat ∉ t.pod.members ∧ ∀ k, t.pod.beyond k ≠ some id.toNat) ∧
      ((∀ j ∈ s.jobs, hit j → (j.state = .running ∨ j.state = .preempted) ∧ j.place = 0 ∧
          ∀ k ∈ s.jobs, k.jobid = j.jobid → k.serial = j.serial → k = j) →
        ∃ t : State, exec (.podMemberLost id) s = .next t ∧ t.tile = s.tile ∧ t.jobs = s.jobs.map fun j =>
          if hit j then { j with ending := j.ending.orElse fun _ => some (j.ref + treeDelay j.width j.height, 0x23, 0, []) } else j) ∧
      (∀ j, s.podJobs.filter (fun j => bit (j.plan.getD 0 0).toNat id.toNat) = [j] →
        (∀ k ∈ s.jobs, k.jobid = j.jobid → k.serial = j.serial → k = j) →
        (j.state = .loaded ∨ j.state = .held → endsPlainly s j → ∃ t : State, exec (.podMemberLost id) s = .next t ∧
          jobEnded s t j 0x23 [0, 0, 0, 0]) ∧
        (j.state = .waiting → j.replacing = false → (s.hilum.ring j.ring).waiting.length < 1024 → ∃ (u : State) (e : Entry),
          exec (.podMemberLost id) s = .next u.runAdmission ∧ (∀ k ∈ u.jobs, ¬(k.jobid = j.jobid ∧ k.serial = j.serial)) ∧
          (u.hilum.ring j.ring).waiting = (s.hilum.ring j.ring).waiting ++ [e] ∧ e.words.getD 0 0 = j.jobid ∧
          (e.words.getD 1 0).toNat % 2 ^ 16 = 0x23))) ∧
    (∀ port, port < 32 →
      (∃ t : State, exec (.fabricPortFail port) s = .next t ∧ t.pod.works port = false ∧ t.pod.portWord port = 0 ∧
        ∀ k, k ≠ port → t.pod.works k = s.pod.works k) ∧
      ∀ j, s.podJobs = [j] → j.state = .running → (∀ k ∈ s.jobs, k.jobid = j.jobid → k.serial = j.serial → k = j) →
        let es := (planStreams j.plan).filter fun e => s.pod.carries port e (j.portOf e)
        (es = [] → ∃ t : State, exec (.fabricPortFail port) s = .next t ∧ t = { s with pod := t.pod }) ∧
        (es ≠ [] → (∀ e ∈ es, strmSpod e = s.pod.id ∧ j.portOf e = port ∧ strmAltv e = true ∧ strmAlt e ≠ port ∧
            s.pod.works (strmAlt e) = true) →
          ∃ t k, exec (.fabricPortFail port) s = .next t ∧ t.tile = s.tile ∧ k ∈ t.jobs ∧ k.same j = true ∧
            (∀ e ∈ es, strmPort e ∈ k.altsNext) ∧ k.alts = j.alts ∧ k.ending = j.ending ∧
            (j.rolling = none → k.rolling = some (j.ref + treeDelay j.width j.height) ∧ k.breakAsk = true)) ∧
        ((∃ e ∈ es, strmAltv e = false) → j.ending = none → ∃ t k, exec (.fabricPortFail port) s = .next t ∧ t.tile = s.tile ∧
          k ∈ t.jobs ∧ k.same j = true ∧ k.ending = some (j.ref + treeDelay j.width j.height, 0x23, 0, []))) ∧
    (∀ port lane, port < 32 → lane < 9 → (∀ e ∈ s.pod.ports, e.1 ≠ port) → ∃ t : State, exec (.fabricLaneFail port lane) s = .next t ∧
      t.pod.works port = true ∧ t.pod.ports.find? (fun e => e.1 == port) = some (port, { lanes := [lane] }) ∧
      ∃ u : State, exec (.fabricLaneFail port ((lane + 1) % 9)) t = .next u ∧ u.pod.works port = false)

/-- R341, R383, R401, R415, R419, R421, R422, R425: a pod job starts at the tick agreed, ends when another member ends it, CANCEL of one
member included, takes the largest THR asked for from a beacon 4,096 cycles after the request, is pre-empted at a tick, counts a checkpoint
as common that every member has complete, and with it the rollbacks to one anew, and rolls back to the common one when another member does;
the lines of a batch leave in the stream's slots; a batch that arrives is published for every observer at once at P + LF, on a member that
is switched out too, and does not enter the digest; in every 1,024th cycle of the count a beacon leaves on every port that carries a
stream; one that agrees changes nothing, one that differs is counted for its port and asks for a rollback, and where CALIGN .pod has armed
the member its counts move to the lead member's. -/
def Sys2Proof.Safety.podJobsRun : Prop :=
  (∀ (s : State) (jobid tick : Word) (j : Job) (im : Image),
    s.jobs.find? (fun j => j.jobid == jobid && !j.plan.isEmpty && j.state != .ended) = some j → s.startsNow j = true → s.tick = tick.toNat →
    s.imageOf j = some im → j.resuming = false → ∃ t : State, exec (.podJobStart jobid (.start tick)) s = .next t ∧
      ∃ k ∈ t.jobs, k.same j = true ∧ k.state = .running ∧ k.ref = 0 ∧ k.startWcyc = s.wcyc ∧
        k.strands = [{ num := 0, node := im.entry, ready := 32 + treeDelay j.width j.height, cw := 0 }]) ∧
  (∀ (s : State) (jobid : Word) (j : Job),
    s.jobs.find? (fun j => j.jobid == jobid && !j.plan.isEmpty && j.state != .ended) = some j → j.state = .running →
    (∀ st, st ≠ 0x03 → j.ending = none → ∃ t : State, exec (.podJobStart jobid (.ended st)) s = .next t ∧ t.tile = s.tile ∧
      ∃ k ∈ t.jobs, k.same j = true ∧ k.ending = some (j.ref + treeDelay j.width j.height, st, 0, [])) ∧
    (j.ending = none → ∃ t : State, exec (.podJobStart jobid (.ended 0x03)) s = .next t ∧ t.tile = s.tile ∧
      ∃ k ∈ t.jobs, k.same j = true ∧ k.ending = some (j.ref + treeDelay j.width j.height, 0x03, 0, []) ∧ k.breakAsk = true) ∧
    (∀ thr w, thr ≤ 12 → j.thrAsk ≤ 12 → let from_ := max (max w s.wcyc) (match j.thrAskAt with
        | some a => a + 4096
        | none => 0)
      ∃ t : State, exec (.podJobStart jobid (.throttle thr w)) s = .next t ∧ t.tile = s.tile ∧
      ∃ k ∈ t.jobs, k.same j = true ∧ k.thr = j.thr ∧ k.thrNext = some (max thr j.thrAsk, (from_ + 1023) / 1024 * 1024)) ∧
    (s.wcyc % 1250 ≠ 0 → exec (.podJobStart jobid .preempt) s = .next s) ∧
    (s.wcyc % 1250 = 0 → j.preempting = false → ∃ t : State, exec (.podJobStart jobid .preempt) s = .next t ∧ t.tile = s.tile ∧
      ∃ k ∈ t.jobs, k.same j = true ∧ k.preempting = true ∧ k.preemptFrom = j.ref) ∧
    (∀ n, ∃ t : State, exec (.podJobStart jobid (.checkpoint n)) s = .next t ∧ t.tile = s.tile ∧ ∃ k ∈ t.jobs, k.same j = true ∧
      if j.podNum < n ∧ ∃ c ∈ j.checkpoints, c.num = n ∧ c.complete = true then k.podNum = n ∧ k.rollbacks = 0
        else k.podNum = j.podNum ∧ k.rollbacks = j.rollbacks) ∧
    ∀ n, j.rolling = none → ∃ t : State, exec (.podJobStart jobid (.rollback n)) s = .next t ∧ t.tile = s.tile ∧ ∃ k ∈ t.jobs,
      k.same j = true ∧ k.rollTo = some n ∧ k.rolling = some (j.ref + treeDelay j.width j.height) ∧ k.breakAsk = true) ∧
  (∀ (s : State) (n : Nat) (j : Job) (e : List Word), s.stream n = some (j, e) →
    (∀ b, s.pod.batches.find? (fun b => b.stream == n) = some b →
      let k := min b.lines.length (strmSlots e * (j.ref - b.at_) / 16)
      ∃ t : State, exec (.fabricSlotSend n) s = .next t ∧ t = { s with pod := t.pod } ∧
        t.pod.out = (((b.lines.take k).drop b.sent).map fun l => (n, l)).reverse ++ s.pod.out ∧
        (k = b.lines.length → t.pod.batches = s.pod.batches.erase b) ∧
        (k < b.lines.length → t.pod.batches = s.pod.batches.replace b { b with sent := max k b.sent })) ∧
    (∀ im r a v at_, s.imageOf j = some im → im.regions[strmDreg e]? = some r → strmDpod e = s.pod.id → r.space = 2 →
      a % 64 = 0 → r.base ≤ a → a < r.base + r.size → memWf j.dram.pub = true →
      let due := at_ + (640 + s.pod.fl + (16 * strmLines e + strmSlots e - 1) / strmSlots e)
      (j.ref < due → ∃ t : State, exec (.fabricBatchPublish n { at_ := at_, lines := [(a, v)] }) s = .next t ∧ t = { s with pod := t.pod } ∧
        ∃ b ∈ t.pod.incoming, b.stream = n ∧ b.at_ = at_ ∧ b.lines = [(a, v)]) ∧
      (due ≤ j.ref → ∃ (t : State) (k : Job), exec (.fabricBatchPublish n { at_ := at_, lines := [(a, v)] }) s = .next t ∧ t.tile = s.tile ∧ k ∈ t.jobs ∧ k.same j = true ∧
        k.digest = j.digest ∧ k.published = j.published ∧ ∀ b, memGet k.dram.pub b =
          if a ≤ b ∧ b < a + 64 then BitVec.ofNat 8 (v.toNat / 2 ^ (8 * (b - a))) else memGet j.dram.pub b))) ∧
  (∀ (s : State) (src : BeaconSource) (count slots : Word) (j : Job),
    s.jobs.find? (fun j => j.jobid == src.jobid && j.state == .running && !j.plan.isEmpty) = some j →
    let own := j.ref / 1024 * 1024
    let passed := own / 16 * (((planStreams j.plan).filter fun e => s.pod.carries src.port e (j.portOf e)).map strmSlots).sum
    (j.podArmed = false → count.toNat = own → slots.toNat = passed → exec (.fabricBeacon src count slots) s = .next s) ∧
    (j.podArmed = false → count.toNat ≠ own ∨ slots.toNat ≠ passed → j.rolling = none →
      ∃ t : State, exec (.fabricBeacon src count slots) s = .next t ∧ t.tile = s.tile ∧
      (∀ n, s.hilum.errors.fabric.find? (·.1 == src.port) = some (src.port, n) →
        t.hilum.errors.fabric.find? (·.1 == src.port) = some (src.port, n + 1)) ∧
      ∃ k ∈ t.jobs, k.same j = true ∧ k.rolling = some (j.ref + treeDelay j.width j.height)) ∧
    (∀ m, j.podArmed = true → j.lead = some m → m ≠ s.pod.id → s.pod.beyond src.port = some m →
      ∃ t : State, exec (.fabricBeacon src count slots) s = .next t ∧
      (∃ k ∈ t.jobs, k.same j = true ∧ k.podArmed = false ∧ k.ref = j.ref + count.toNat - own) ∧
      (s.tile.ct.isOf j.pid = true → t.tile.ct.now = s.tile.ct.now + count.toNat - own))) ∧
  (∀ (s : State) (j : Job) (e : List Word) (port : Nat), j ∈ s.jobs → j.plan ≠ [] → s.delivers j = true → j.ref % 1024 = 0 →
    e ∈ planStreams j.plan → port < 32 → s.pod.carries port e (j.portOf e) = true →
    (port, j.jobid, j.ref, j.ref / 16 * (((planStreams j.plan).filter fun e => s.pod.carries port e (j.portOf e)).map strmSlots).sum) ∈
      (advance s).pod.beacons)

/-- R341, R412-R425: the pod as one of its modules sees it.
Where the manual is silent it follows the model's readings (log 52, 63, 66). -/
def Obligations.ThePodRunsItsJobs : Prop := membersComeAndGo ∧ podJobsRun

/-! ### What every step keeps -/

/-- R392, R397: while the module is unowned, no queue is enabled and none has a completion ring; a HANDOVER waits only while a
transfer is pending. -/
def Sys2Proof.Safety.ownershipOk (s : State) : Prop :=
  (s.hilum.own = .unowned → ∀ i : Fin 16, (s.hilum.queues[i]).enabled = false ∧ (s.hilum.queues[i]).csize = 0) ∧
  (s.hilum.handover.isSome = true → ∃ p, s.hilum.own = .pending p)

/-- R304, R314, R410: THR is never above 12, nor is one to come, and no count of a clock word passes 255. -/
def Sys2Proof.Safety.boundsOk (s : State) : Prop :=
  (∀ j ∈ s.jobs, j.thr ≤ 12 ∧ ∀ n w, j.thrNext = some (n, w) → n ≤ 12) ∧ ∀ e ∈ s.quads, e.2.drifts ≤ 255 ∧ e.2.slips ≤ 255

/-- The invariants hold right after reset. -/
def Obligations.ResetMeetsTheInvariants : Prop :=
  State.reset.memOk = true ∧ ownershipOk State.reset ∧ boundsOk State.reset

/-- R199, R206, R283, R346, R364: every step keeps every memory of the machine in its canonical form. -/
def Obligations.StepsKeepMemoriesCanonical : Prop :=
  ∀ s t : State, s.memOk = true → step s = .next t → t.memOk = true

/-- R392, R397: every step keeps the queues of an unowned module closed. -/
def Obligations.StepsKeepUnownedQueuesClosed : Prop :=
  ∀ s t : State, ownershipOk s → step s = .next t → ownershipOk t

/-- R304, R314, R410: every step keeps THR and the counts of the clock words within their bounds. -/
def Obligations.StepsKeepThrottlesAndCountsBounded : Prop :=
  ∀ s t : State, boundsOk s → step s = .next t → boundsOk t
end

