-- ==== Sys2Proof/Laws/Complete.lean ====
section
/-!
SUPPORT. No instruction stops: for every constructor of Instr, exec answers a next state in every state.
-/
namespace Sys2Proof.Machine

/-- The outcome is a next state. -/
def Completes (r : Out) : Prop := ∃ t, r = .next t

theorem next_completes (t : State) : Completes (.next t) := ⟨t, rfl⟩
theorem onTile_completes (f : Tile → Tile) (s : State) : Completes (onTile f s) := ⟨_, rfl⟩
theorem trapOut_completes (c : Cause) (v n : Nat) (s : State) : Completes (trapOut c v n s) := ⟨_, rfl⟩

/-- A meaning that traps on its first fault answers a next state where what it does else answers one. -/
theorem checked_completes (faults : State → List (Option (Cause × Nat))) (n : Nat) (f : State → Out) (s : State)
    (h : Completes (f s)) : Completes (checked faults n f s) := by
  unfold checked; split
  · exact trapOut_completes ..
  · exact h

theorem guardOr_completes (f : State → Out) (s : State) (h : Completes (f s)) : Completes (guardOr f s) := by
  unfold guardOr; split
  · exact trapOut_completes ..
  · exact h

theorem prepare_completes (n : BitVec 3) (target : Nat) (ok : Bool) (s : State) : Completes (prepare n target ok s) := by
  unfold prepare; split <;> exact ⟨_, rfl⟩

theorem transfer_completes (o : BX) (taken : State → Bool) (also : Tile → Tile) (s : State) : Completes (transfer o taken also s) := by
  unfold transfer; dsimp only; repeat' first | exact ⟨_, rfl⟩ | split

theorem enterLoop_completes (o : LP) (x : Ext) (n stages : Nat) (pipelined : Bool) (s : State) : Completes (enterLoop o x n stages pipelined s) := by
  unfold enterLoop; dsimp only; repeat' first | exact ⟨_, rfl⟩ | split

theorem scalarOp_completes (lat : Nat) (o : RRR) (f : Word → Word → Word) (s : State) : Completes (scalarOp lat o f s) := ⟨_, rfl⟩

theorem scalarImm_completes (o : RI) (x : Ext) (f : Word → Word → Word) (s : State) : Completes (scalarImm o x f s) := ⟨_, rfl⟩

theorem decimalOp_completes (lat : Nat) (o : RRR) (f : Nat → Nat → Nat → FRes) (s : State) : Completes (decimalOp lat o f s) := ⟨_, rfl⟩

theorem floatOp_completes (lat : Nat) (o : RRR) (f : BFmt → Nat → Nat → Nat → FRes) (s : State) : Completes (floatOp lat o f s) := ⟨_, rfl⟩

theorem sendWindow_completes (w : WinOp) (s : State) : Completes (sendWindow w s) := by
  unfold sendWindow; dsimp only; split <;> exact ⟨_, rfl⟩

theorem runWindow_completes (w : WinOp) (s : State) : Completes (runWindow w s) := by
  unfold runWindow
  try dsimp only
  repeat' first | exact ⟨_, rfl⟩ | apply checked_completes | apply guardOr_completes | exact sendWindow_completes .. | split

theorem atomic_completes (code : Nat) (op : AtomOp) (o : MM) (x : Ext) (s : State) : Completes (atomic code op o x s) := by
  unfold atomic
  try dsimp only
  repeat' first | exact ⟨_, rfl⟩ | apply checked_completes | apply guardOr_completes | exact runWindow_completes ..

theorem notRegistered_completes (w : WinOp) (s : State) : Completes (notRegistered w s) := ⟨_, rfl⟩

theorem waitKnown_completes (w : WinOp) (lat : Nat) (v : Word) (logs : Bool) (s : State) : Completes (waitKnown w lat v logs s) := ⟨_, rfl⟩

theorem waitLogged_completes (w : WinOp) (e : LogEntry) (s : State) : Completes (waitLogged w e s) := ⟨_, rfl⟩

theorem barrierOp_completes (w : WinOp) (s : State) : Completes (barrierOp w s) := by
  unfold barrierOp
  try dsimp only
  repeat' first | exact ⟨_, rfl⟩ | apply checked_completes | apply guardOr_completes | exact runWindow_completes .. | exact notRegistered_completes .. | split

theorem drive_completes (o : CH) (vec : Bool) (data : Vec) (s : State) : Completes (drive o vec data s) := by
  unfold drive; dsimp only; split <;> exact ⟨_, rfl⟩

theorem tap_completes (o : CH) (vec : Bool) (d : Dest) (s : State) : Completes (tap o vec d s) := by
  unfold tap; split <;> exact ⟨_, rfl⟩

theorem multiply_completes (o : XM) (rows : Tile → List Nat) (m : Nat) (n : Tile → Nat) (s : State) : Completes (multiply o rows m n s) := checked_completes _ _ _ _ ⟨_, rfl⟩

theorem mgmtCommand_completes (c : Cmd) (f : State → State) (s : State) : Completes (mgmtCommand c f s) := by
  unfold mgmtCommand; split <;> exact ⟨_, rfl⟩

theorem queueCommand_completes (c : Cmd) (f : State → State) (s : State) : Completes (queueCommand c f s) := by
  unfold queueCommand; split <;> exact ⟨_, rfl⟩

theorem stage_completes (o : MM) (x : Ext) (wait : Bool) (s : State) : Completes (stage o x wait s) := by
  unfold stage; dsimp only; split <;> exact ⟨_, rfl⟩

theorem resumeWait_completes (k : WaitKind) (s : State) : Completes (resumeWait k s) := ⟨_, rfl⟩

theorem streamElement_completes (o : MM) (write : Bool) (f : Tile → Nat → Nat → Tile) (s : State) : Completes (streamElement o write f s) := by
  unfold streamElement
  try dsimp only
  repeat' first | exact ⟨_, rfl⟩ | apply checked_completes

theorem vaultLoad_completes (d : Dest) (ea n : Nat) (sx : Option Nat) (s : State) : Completes (vaultLoad d ea n sx s) := by
  unfold vaultLoad; repeat' first | exact ⟨_, rfl⟩ | split

theorem vaultStore_completes (ea n v : Nat) (s : State) : Completes (vaultStore ea n v s) := by
  unfold vaultStore; split <;> exact ⟨_, rfl⟩

theorem floatLanes_completes (lat : Nat) (o : RRR) (x : Ext) (f : BFmt → Nat → Nat → Nat → FRes) (s : State) : Completes (floatLanes lat o x f s) := checked_completes _ _ _ _ ⟨_, rfl⟩

theorem decLanes_completes (lat occ : Nat) (o : RRR) (x : Ext) (f : Nat → Nat → Nat → FRes) (s : State) : Completes (decLanes lat occ o x f s) := checked_completes _ _ _ _ ⟨_, rfl⟩

theorem intLanes_completes (lat : Nat) (o : RRR) (x : Ext) (f : Nat → Nat → Nat → Nat) (s : State) : Completes (intLanes lat o x f s) := checked_completes _ _ _ _ ⟨_, rfl⟩

theorem intLanes1_completes (lat : Nat) (o : RRR) (x : Ext) (f : Nat → Nat → Nat) (s : State) : Completes (intLanes1 lat o x f s) := checked_completes _ _ _ _ ⟨_, rfl⟩

theorem maskOp_completes (o : RRR) (f : Word → Word → Word) (s : State) : Completes (maskOp o f s) := ⟨_, rfl⟩

theorem reduceLanes_completes (o : RRR) (x : Ext) (f : Tile → Nat → Nat → FRes) (empty : Nat) (dec : Bool) (s : State) : Completes (reduceLanes o x f empty dec s) := checked_completes _ _ _ _ ⟨_, rfl⟩

theorem moveLanes_completes (o : RRR) (x : Ext) (fs : List (BitVec 6)) (f : Tile → Nat → List Nat) (s : State) : Completes (moveLanes o x fs f s) := checked_completes _ _ _ _ ⟨_, rfl⟩

theorem floatCompare_completes (lat : Nat) (dec : Bool) (o : RRR) (x : Ext) (f : Nat → Nat → Nat → Bool × Nat)
    (also : Tile → Tile) (s : State) : Completes (floatCompare lat dec o x f also s) := checked_completes _ _ _ _ ⟨_, rfl⟩

theorem runCommand_completes (n : Nat) (c : Cmd) (s : State) (r : Out) (h : runCommand n c s = some r) : Completes r := by
  unfold runCommand at h
  split at h <;> cases h <;> first | exact mgmtCommand_completes .. | exact queueCommand_completes .. |
    (unfold execIdentify; split <;> exact ⟨_, rfl⟩)

theorem execSubmissionConsume_completes (ring : RingId) (data : List Byte) (image : Option Image) (s : State) :
    Completes (execSubmissionConsume ring data image s) := by
  unfold execSubmissionConsume
  split
  · exact ⟨_, rfl⟩
  · dsimp only
    split
    · exact ⟨_, rfl⟩
    · split
      · next h =>
        split at h
        · exact runCommand_completes _ _ _ _ h
        · cases h
      · exact ⟨_, rfl⟩

/-! ### The meanings -/

theorem execCall_completes (o : BX) (s : State) : Completes (execCall o s) := by
  unfold execCall
  try dsimp only
  repeat' first | exact ⟨_, rfl⟩ | apply checked_completes | apply guardOr_completes | exact transfer_completes .. | split

theorem execRet_completes (_o : BX) (s : State) : Completes (execRet _o s) := by
  unfold execRet; split <;> exact ⟨_, rfl⟩

theorem execLexit_completes (o : BX) (s : State) : Completes (execLexit o s) := by
  unfold execLexit; repeat' first | exact ⟨_, rfl⟩ | split

theorem execWaitc_completes (o : RI) (x : Ext) (s : State) : Completes (execWaitc o x s) := by
  unfold execWaitc; dsimp only; split <;> exact ⟨_, rfl⟩

theorem execTret_completes (s : State) : Completes (execTret s) := by
  unfold execTret; dsimp only; repeat' first | exact ⟨_, rfl⟩ | split

theorem execRep_completes (o : I16) (x : Ext) (s : State) : Completes (execRep o x s) := by
  unfold execRep; dsimp only; repeat' first | exact ⟨_, rfl⟩ | split

theorem execSchk_completes (o : RRR) (s : State) : Completes (execSchk o s) := by
  unfold execSchk; dsimp only; split <;> exact ⟨_, rfl⟩

theorem execCsrr_completes (o : I16) (s : State) : Completes (execCsrr o s) := by
  unfold execCsrr; split <;> exact ⟨_, rfl⟩

theorem execCsrw_completes (o : I16) (s : State) : Completes (execCsrw o s) := by
  unfold execCsrw; dsimp only; split <;> exact ⟨_, rfl⟩

theorem execMty_completes (o : RRR) (s : State) : Completes (execMty o s) := by
  unfold execMty; split <;> exact ⟨_, rfl⟩

theorem execRstk_completes (o : RRR) (s : State) : Completes (execRstk o s) := by
  unfold execRstk; split <;> exact ⟨_, rfl⟩

theorem execRstkPush_completes (o : RRR) (s : State) : Completes (execRstkPush o s) := by
  unfold execRstkPush; dsimp only; repeat' first | exact ⟨_, rfl⟩ | split

theorem execVfcvt_completes (o : RRR) (x : Ext) (s : State) : Completes (execVfcvt o x s) := by
  unfold execVfcvt
  try dsimp only
  repeat' first | exact ⟨_, rfl⟩ | apply checked_completes

theorem execVdefer_completes (o : RRR) (x : Ext) (s : State) : Completes (execVdefer o x s) := by
  unfold execVdefer; dsimp only; repeat' first | exact ⟨_, rfl⟩ | split

theorem execVdrain_completes (o : RRR) (x : Ext) (s : State) : Completes (execVdrain o x s) := by
  unfold execVdrain; dsimp only; split <;> exact ⟨_, rfl⟩

theorem execVchk_completes (o : RRR) (x : Ext) (s : State) : Completes (execVchk o x s) := by
  unfold execVchk
  try dsimp only
  repeat' first | exact ⟨_, rfl⟩ | apply checked_completes | apply guardOr_completes  | split

theorem execVbqpack_completes (o : RRR) (x : Ext) (s : State) : Completes (execVbqpack o x s) := by
  unfold execVbqpack
  try dsimp only
  repeat' first | exact ⟨_, rfl⟩ | apply checked_completes

theorem execVbqunpk_completes (o : RRR) (x : Ext) (s : State) : Completes (execVbqunpk o x s) := by
  unfold execVbqunpk
  try dsimp only
  repeat' first | exact ⟨_, rfl⟩ | apply checked_completes

theorem execLd_completes (o : MM) (x : Ext) (s : State) : Completes (execLd o x s) := by
  unfold execLd
  try dsimp only
  repeat' first | exact ⟨_, rfl⟩ | apply checked_completes

theorem execSt_completes (o : MM) (x : Ext) (s : State) : Completes (execSt o x s) := by
  unfold execSt
  try dsimp only
  repeat' first | exact ⟨_, rfl⟩ | apply checked_completes

theorem execVld_completes (o : MM) (x : Ext) (s : State) : Completes (execVld o x s) := by
  unfold execVld
  try dsimp only
  repeat' first | exact ⟨_, rfl⟩ | apply checked_completes

theorem execVst_completes (o : MM) (x : Ext) (s : State) : Completes (execVst o x s) := by
  unfold execVst
  try dsimp only
  repeat' first | exact ⟨_, rfl⟩ | apply checked_completes

theorem execVgather_completes (o : MM) (s : State) : Completes (execVgather o s) := by
  unfold execVgather
  try dsimp only
  repeat' first | exact ⟨_, rfl⟩ | apply checked_completes

theorem execVscatter_completes (o : MM) (s : State) : Completes (execVscatter o s) := by
  unfold execVscatter
  try dsimp only
  repeat' first | exact ⟨_, rfl⟩ | apply checked_completes

theorem execSets_completes (o : MM) (x : Ext) (s : State) : Completes (execSets o x s) := by
  unfold execSets
  try dsimp only
  repeat' first | exact ⟨_, rfl⟩ | apply checked_completes

theorem execSrst_completes (o : MM) (s : State) : Completes (execSrst o s) := by
  unfold execSrst; dsimp only; split <;> exact ⟨_, rfl⟩

theorem execLdv_completes (o : MM) (x : Ext) (s : State) : Completes (execLdv o x s) := by
  unfold execLdv
  try dsimp only
  repeat' first | exact ⟨_, rfl⟩ | apply checked_completes | apply guardOr_completes | exact vaultLoad_completes ..

theorem execStv_completes (o : MM) (x : Ext) (s : State) : Completes (execStv o x s) := by
  unfold execStv
  try dsimp only
  repeat' first | exact ⟨_, rfl⟩ | apply checked_completes | apply guardOr_completes | exact vaultStore_completes ..

theorem execVldv_completes (o : MM) (x : Ext) (s : State) : Completes (execVldv o x s) := by
  unfold execVldv
  try dsimp only
  repeat' first | exact ⟨_, rfl⟩ | apply checked_completes | apply guardOr_completes | exact vaultLoad_completes ..

theorem execVstv_completes (o : MM) (x : Ext) (s : State) : Completes (execVstv o x s) := by
  unfold execVstv
  try dsimp only
  repeat' first | exact ⟨_, rfl⟩ | apply checked_completes | apply guardOr_completes | exact vaultStore_completes ..

theorem execBinit_completes (o : MM) (x : Ext) (s : State) : Completes (execBinit o x s) := by
  unfold execBinit
  try dsimp only
  repeat' first | exact ⟨_, rfl⟩ | apply checked_completes | apply guardOr_completes | exact barrierOp_completes .. | split

theorem execBwait_completes (o : MM) (x : Ext) (s : State) : Completes (execBwait o x s) := by
  unfold execBwait
  try dsimp only
  repeat' first | exact ⟨_, rfl⟩ | apply checked_completes | apply guardOr_completes | exact waitKnown_completes .. | exact waitLogged_completes .. | split

theorem execPubs_completes (o : MM) (s : State) : Completes (execPubs o s) := by
  unfold execPubs; dsimp only; repeat' first | exact ⟨_, rfl⟩ | split

theorem execHqry_completes (o : MM) (s : State) : Completes (execHqry o s) := by
  unfold execHqry; dsimp only; split <;> exact ⟨_, rfl⟩

theorem execPubidx_completes (o : MM) (x : Ext) (s : State) : Completes (execPubidx o x s) := by
  unfold execPubidx; dsimp only; repeat' first | exact ⟨_, rfl⟩ | split

theorem execDxrd_completes (o : XM) (s : State) : Completes (execDxrd o s) := by
  unfold execDxrd; split <;> exact ⟨_, rfl⟩

theorem execResultLanding_completes (s : State) : Completes (execResultLanding s) := by
  unfold execResultLanding; dsimp only; split <;> exact ⟨_, rfl⟩

theorem execMemoryWriteLanding_completes (s : State) : Completes (execMemoryWriteLanding s) := by
  unfold execMemoryWriteLanding; split <;> exact ⟨_, rfl⟩

theorem execMissedPromise_completes (s : State) : Completes (execMissedPromise s) := by
  unfold execMissedPromise; dsimp only; split <;> exact ⟨_, rfl⟩

theorem execFinjWrite_completes (v : Word) (s : State) : Completes (execFinjWrite v s) := by
  unfold execFinjWrite; split <;> exact ⟨_, rfl⟩

theorem execImemShareReload_completes (s : State) : Completes (execImemShareReload s) := by
  unfold execImemShareReload; dsimp only; repeat' first | exact ⟨_, rfl⟩ | split

theorem execGroupHalt_completes (s : State) : Completes (execGroupHalt s) := by
  unfold execGroupHalt; dsimp only; repeat' first | exact ⟨_, rfl⟩ | split

theorem execTrapStop_completes (s : State) : Completes (execTrapStop s) := by
  unfold execTrapStop; dsimp only; repeat' first | exact ⟨_, rfl⟩ | split

theorem execContextResume_completes (s : State) : Completes (execContextResume s) := by
  unfold execContextResume; dsimp only; repeat' first | exact ⟨_, rfl⟩ | split

theorem execHandlerFaultEnd_completes (s : State) : Completes (execHandlerFaultEnd s) := by
  unfold execHandlerFaultEnd; split <;> exact ⟨_, rfl⟩

theorem execSilentErrorKill_completes (s : State) : Completes (execSilentErrorKill s) := by
  unfold execSilentErrorKill; dsimp only; split <;> exact ⟨_, rfl⟩

theorem execContextSwitch_completes (s : State) : Completes (execContextSwitch s) := by
  unfold execContextSwitch; dsimp only; repeat' first | exact ⟨_, rfl⟩ | split

theorem execContextSwitchIn_completes (s : State) : Completes (execContextSwitchIn s) := by
  unfold execContextSwitchIn; dsimp only; split <;> exact ⟨_, rfl⟩

theorem execNodeEnd_completes (pid n : Nat) (s : State) : Completes (execNodeEnd pid n s) := by
  unfold execNodeEnd; dsimp only; repeat' first | exact ⟨_, rfl⟩ | split

theorem execCheckpointComplete_completes (pid : Nat) (s : State) : Completes (execCheckpointComplete pid s) := by
  unfold execCheckpointComplete; repeat' first | exact ⟨_, rfl⟩ | split

theorem execWalkerCodeStart_completes (pid n : Nat) (s : State) : Completes (execWalkerCodeStart pid n s) := by
  unfold execWalkerCodeStart; repeat' first | exact ⟨_, rfl⟩ | split

theorem execWalkerBranch_completes (pid n : Nat) (s : State) : Completes (execWalkerBranch pid n s) := by
  unfold execWalkerBranch; split <;> exact ⟨_, rfl⟩

theorem execWalkerWhile_completes (pid n : Nat) (s : State) : Completes (execWalkerWhile pid n s) := by
  unfold execWalkerWhile; split <;> exact ⟨_, rfl⟩

theorem execWalkerCollect_completes (pid n : Nat) (s : State) : Completes (execWalkerCollect pid n s) := by
  unfold execWalkerCollect; dsimp only; repeat' first | exact ⟨_, rfl⟩ | split

theorem execWalkerFinish_completes (pid n : Nat) (s : State) : Completes (execWalkerFinish pid n s) := by
  unfold execWalkerFinish; repeat' first | exact ⟨_, rfl⟩ | split

theorem execJobStart_completes (pid : Nat) (s : State) : Completes (execJobStart pid s) := by
  unfold execJobStart; split <;> exact ⟨_, rfl⟩

theorem execDualCompare_completes (jobid : Word) (s : State) : Completes (execDualCompare jobid s) := by
  unfold execDualCompare; repeat' first | exact ⟨_, rfl⟩ | split

theorem execBeacon_completes (s : State) : Completes (execBeacon s) := by
  unfold execBeacon; split <;> exact ⟨_, rfl⟩

theorem execBeaconArrival_completes (quad dir : Nat) (s : State) : Completes (execBeaconArrival quad dir s) := by
  unfold execBeaconArrival; split <;> exact ⟨_, rfl⟩

theorem execDrift_completes (s : State) : Completes (execDrift s) := by
  unfold execDrift; split <;> exact ⟨_, rfl⟩

theorem execPowerDecision_completes (watts hottest : Nat) (s : State) : Completes (execPowerDecision watts hottest s) := by
  unfold execPowerDecision; dsimp only; repeat' first | exact ⟨_, rfl⟩ | split

theorem execThermalTimeout_completes (s : State) : Completes (execThermalTimeout s) := by
  unfold execThermalTimeout; split <;> exact ⟨_, rfl⟩

theorem execUnitRetirement_completes (found : UnitFound) (s : State) : Completes (execUnitRetirement found s) := by
  unfold execUnitRetirement; split <;> exact ⟨_, rfl⟩

theorem execJobReplacement_completes (jobid : Word) (s : State) : Completes (execJobReplacement jobid s) := by
  unfold execJobReplacement; repeat' first | exact ⟨_, rfl⟩ | split

theorem execCheckpointRollback_completes (pid : Nat) (s : State) : Completes (execCheckpointRollback pid s) := by
  unfold execCheckpointRollback; repeat' first | exact ⟨_, rfl⟩ | split

theorem execHuskPromiseMiss_completes (pid engine : Nat) (s : State) : Completes (execHuskPromiseMiss pid engine s) := by
  unfold execHuskPromiseMiss; repeat' first | exact ⟨_, rfl⟩ | split

theorem execHuskBarrierDecrement_completes (s : State) : Completes (execHuskBarrierDecrement s) := by
  unfold execHuskBarrierDecrement; split <;> exact ⟨_, rfl⟩

theorem execLinkDownTimeout_completes (s : State) : Completes (execLinkDownTimeout s) := by
  unfold execLinkDownTimeout; repeat' first | exact ⟨_, rfl⟩ | split

theorem execHandoverTimeout_completes (s : State) : Completes (execHandoverTimeout s) := by
  unfold execHandoverTimeout; split <;> exact ⟨_, rfl⟩

theorem execBarRegisterWrite_completes (port : BitVec 1) (offset : BitVec 24) (v : Option Word) (s : State) : Completes (execBarRegisterWrite port offset v s) := by
  unfold execBarRegisterWrite; split <;> exact ⟨_, rfl⟩

theorem execBadSeq_completes (ring : RingId) (s : State) : Completes (execBadSeq ring s) := by
  unfold execBadSeq; repeat' first | exact ⟨_, rfl⟩ | split

theorem execCompletionEntryWrite_completes (ring : RingId) (s : State) : Completes (execCompletionEntryWrite ring s) := by
  unfold execCompletionEntryWrite; repeat' first | exact ⟨_, rfl⟩ | split

theorem execIdentify_completes (c : Cmd) (s : State) : Completes (execIdentify c s) := by
  unfold execIdentify; split <;> exact ⟨_, rfl⟩

theorem execBootComplete_completes (s : State) : Completes (execBootComplete s) := by
  unfold execBootComplete; split <;> exact ⟨_, rfl⟩

theorem execPodJoin_completes (member : PodMember) (s : State) : Completes (execPodJoin member s) := by
  unfold execPodJoin; dsimp only; split <;> exact ⟨_, rfl⟩

theorem execTickEdge_completes (s : State) : Completes (execTickEdge s) := by
  unfold execTickEdge; split <;> exact ⟨_, rfl⟩

theorem execPtpMessage_completes (time : PtpTime) (s : State) : Completes (execPtpMessage time s) := by
  unfold execPtpMessage; split <;> exact ⟨_, rfl⟩

theorem execPodJobStart_completes (jobid : Word) (news : PodNews) (s : State) : Completes (execPodJobStart jobid news s) := by
  unfold execPodJobStart; split <;> exact ⟨_, rfl⟩

theorem execFabricSlotSend_completes (stream : Nat) (s : State) : Completes (execFabricSlotSend stream s) := by
  unfold execFabricSlotSend; split <;> exact ⟨_, rfl⟩

theorem execFabricBatchPublish_completes (stream : Nat) (batch : SentLines) (s : State) : Completes (execFabricBatchPublish stream batch s) := by
  unfold execFabricBatchPublish; dsimp only; repeat' first | exact ⟨_, rfl⟩ | split

theorem execFabricBeacon_completes (src : BeaconSource) (count slots : Word) (s : State) : Completes (execFabricBeacon src count slots s) := by
  unfold execFabricBeacon; repeat' first | exact ⟨_, rfl⟩ | split

theorem execFabricLaneFail_completes (port lane : Nat) (s : State) : Completes (execFabricLaneFail port lane s) := by
  unfold execFabricLaneFail; split <;> exact ⟨_, rfl⟩

theorem execRetimingBufferSlip_completes (quad dir : Nat) (s : State) : Completes (execRetimingBufferSlip quad dir s) := by
  unfold execRetimingBufferSlip; split <;> exact ⟨_, rfl⟩

theorem execSoftError_completes (site : SoftSite) (bs : List (BitVec 6)) (s : State) : Completes (execSoftError site bs s) := by
  unfold execSoftError; dsimp only; repeat' first | exact ⟨_, rfl⟩ | split

theorem execCounterCopyFault_completes (quad : Nat) (site : CountSite) (delta : Int) (s : State) : Completes (execCounterCopyFault quad site delta s) := by
  unfold execCounterCopyFault; repeat' first | exact ⟨_, rfl⟩ | split

/-- **No instruction stops**: exec answers a next state for every instruction in every state. -/
theorem exec_completes (i : Instr) (s : State) : Completes (exec i s) := by
  cases i with
  | nop => exact ⟨_, rfl⟩
  | bprep o => exact (prepare_completes .. : Completes (execBprep o s))
  | bprepr o => exact (prepare_completes .. : Completes (execBprepr o s))
  | bt o => exact (transfer_completes .. : Completes (execBt o s))
  | bf o => exact (transfer_completes .. : Completes (execBf o s))
  | ba o => exact (transfer_completes .. : Completes (execBa o s))
  | call o => exact (execCall_completes o s : Completes (execCall o s))
  | ret o => exact (execRet_completes o s : Completes (execRet o s))
  | binv o => exact ⟨_, rfl⟩
  | loop o x => exact (enterLoop_completes .. : Completes (execLoop o x s))
  | loopi o x => exact (enterLoop_completes .. : Completes (execLoopi o x s))
  | loopp o x => exact (enterLoop_completes .. : Completes (execLoopp o x s))
  | lexit o => exact (execLexit_completes o s : Completes (execLexit o s))
  | lidx o => exact ⟨_, rfl⟩
  | seg o x => exact ⟨_, rfl⟩
  | nodeend => exact (guardOr_completes _ _ ⟨_, rfl⟩ : Completes (execNodeend s))
  | condw o => exact ⟨_, rfl⟩
  | phase o => exact (guardOr_completes _ _ ⟨_, rfl⟩ : Completes (execPhase o s))
  | waitc o x => exact (execWaitc_completes o x s : Completes (execWaitc o x s))
  | rdcyc o => exact ⟨_, rfl⟩
  | calign o => exact ⟨_, rfl⟩
  | fence o => exact ⟨_, rfl⟩
  | trap o x => exact ⟨_, rfl⟩
  | tret => exact (execTret_completes s : Completes (execTret s))
  | rep o x => exact (execRep_completes o x s : Completes (execRep o x s))
  | cmp o => exact ⟨_, rfl⟩
  | cmpi o x => exact ⟨_, rfl⟩
  | qop o => exact ⟨_, rfl⟩
  | qmov o => exact ⟨_, rfl⟩
  | schk o => exact (execSchk_completes o s : Completes (execSchk o s))
  | csrr o => exact (execCsrr_completes o s : Completes (execCsrr o s))
  | csrw o => exact (execCsrw_completes o s : Completes (execCsrw o s))
  | add o => exact ⟨_, rfl⟩
  | sub o => exact ⟨_, rfl⟩
  | and o => exact ⟨_, rfl⟩
  | or o => exact ⟨_, rfl⟩
  | xor o => exact ⟨_, rfl⟩
  | andn o => exact ⟨_, rfl⟩
  | shl o => exact ⟨_, rfl⟩
  | shr o => exact ⟨_, rfl⟩
  | sra o => exact ⟨_, rfl⟩
  | rol o => exact ⟨_, rfl⟩
  | mul o => exact ⟨_, rfl⟩
  | mulh o => exact ⟨_, rfl⟩
  | div o => exact ⟨_, rfl⟩
  | rem o => exact ⟨_, rfl⟩
  | min o => exact ⟨_, rfl⟩
  | max o => exact ⟨_, rfl⟩
  | clz o => exact ⟨_, rfl⟩
  | ctz o => exact ⟨_, rfl⟩
  | popc o => exact ⟨_, rfl⟩
  | sext o => exact ⟨_, rfl⟩
  | zext o => exact ⟨_, rfl⟩
  | clmul o => exact ⟨_, rfl⟩
  | clmulh o => exact ⟨_, rfl⟩
  | sel o x => exact ⟨_, rfl⟩
  | addi o x => exact ⟨_, rfl⟩
  | andi o x => exact ⟨_, rfl⟩
  | ori o x => exact ⟨_, rfl⟩
  | xori o x => exact ⟨_, rfl⟩
  | shli o => exact ⟨_, rfl⟩
  | shri o => exact ⟨_, rfl⟩
  | srai o => exact ⟨_, rfl⟩
  | limm o x => exact ⟨_, rfl⟩
  | lins o x => exact ⟨_, rfl⟩
  | fadd o => exact ⟨_, rfl⟩
  | fsub o => exact ⟨_, rfl⟩
  | fmul o => exact ⟨_, rfl⟩
  | fdiv o => exact ⟨_, rfl⟩
  | fsqrt o => exact ⟨_, rfl⟩
  | fma o x => exact ⟨_, rfl⟩
  | fmin o => exact ⟨_, rfl⟩
  | fmax o => exact ⟨_, rfl⟩
  | fcmp o => exact ⟨_, rfl⟩
  | fcvt o => exact ⟨_, rfl⟩
  | fclass o => exact ⟨_, rfl⟩
  | dadd o => exact ⟨_, rfl⟩
  | dsub o => exact ⟨_, rfl⟩
  | dmul o => exact ⟨_, rfl⟩
  | ddiv o => exact ⟨_, rfl⟩
  | dfma o x => exact ⟨_, rfl⟩
  | dquant o => exact ⟨_, rfl⟩
  | drint o => exact ⟨_, rfl⟩
  | dcmp o => exact ⟨_, rfl⟩
  | dcvt o => exact ⟨_, rfl⟩
  | dclass o => exact ⟨_, rfl⟩
  | mfy o => exact ⟨_, rfl⟩
  | mty o => exact (execMty_completes o s : Completes (execMty o s))
  | rstk o => exact (execRstk_completes o s : Completes (execRstk o s))
  | rstkPush o => exact (execRstkPush_completes o s : Completes (execRstkPush o s))
  | prefixBundle ext2 => exact ⟨_, rfl⟩
  | vadd o x => exact (checked_completes _ _ _ _ ⟨_, rfl⟩ : Completes (execVadd o x s))
  | vsub o x => exact (checked_completes _ _ _ _ ⟨_, rfl⟩ : Completes (execVsub o x s))
  | vmul o x => exact (checked_completes _ _ _ _ ⟨_, rfl⟩ : Completes (execVmul o x s))
  | vmulh o x => exact (checked_completes _ _ _ _ ⟨_, rfl⟩ : Completes (execVmulh o x s))
  | vand o x => exact (checked_completes _ _ _ _ ⟨_, rfl⟩ : Completes (execVand o x s))
  | vor o x => exact (checked_completes _ _ _ _ ⟨_, rfl⟩ : Completes (execVor o x s))
  | vxor o x => exact (checked_completes _ _ _ _ ⟨_, rfl⟩ : Completes (execVxor o x s))
  | vandn o x => exact (checked_completes _ _ _ _ ⟨_, rfl⟩ : Completes (execVandn o x s))
  | vshl o x => exact (checked_completes _ _ _ _ ⟨_, rfl⟩ : Completes (execVshl o x s))
  | vshr o x => exact (checked_completes _ _ _ _ ⟨_, rfl⟩ : Completes (execVshr o x s))
  | vsra o x => exact (checked_completes _ _ _ _ ⟨_, rfl⟩ : Completes (execVsra o x s))
  | vmin o x => exact (checked_completes _ _ _ _ ⟨_, rfl⟩ : Completes (execVmin o x s))
  | vmax o x => exact (checked_completes _ _ _ _ ⟨_, rfl⟩ : Completes (execVmax o x s))
  | vabs o x => exact (checked_completes _ _ _ _ ⟨_, rfl⟩ : Completes (execVabs o x s))
  | vadds o x => exact (checked_completes _ _ _ _ ⟨_, rfl⟩ : Completes (execVadds o x s))
  | vsubs o x => exact (checked_completes _ _ _ _ ⟨_, rfl⟩ : Completes (execVsubs o x s))
  | vcmp o x => exact (checked_completes _ _ _ _ ⟨_, rfl⟩ : Completes (execVcmp o x s))
  | vsel o x => exact (checked_completes _ _ _ _ ⟨_, rfl⟩ : Completes (execVsel o x s))
  | vclmul o x => exact (checked_completes _ _ _ _ ⟨_, rfl⟩ : Completes (execVclmul o x s))
  | vpopc o x => exact (checked_completes _ _ _ _ ⟨_, rfl⟩ : Completes (execVpopc o x s))
  | vclz o x => exact (checked_completes _ _ _ _ ⟨_, rfl⟩ : Completes (execVclz o x s))
  | vshli o x => exact (checked_completes _ _ _ _ ⟨_, rfl⟩ : Completes (execVshli o x s))
  | vshri o x => exact (checked_completes _ _ _ _ ⟨_, rfl⟩ : Completes (execVshri o x s))
  | vsrai o x => exact (checked_completes _ _ _ _ ⟨_, rfl⟩ : Completes (execVsrai o x s))
  | vfadd o x => exact (checked_completes _ _ _ _ ⟨_, rfl⟩ : Completes (execVfadd o x s))
  | vfsub o x => exact (checked_completes _ _ _ _ ⟨_, rfl⟩ : Completes (execVfsub o x s))
  | vfmul o x => exact (checked_completes _ _ _ _ ⟨_, rfl⟩ : Completes (execVfmul o x s))
  | vfma o x => exact (checked_completes _ _ _ _ ⟨_, rfl⟩ : Completes (execVfma o x s))
  | vfdiv o x => exact (checked_completes _ _ _ _ ⟨_, rfl⟩ : Completes (execVfdiv o x s))
  | vfsqrt o x => exact (checked_completes _ _ _ _ ⟨_, rfl⟩ : Completes (execVfsqrt o x s))
  | vfmin o x => exact (checked_completes _ _ _ _ ⟨_, rfl⟩ : Completes (execVfmin o x s))
  | vfmax o x => exact (checked_completes _ _ _ _ ⟨_, rfl⟩ : Completes (execVfmax o x s))
  | vfcmp o x => exact (checked_completes _ _ _ _ ⟨_, rfl⟩ : Completes (execVfcmp o x s))
  | vfcvt o x => exact (execVfcvt_completes o x s : Completes (execVfcvt o x s))
  | vfscale o x => exact (checked_completes _ _ _ _ ⟨_, rfl⟩ : Completes (execVfscale o x s))
  | vfsgn o x => exact (checked_completes _ _ _ _ ⟨_, rfl⟩ : Completes (execVfsgn o x s))
  | vdadd o x => exact (checked_completes _ _ _ _ ⟨_, rfl⟩ : Completes (execVdadd o x s))
  | vdsub o x => exact (checked_completes _ _ _ _ ⟨_, rfl⟩ : Completes (execVdsub o x s))
  | vdmul o x => exact (checked_completes _ _ _ _ ⟨_, rfl⟩ : Completes (execVdmul o x s))
  | vdfma o x => exact (checked_completes _ _ _ _ ⟨_, rfl⟩ : Completes (execVdfma o x s))
  | vdquant o x => exact (checked_completes _ _ _ _ ⟨_, rfl⟩ : Completes (execVdquant o x s))
  | vdcmp o x => exact (checked_completes _ _ _ _ ⟨_, rfl⟩ : Completes (execVdcmp o x s))
  | vradd o x => exact (checked_completes _ _ _ _ ⟨_, rfl⟩ : Completes (execVradd o x s))
  | vrmax o x => exact (checked_completes _ _ _ _ ⟨_, rfl⟩ : Completes (execVrmax o x s))
  | vrmin o x => exact (checked_completes _ _ _ _ ⟨_, rfl⟩ : Completes (execVrmin o x s))
  | vbcast o x => exact (checked_completes _ _ _ _ ⟨_, rfl⟩ : Completes (execVbcast o x s))
  | vext o => exact (checked_completes _ _ _ _ ⟨_, rfl⟩ : Completes (execVext o s))
  | vins o x => exact ⟨_, rfl⟩
  | vperm o x => exact (checked_completes _ _ _ _ ⟨_, rfl⟩ : Completes (execVperm o x s))
  | vslide o x => exact (checked_completes _ _ _ _ ⟨_, rfl⟩ : Completes (execVslide o x s))
  | vcompress o x => exact (checked_completes _ _ _ _ ⟨_, rfl⟩ : Completes (execVcompress o x s))
  | viota o x => exact (checked_completes _ _ _ _ ⟨_, rfl⟩ : Completes (execViota o x s))
  | kand o => exact ⟨_, rfl⟩
  | kor o => exact ⟨_, rfl⟩
  | kxor o => exact ⟨_, rfl⟩
  | knot o => exact ⟨_, rfl⟩
  | kpopc o => exact ⟨_, rfl⟩
  | kmov o => exact ⟨_, rfl⟩
  | vdefer o x => exact (execVdefer_completes o x s : Completes (execVdefer o x s))
  | vdrain o x => exact (execVdrain_completes o x s : Completes (execVdrain o x s))
  | dqcnt o => exact ⟨_, rfl⟩
  | vrng o => exact (checked_completes _ _ _ _ ⟨_, rfl⟩ : Completes (execVrng o s))
  | vgauss o => exact (checked_completes _ _ _ _ ⟨_, rfl⟩ : Completes (execVgauss o s))
  | vchk o x => exact (execVchk_completes o x s : Completes (execVchk o x s))
  | vbqpack o x => exact (execVbqpack_completes o x s : Completes (execVbqpack o x s))
  | vbqunpk o x => exact (execVbqunpk_completes o x s : Completes (execVbqunpk o x s))
  | ld o x => exact (execLd_completes o x s : Completes (execLd o x s))
  | st o x => exact (execSt_completes o x s : Completes (execSt o x s))
  | vld o x => exact (execVld_completes o x s : Completes (execVld o x s))
  | vst o x => exact (execVst_completes o x s : Completes (execVst o x s))
  | vgather o => exact (execVgather_completes o s : Completes (execVgather o s))
  | vscatter o => exact (execVscatter_completes o s : Completes (execVscatter o s))
  | sets o x => exact (execSets_completes o x s : Completes (execSets o x s))
  | srd o => exact (streamElement_completes .. : Completes (execSrd o s))
  | swr o => exact (streamElement_completes .. : Completes (execSwr o s))
  | srst o => exact (execSrst_completes o s : Completes (execSrst o s))
  | sget o => exact ⟨_, rfl⟩
  | ldv o x => exact (execLdv_completes o x s : Completes (execLdv o x s))
  | stv o x => exact (execStv_completes o x s : Completes (execStv o x s))
  | vldv o x => exact (execVldv_completes o x s : Completes (execVldv o x s))
  | vstv o x => exact (execVstv_completes o x s : Completes (execVstv o x s))
  | drive o => exact (drive_completes .. : Completes (execDrive o s))
  | tap o => exact (tap_completes .. : Completes (execTap o s))
  | drives o => exact (drive_completes .. : Completes (execDrives o s))
  | taps o => exact (tap_completes .. : Completes (execTaps o s))
  | aadd o x => exact (atomic_completes .. : Completes (execAadd o x s))
  | amax o x => exact (atomic_completes .. : Completes (execAmax o x s))
  | aswap o x => exact (atomic_completes .. : Completes (execAswap o x s))
  | acas o x => exact (atomic_completes .. : Completes (execAcas o x s))
  | aor o x => exact (atomic_completes .. : Completes (execAor o x s))
  | binit o x => exact (execBinit_completes o x s : Completes (execBinit o x s))
  | barv o x => exact (checked_completes _ _ _ _ (barrierOp_completes ..) : Completes (execBarv o x s))
  | bwait o x => exact (execBwait_completes o x s : Completes (execBwait o x s))
  | bbytes o x => exact (checked_completes _ _ _ _ (barrierOp_completes ..) : Completes (execBbytes o x s))
  | stage o x => exact (stage_completes .. : Completes (execStage o x s))
  | stagew o x => exact (stage_completes .. : Completes (execStagew o x s))
  | pubs o => exact (execPubs_completes o s : Completes (execPubs o s))
  | hqry o => exact (execHqry_completes o s : Completes (execHqry o s))
  | pubidx o x => exact (execPubidx_completes o x s : Completes (execPubidx o x s))
  | cloadb o => exact (checked_completes _ _ _ _ ⟨_, rfl⟩ : Completes (execCloadb o s))
  | cloadbq o => exact (checked_completes _ _ _ _ ⟨_, rfl⟩ : Completes (execCloadbq o s))
  | cmm o => exact (multiply_completes .. : Completes (execCmm o s))
  | cmmq o => exact (multiply_completes .. : Completes (execCmmq o s))
  | caccz o => exact ⟨_, rfl⟩
  | caccrd o => exact ⟨_, rfl⟩
  | caccst o => exact (checked_completes _ _ _ _ ⟨_, rfl⟩ : Completes (execCaccst o s))
  | pipm o x => exact ⟨_, rfl⟩
  | dmma o => exact (checked_completes _ _ _ _ ⟨_, rfl⟩ : Completes (execDmma o s))
  | dxz o => exact ⟨_, rfl⟩
  | dxld o => exact (checked_completes _ _ _ _ ⟨_, rfl⟩ : Completes (execDxld o s))
  | dxst o => exact (checked_completes _ _ _ _ ⟨_, rfl⟩ : Completes (execDxst o s))
  | dchk o => exact ⟨_, rfl⟩
  | dxfix o => exact ⟨_, rfl⟩
  | dxrd o => exact (execDxrd_completes o s : Completes (execDxrd o s))
  | segmentCountLimit => exact ⟨_, rfl⟩
  | bTargetReady b => exact ⟨_, rfl⟩
  | returnEntryReady => exact ⟨_, rfl⟩
  | repReissue => exact ⟨_, rfl⟩
  | loopBufferIssue => exact ⟨_, rfl⟩
  | waitcResume => exact ⟨_, rfl⟩
  | stagewResume => exact ⟨_, rfl⟩
  | fenceResume => exact ⟨_, rfl⟩
  | resultLanding => exact (execResultLanding_completes s : Completes (execResultLanding s))
  | memoryWriteLanding => exact (execMemoryWriteLanding_completes s : Completes (execMemoryWriteLanding s))
  | vaultBankAccess => exact ⟨_, rfl⟩
  | atomicWindow => exact ⟨_, rfl⟩
  | barrierWindow => exact ⟨_, rfl⟩
  | bwaitWake => exact ⟨_, rfl⟩
  | bwaitTimeout => exact ⟨_, rfl⟩
  | barrierBreak pid => exact ⟨_, rfl⟩
  | commonsSlotService => exact ⟨_, rfl⟩
  | missedPromise => exact (execMissedPromise_completes s : Completes (execMissedPromise s))
  | channelArrival => exact ⟨_, rfl⟩
  | channelEntryDrop => exact ⟨_, rfl⟩
  | cimPlaneWrite => exact ⟨_, rfl⟩
  | cimAccumulateAdd => exact ⟨_, rfl⟩
  | dmmaLanding => exact ⟨_, rfl⟩
  | xRegisterLanding => exact ⟨_, rfl⟩
  | checksum => exact ⟨_, rfl⟩
  | engineStreamAccess => exact ⟨_, rfl⟩
  | finjWrite v => exact (execFinjWrite_completes v s : Completes (execFinjWrite v s))
  | finjFire => exact ⟨_, rfl⟩
  | imemShareReload => exact (execImemShareReload_completes s : Completes (execImemShareReload s))
  | groupHalt => exact (execGroupHalt_completes s : Completes (execGroupHalt s))
  | nodeRerunStart => exact ⟨_, rfl⟩
  | trapStop => exact (execTrapStop_completes s : Completes (execTrapStop s))
  | handlerEntry => exact ⟨_, rfl⟩
  | contextResume => exact (execContextResume_completes s : Completes (execContextResume s))
  | handlerFaultEnd => exact (execHandlerFaultEnd_completes s : Completes (execHandlerFaultEnd s))
  | silentErrorKill => exact (execSilentErrorKill_completes s : Completes (execSilentErrorKill s))
  | preemptDelivery pid => exact ⟨_, rfl⟩
  | contextSwitch => exact (execContextSwitch_completes s : Completes (execContextSwitch s))
  | contextSwitchIn => exact (execContextSwitchIn_completes s : Completes (execContextSwitchIn s))
  | contextStreamOut => exact ⟨_, rfl⟩
  | contextStreamIn => exact ⟨_, rfl⟩
  | partitionSwitchIn pid => exact ⟨_, rfl⟩
  | nodeEnd pid strand => exact (execNodeEnd_completes pid strand s : Completes (execNodeEnd pid strand s))
  | checkpointComplete pid => exact (execCheckpointComplete_completes pid s : Completes (execCheckpointComplete pid s))
  | walkerCodeStart pid strand => exact (execWalkerCodeStart_completes pid strand s : Completes (execWalkerCodeStart pid strand s))
  | walkerBranch pid strand => exact (execWalkerBranch_completes pid strand s : Completes (execWalkerBranch pid strand s))
  | walkerWhile pid strand => exact (execWalkerWhile_completes pid strand s : Completes (execWalkerWhile pid strand s))
  | walkerCollect pid strand => exact (execWalkerCollect_completes pid strand s : Completes (execWalkerCollect pid strand s))
  | walkerFinish pid strand => exact (execWalkerFinish_completes pid strand s : Completes (execWalkerFinish pid strand s))
  | jobStart pid => exact (execJobStart_completes pid s : Completes (execJobStart pid s))
  | dualCompare jobid => exact (execDualCompare_completes jobid s : Completes (execDualCompare jobid s))
  | beacon => exact (execBeacon_completes s : Completes (execBeacon s))
  | beaconArrival quad dir => exact (execBeaconArrival_completes quad dir s : Completes (execBeaconArrival quad dir s))
  | drift => exact (execDrift_completes s : Completes (execDrift s))
  | powerDecision watts hottest => exact (execPowerDecision_completes watts hottest s : Completes (execPowerDecision watts hottest s))
  | thermalPause => exact ⟨_, rfl⟩
  | thermalResume => exact ⟨_, rfl⟩
  | thermalTimeout => exact (execThermalTimeout_completes s : Completes (execThermalTimeout s))
  | carrierTrip => exact ⟨_, rfl⟩
  | unitRetirement found => exact (execUnitRetirement_completes found s : Completes (execUnitRetirement found s))
  | jobReplacement jobid => exact (execJobReplacement_completes jobid s : Completes (execJobReplacement jobid s))
  | checkpointRollback pid => exact (execCheckpointRollback_completes pid s : Completes (execCheckpointRollback pid s))
  | rollbackRestart pid => exact ⟨_, rfl⟩
  | huskWindowSwapin pid engine => exact ⟨_, rfl⟩
  | translation => exact ⟨_, rfl⟩
  | huskLocalLineWrite => exact ⟨_, rfl⟩
  | huskSourceRead => exact ⟨_, rfl⟩
  | huskPromiseMiss pid engine => exact (execHuskPromiseMiss_completes pid engine s : Completes (execHuskPromiseMiss pid engine s))
  | huskBarrierDecrement => exact (execHuskBarrierDecrement_completes s : Completes (execHuskBarrierDecrement s))
  | portLinkDown port => exact ⟨_, rfl⟩
  | linkDownTimeout => exact (execLinkDownTimeout_completes s : Completes (execLinkDownTimeout s))
  | handoverTimeout => exact (execHandoverTimeout_completes s : Completes (execHandoverTimeout s))
  | stailWrite ring v => exact ⟨_, rfl⟩
  | cheadWrite ring v => exact ⟨_, rfl⟩
  | mcringWrite port v => exact ⟨_, rfl⟩
  | barRegisterWrite port offset v => exact (execBarRegisterWrite_completes port offset v s : Completes (execBarRegisterWrite port offset v s))
  | submissionConsume ring data image => exact (execSubmissionConsume_completes .. : Completes (execSubmissionConsume ring data image s))
  | badSeq ring => exact (execBadSeq_completes ring s : Completes (execBadSeq ring s))
  | completionEntryWrite ring => exact (execCompletionEntryWrite_completes ring s : Completes (execCompletionEntryWrite ring s))
  | identify c => exact (execIdentify_completes c s : Completes (execIdentify c s))
  | attest c => exact (mgmtCommand_completes .. : Completes (execAttest c s))
  | claim c => exact (mgmtCommand_completes .. : Completes (execClaim c s))
  | handover c => exact (mgmtCommand_completes .. : Completes (execHandover c s))
  | accept c => exact (mgmtCommand_completes .. : Completes (execAccept c s))
  | release c => exact (mgmtCommand_completes .. : Completes (execRelease c s))
  | queryJob c => exact (mgmtCommand_completes .. : Completes (execQueryJob c s))
  | queryMap c => exact (mgmtCommand_completes .. : Completes (execQueryMap c s))
  | readDigest c => exact (mgmtCommand_completes .. : Completes (execReadDigest c s))
  | readUtil c => exact (mgmtCommand_completes .. : Completes (execReadUtil c s))
  | readErrors c => exact (mgmtCommand_completes .. : Completes (execReadErrors c s))
  | loadImage c => exact (queueCommand_completes .. : Completes (execLoadImage c s))
  | verifyImage c => exact (queueCommand_completes .. : Completes (execVerifyImage c s))
  | admitJob c => exact (queueCommand_completes .. : Completes (execAdmit c s))
  | launch c => exact (queueCommand_completes .. : Completes (execLaunch c s))
  | cancel c => exact (queueCommand_completes .. : Completes (execCancel c s))
  | preempt c => exact (queueCommand_completes .. : Completes (execPreempt c s))
  | migrateOut c => exact (queueCommand_completes .. : Completes (execMigrateOut c s))
  | checkpoint c => exact (queueCommand_completes .. : Completes (execCheckpoint c s))
  | restore c => exact (queueCommand_completes .. : Completes (execRestore c s))
  | retireUnit c => exact (queueCommand_completes .. : Completes (execRetireUnit c s))
  | copyIn c => exact (queueCommand_completes .. : Completes (execCopyIn c s))
  | copyOut c => exact (queueCommand_completes .. : Completes (execCopyOut c s))
  | setTime c => exact (queueCommand_completes .. : Completes (execSetTime c s))
  | powerGood => exact ⟨_, rfl⟩
  | moduleReset => exact ⟨_, rfl⟩
  | bootComplete => exact (execBootComplete_completes s : Completes (execBootComplete s))
  | podJoin member => exact (execPodJoin_completes member s : Completes (execPodJoin member s))
  | tickEdge => exact (execTickEdge_completes s : Completes (execTickEdge s))
  | ptpMessage time => exact (execPtpMessage_completes time s : Completes (execPtpMessage time s))
  | grandmasterLoss => exact ⟨_, rfl⟩
  | podJobStart jobid news => exact (execPodJobStart_completes jobid news s : Completes (execPodJobStart jobid news s))
  | fabricSlotSend stream => exact (execFabricSlotSend_completes stream s : Completes (execFabricSlotSend stream s))
  | fabricBatchPublish stream batch => exact (execFabricBatchPublish_completes stream batch s : Completes (execFabricBatchPublish stream batch s))
  | fabricBeacon src count slots => exact (execFabricBeacon_completes src count slots s : Completes (execFabricBeacon src count slots s))
  | fabricLaneFail port lane => exact (execFabricLaneFail_completes port lane s : Completes (execFabricLaneFail port lane s))
  | fabricPortFail port => exact ⟨_, rfl⟩
  | podMemberLost id => exact ⟨_, rfl⟩
  | portLinkUp port => exact ⟨_, rfl⟩
  | retimingBufferSlip quad dir => exact (execRetimingBufferSlip_completes quad dir s : Completes (execRetimingBufferSlip quad dir s))
  | softError site bits => exact (execSoftError_completes site bits s : Completes (execSoftError site bits s))
  | counterCopyFault quad site delta => exact (execCounterCopyFault_completes quad site delta s : Completes (execCounterCopyFault quad site delta s))
  | thermalAdmissionResume => exact ⟨_, rfl⟩

end Sys2Proof.Machine
end

