-- ==== Sys2Proof/Laws/Mem.lean ====
section
/-!
SUPPORT. The laws of sparse memory: a read after a write to the same index gives what was written, a write leaves every other index,
and every memory operation keeps the canonical form.
-/
namespace Sys2Proof.Machine

/-! ### The canonical form -/

theorem memWfFrom_mono {w : Nat} {m : Store w} {lo hi : Nat} (h : memWfFrom hi m = true) (le : lo ≤ hi) : memWfFrom lo m = true := by
  cases m with
  | nil => rfl
  | cons c m => simp only [memWfFrom, Bool.and_eq_true, decide_eq_true_eq] at h ⊢; exact ⟨⟨by omega, h.1.2⟩, h.2⟩

theorem memCons_wf {w : Nat} {a lo : Nat} {v : BitVec w} {m : Store w} (h : memWfFrom (a + 1) m = true) (le : lo ≤ a) :
    memWfFrom lo (memCons a v m) = true := by
  unfold memCons
  split
  · exact memWfFrom_mono h (by omega)
  · simp_all [memWfFrom]

theorem memSet_wfFrom {w : Nat} {m : Store w} {lo a : Nat} (v : BitVec w) (h : memWfFrom lo m = true) (le : lo ≤ a) :
    memWfFrom lo (memSet m a v) = true := by
  induction m generalizing lo with
  | nil => exact memCons_wf rfl le
  | cons c m ih =>
    obtain ⟨b, x⟩ := c
    simp only [memWfFrom, Bool.and_eq_true, decide_eq_true_eq] at h
    unfold memSet
    split
    · next lt => exact memCons_wf (by simp only [memWfFrom, Bool.and_eq_true, decide_eq_true_eq]; exact ⟨⟨by omega, h.1.2⟩, h.2⟩) le
    · split
      · next e => subst e; exact memCons_wf h.2 h.1.1
      · simp only [memWfFrom, Bool.and_eq_true, decide_eq_true_eq]
        exact ⟨h.1, ih h.2 (by omega)⟩

/-- Writing one index keeps the canonical form. -/
theorem memSet_wf {w : Nat} {m : Store w} (h : memWf m = true) (a : Nat) (v : BitVec w) : memWf (memSet m a v) = true :=
  memSet_wfFrom v h (Nat.zero_le a)

/-- Writing several indices keeps it. -/
theorem memSetAll_wf {w : Nat} {m : Store w} (h : memWf m = true) (cells : List (Nat × BitVec w)) :
    memWf (memSetAll m cells) = true := by
  induction cells generalizing m with
  | nil => exact h
  | cons c cs ih => exact ih (memSet_wf h c.1 c.2)

/-- Writing consecutive bytes keeps it. -/
theorem memPut_wf {m : Mem} (h : memWf m = true) (a : Nat) (bytes : List Byte) : memWf (memPut m a bytes) = true :=
  memSetAll_wf h _

theorem memFilter_wfFrom {w : Nat} {m : Store w} {lo : Nat} (p : Nat × BitVec w → Bool) (h : memWfFrom lo m = true) :
    memWfFrom lo (m.filter p) = true := by
  induction m generalizing lo with
  | nil => rfl
  | cons c m ih =>
    obtain ⟨b, x⟩ := c
    simp only [memWfFrom, Bool.and_eq_true, decide_eq_true_eq] at h
    rw [List.filter_cons]
    split
    · simp only [memWfFrom, Bool.and_eq_true, decide_eq_true_eq]; exact ⟨h.1, ih h.2⟩
    · exact ih (memWfFrom_mono h.2 (by omega))

/-- Dropping entries keeps it. -/
theorem memFilter_wf {w : Nat} {m : Store w} (h : memWf m = true) (p : Nat × BitVec w → Bool) : memWf (m.filter p) = true :=
  memFilter_wfFrom p h

/-- Clearing a range keeps it. -/
theorem memClear_wf {w : Nat} {m : Store w} (h : memWf m = true) (lo hi : Nat) : memWf (memClear m lo hi) = true :=
  memFilter_wf h _

/-! ### Reading after writing -/

theorem memGet_below {w : Nat} {m : Store w} {lo a : Nat} (h : memWfFrom lo m = true) (lt : a < lo) : memGet m a = 0 := by
  induction m generalizing lo with
  | nil => rfl
  | cons c m ih =>
    obtain ⟨b, x⟩ := c
    simp only [memWfFrom, Bool.and_eq_true, decide_eq_true_eq] at h
    have ne : a ≠ b := by omega
    simp only [memGet, if_neg ne]
    exact ih h.2 (by omega)

theorem memGet_memCons {w : Nat} {m : Store w} {a : Nat} (v : BitVec w) (b : Nat) (h : memGet m a = 0 ∨ b ≠ a) :
    memGet (memCons a v m) b = if b = a then v else memGet m b := by
  unfold memCons
  by_cases e : b = a
  · subst e
    by_cases z : v = 0
    · subst z; simpa using h
    · rw [if_neg z]; simp [memGet]
  · by_cases z : v = 0
    · rw [if_pos z, if_neg e]
    · rw [if_neg z]; simp [memGet, e]

/-- A read after a write gives the value written at its index, and elsewhere what stood there. -/
theorem memGet_memSet {w : Nat} {m : Store w} (h : memWf m = true) (a : Nat) (v : BitVec w) (b : Nat) :
    memGet (memSet m a v) b = if b = a then v else memGet m b := by
  unfold memWf at h
  generalize (0 : Nat) = lo at h
  induction m generalizing lo with
  | nil => exact memGet_memCons v b (.inl rfl)
  | cons c m ih =>
    obtain ⟨x, y⟩ := c
    have h' := h
    simp only [memWfFrom, Bool.and_eq_true, decide_eq_true_eq] at h
    unfold memSet
    split
    · next lt =>
      refine memGet_memCons v b (.inl ?_)
      have ne : a ≠ x := by omega
      simp only [memGet, if_neg ne]
      exact memGet_below h.2 (by omega)
    · split
      · next e =>
        subst e
        rw [memGet_memCons v b (.inl (memGet_below h.2 (by omega)))]
        by_cases e : b = a <;> simp [e, memGet]
      · next nl ne =>
        by_cases e : b = x
        · subst e; simp [memGet, Ne.symm ne]
        · simp only [memGet, if_neg e, ih (x + 1) h.2]

@[simp] theorem memGet_memSet_self {w : Nat} {m : Store w} (h : memWf m = true) (a : Nat) (v : BitVec w) :
    memGet (memSet m a v) a = v := by simp [memGet_memSet h]

theorem memGet_memSet_other {w : Nat} {m : Store w} (h : memWf m = true) {a b : Nat} (v : BitVec w) (ne : b ≠ a) :
    memGet (memSet m a v) b = memGet m b := by simp [memGet_memSet h, ne]

/-- A run of bytes reads back, and every byte outside it stands. -/
theorem memGet_memPut {m : Mem} (h : memWf m = true) (a : Nat) (bytes : List Byte) (b : Nat) :
    memGet (memPut m a bytes) b = if a ≤ b ∧ b < a + bytes.length then bytes.getD (b - a) 0 else memGet m b := by
  suffices H : ∀ k : Nat, ∀ m : Mem, memWf m = true →
      memGet (memSetAll m ((bytes.zipIdx k).map fun x => (a + x.2, x.1))) b =
        if a + k ≤ b ∧ b < a + k + bytes.length then bytes.getD (b - (a + k)) 0 else memGet m b by
    simpa [memPut, cellsAt] using H 0 m h
  clear h m
  induction bytes with
  | nil => intro k m h; simp [memSetAll]
  | cons x xs ih =>
    intro k m h
    rw [List.zipIdx_cons, List.map_cons]
    show memGet (memSetAll (memSet m (a + k) x) _) b = _
    rw [ih (k + 1) (memSet m (a + k) x) (memSet_wf h _ _), memGet_memSet h]
    rcases Nat.lt_trichotomy b (a + k) with l | e | g
    · have n1 : ¬(a + (k + 1) ≤ b ∧ b < a + (k + 1) + xs.length) := by omega
      have n2 : ¬(a + k ≤ b ∧ b < a + k + (x :: xs).length) := by omega
      have n3 : b ≠ a + k := by omega
      rw [if_neg n1, if_neg n2, if_neg n3]
    · subst e
      have n1 : ¬(a + (k + 1) ≤ a + k ∧ a + k < a + (k + 1) + xs.length) := by omega
      have y2 : a + k ≤ a + k ∧ a + k < a + k + (x :: xs).length := by simp
      rw [if_neg n1, if_pos y2]; simp
    · have n3 : b ≠ a + k := by omega
      by_cases y : a + (k + 1) ≤ b ∧ b < a + (k + 1) + xs.length
      · have y2 : a + k ≤ b ∧ b < a + k + (x :: xs).length := by simp only [List.length_cons]; omega
        rw [if_pos y, if_pos y2]
        have e : b - (a + k) = (b - (a + (k + 1))) + 1 := by omega
        rw [e]; simp
      · have y2 : ¬(a + k ≤ b ∧ b < a + k + (x :: xs).length) := by simp only [List.length_cons]; omega
        rw [if_neg y, if_neg y2, if_neg n3]

theorem memGet_memClear {w : Nat} (m : Store w) (lo hi a : Nat) :
    memGet (memClear m lo hi) a = if lo ≤ a ∧ a < hi then 0 else memGet m a := by
  induction m with
  | nil => simp [memClear, memGet]
  | cons c m ih =>
    obtain ⟨b, x⟩ := c
    unfold memClear at ih ⊢
    rw [List.filter_cons]
    by_cases p : lo ≤ b ∧ b < hi
    · have d : (!(decide (lo ≤ b) && decide (b < hi))) = false := by simp [p.1, p.2]
      simp only [d, Bool.false_eq_true, if_false, ih, memGet]
      by_cases e : a = b
      · subst e; simp [p]
      · simp [e]
    · have d : (!(decide (lo ≤ b) && decide (b < hi))) = true := by simp; omega
      simp only [d, if_true, memGet, ih]
      by_cases e : a = b
      · subst e; simp [p]
      · simp [e]

/-! ### Spaces with staged regions (R206, R207) -/

theorem Space.wf_pub {sp : Space} (h : sp.wf = true) : memWf sp.pub = true := by simp_all [Space.wf]

theorem Space.wf_shadow {sp : Space} (h : sp.wf = true) : memWf sp.shadow = true := by simp_all [Space.wf]

theorem Space.wf_mk {p q : Mem} {ls : List (Nat × Nat)} {es : List Soft} (hp : memWf p = true) (hq : memWf q = true) :
    Space.wf { pub := p, shadow := q, lines := ls, soft := es } = true := by simp [Space.wf, hp, hq]

/-- Staging a byte keeps both copies canonical. -/
theorem Space.stage_wf {sp : Space} (h : sp.wf = true) (g a : Nat) (b : Byte) : (sp.stage g a b).wf = true := by
  unfold Space.stage
  split
  · exact wf_mk (wf_pub h) (memSet_wf (wf_shadow h) _ _)
  · exact wf_mk (wf_pub h) (memSet_wf (memPut_wf (wf_shadow h) _ _) _ _)

/-- Storing a byte keeps both copies canonical. -/
theorem Space.store_wf {sp : Space} (h : sp.wf = true) (a : Nat) (b : Byte) : (sp.store a b).wf = true :=
  wf_mk (memSet_wf (wf_pub h) _ _) (wf_shadow h)

theorem foldl_memPut_wf {α : Type} (ls : List α) (f : α → Nat) (g : α → List Byte) {m : Mem} (h : memWf m = true) :
    memWf (ls.foldl (fun m l => memPut m (f l) (g l)) m) = true := by
  induction ls generalizing m with
  | nil => exact h
  | cons l ls ih => exact ih (memPut_wf h _ _)

theorem foldl_memClear_wf {α : Type} {w : Nat} (ls : List α) (f g : α → Nat) {m : Store w} (h : memWf m = true) :
    memWf (ls.foldl (fun m l => memClear m (f l) (g l)) m) = true := by
  induction ls generalizing m with
  | nil => exact h
  | cons l ls ih => exact ih (memClear_wf h _ _)

/-- Publishing written lines keeps both copies canonical. -/
theorem Space.publish_wf {sp : Space} (h : sp.wf = true) (p : Nat × Nat → Bool) : (sp.publish p).wf = true :=
  wf_mk (foldl_memPut_wf _ _ _ (wf_pub h)) (foldl_memClear_wf _ _ _ (wf_shadow h))

/-- Discarding written lines keeps both copies canonical. -/
theorem Space.discard_wf {sp : Space} (h : sp.wf = true) (p : Nat × Nat → Bool) : (sp.discard p).wf = true :=
  wf_mk (wf_pub h) (foldl_memClear_wf _ _ _ (wf_shadow h))

/-- What every other observer sees of a byte stands when it is staged. -/
@[simp] theorem Space.seen_stage (sp : Space) (g a : Nat) (b : Byte) (c : Nat) : (sp.stage g a b).seen c = sp.seen c := by
  unfold Space.stage Space.seen; split <;> rfl

/-- A stored byte is what every observer sees there, and no other byte changes. -/
theorem Space.seen_store {sp : Space} (h : sp.wf = true) (a : Nat) (b : Byte) (c : Nat) :
    (sp.store a b).seen c = if c = a then b else sp.seen c := memGet_memSet (wf_pub h) a b c

/-- Discarding changes nothing that another observer sees. -/
@[simp] theorem Space.seen_discard (sp : Space) (p : Nat × Nat → Bool) (a : Nat) : (sp.discard p).seen a = sp.seen a := rfl

end Sys2Proof.Machine
end

