-- ==== Sys2Proof/Laws/Ops.lean ====
section
/-!
SUPPORT. What each shared operation of the meanings can do, said once, in the terms of Safety.
-/
namespace Sys2Proof.Machine
open Sys2Proof.Safety

/-! ### Registers (R139) -/

@[simp] theorem Ctx.rdS_zero (x : Ctx) : x.rdS 0 = 0 := rfl

@[simp] theorem Ctx.wrS_zero (x : Ctx) (v : Word) : x.wrS 0 v = x := rfl

/-- A write of a scalar is read back from it and from no other; s0 reads zero after it too. -/
theorem Ctx.rdS_wrS (x : Ctx) (n : BitVec 6) (v : Word) (m : BitVec 6) :
    (x.wrS n v).rdS m = if m = n ∧ n ≠ 0 then v else x.rdS m := by
  unfold Ctx.wrS Ctx.rdS
  by_cases hn : n = 0
  · rw [if_pos hn, if_neg (show ¬(m = n ∧ n ≠ 0) from fun h => h.2 hn)]
  · rw [if_neg hn]
    by_cases hm : m = 0
    · rw [if_pos hm, if_neg (show ¬(m = n ∧ n ≠ 0) from fun h => hn (h.1 ▸ hm)), if_pos hm]
    · rw [if_neg hm, if_neg hm]
      by_cases e : m = n
      · subst e; rw [if_pos ⟨rfl, hn⟩]; simp
      · have ne : n.toNat ≠ m.toNat := fun h => e (BitVec.eq_of_toNat_eq h.symm)
        rw [if_neg (show ¬(m = n ∧ n ≠ 0) from fun h => e h.1)]; simp [ne]

/-- A write of a scalar changes no other part of the registers. -/
theorem Ctx.wrS_frame (x : Ctx) (n : BitVec 6) (v : Word) : x.wrS n v = { x with s := (x.wrS n v).s } := by
  unfold Ctx.wrS; split <;> rfl

/-! ### Causes and checks (R19, R53, R255) -/

/-- An op that traps at issue does nothing but charge its cause. -/
theorem trapOut_eq (c : Cause) (v n : Nat) (s : State) :
    trapOut c v n s = .next (charged s c (BitVec.ofNat 64 v) n s.tile.ct.now) := rfl

/-- With a fault among its checks a meaning charges the first one; without one it does what it does. -/
theorem checked_eq (faults : State → List (Option (Cause × Nat))) (n : Nat) (f : State → Out) (s : State) :
    checked faults n f s = match firstFault (faults s) with
      | some (c, v) => .next (charged s c (BitVec.ofNat 64 v) n s.tile.ct.now)
      | none => f s := by
  unfold checked; cases firstFault (faults s) <;> rfl

theorem checked_ok {faults : State → List (Option (Cause × Nat))} {s : State} (h : firstFault (faults s) = none) (n : Nat)
    (f : State → Out) : checked faults n f s = f s := by rw [checked_eq, h]

theorem checked_fault {faults : State → List (Option (Cause × Nat))} {s : State} {c : Cause} {v : Nat}
    (h : firstFault (faults s) = some (c, v)) (n : Nat) (f : State → Out) :
    checked faults n f s = .next (charged s c (BitVec.ofNat 64 v) n s.tile.ct.now) := by rw [checked_eq, h]

/-- No check finds a fault exactly where each of them finds none. -/
theorem firstFault_none {l : List (Option (Cause × Nat))} : firstFault l = none ↔ ∀ x ∈ l, x = none := by
  simp [firstFault, List.findSome?_eq_none_iff]

/-! ### Results (R36, R37) -/

/-- A landing at issue is one result more in flight. -/
theorem land_eq (s : State) (d : Dest) (v : Vec) (be : Word) (fl lat n : Nat) :
    onTile (·.land d v be fl lat n) s = .next (gains s d v be fl lat n) := rfl

theorem landS_eq (s : State) (d : BitVec 6) (v : Word) (lat : Nat) :
    onTile (·.landS d v lat 0) s = .next (gainsS s d v 0 lat) := rfl

theorem landQ_eq (s : State) (d : BitVec 3) (v : Bool) (lat : Nat) :
    onTile (·.landQ d v lat) s = .next (gainsQ s d v 0 lat) := rfl

theorem landK_eq (s : State) (d : BitVec 3) (v : Word) (fl lat : Nat) :
    onTile (·.landK d v fl lat) s = .next (gainsK s d v fl lat) := rfl

/-- An integer op delivers its function of its operands after its latency (R172). -/
theorem scalarOp_eq (lat : Nat) (o : RRR) (f : Word → Word → Word) (s : State) :
    scalarOp lat o f s = .next (gainsS s o.d (f (s.tile.s o.a) (s.tile.s o.b)) 0 lat) := rfl

/-- A mask op delivers its function after two cycles (R120). -/
theorem maskOp_eq (o : RRR) (f : Word → Word → Word) (s : State) :
    maskOp o f s = .next (gainsK s (low3 o.d) (f (s.tile.ct.cx.rdK (low3 o.a)) (s.tile.ct.cx.rdK (low3 o.b))) 0 2) := rfl

/-! ### Floating results (R93, R177) -/

theorem bit_eq_testBit (x n : Nat) : bit x n = x.testBit n := by
  simp only [bit, Nat.testBit, Nat.shiftRight_eq_div_pow, Nat.one_and_eq_mod_two]
  rcases Nat.mod_two_eq_zero_or_one (x / 2 ^ n) with h | h <;> rw [h] <;> rfl

theorem testBit_bits (x h l i : Nat) : (bits x h l).testBit i = (decide (i < h + 1 - l) && x.testBit (i + l)) := by
  simp [bits, Nat.testBit_mod_two_pow, Nat.testBit_div_two_pow]

theorem quiet_bits {s : State} {fl : Nat} (q : Quiet s fl) {h l : Nat} (lt : h < 13) :
    bits fl h l &&& bits s.tile.trapen h l = 0 := by
  apply Nat.eq_of_testBit_eq
  intro i
  simp only [Nat.testBit_and, testBit_bits, Nat.zero_testBit]
  by_cases c : i < h + 1 - l
  · by_cases b : fl.testBit (i + l) = true
    · have e := q (i + l) (by omega) (by rw [bit_eq_testBit]; exact b)
      rw [bit_eq_testBit] at e
      simp [Tile.trapen, e]
    · simp [Bool.eq_false_iff.mpr b]
  · simp [c]

/-- A result whose flags are not enabled to trap lands, with its flags. -/
theorem arith_quiet {s : State} {fl : Nat} (q : Quiet s fl) (lat n : Nat) (f : Tile → Nat → Tile) :
    s.tile.arith [fl] lat n f = f s.tile fl := by
  have b : bits fl 4 0 &&& bits s.tile.trapen 4 0 = 0 := quiet_bits q (by omega)
  have d : bits fl 12 8 &&& bits s.tile.trapen 12 8 = 0 := quiet_bits q (by omega)
  have none : arithTrap s.tile.trapen [fl] = none := by simp [arithTrap, b, d]
  unfold Tile.arith; rw [none]; simp

/-- A binary64 op whose flags are not enabled delivers its value and its flags after its latency (R177). -/
theorem floatOp_quiet {s : State} {o : RRR} {f : BFmt → Nat → Nat → Nat → FRes}
    (q : Quiet s (f (bfmt 11) s.tile.fmode (s.tile.sN o.a) (s.tile.sN o.b)).fl) (lat : Nat) :
    floatOp lat o f s = let r := f (bfmt 11) s.tile.fmode (s.tile.sN o.a) (s.tile.sN o.b)
      .next (gainsS s o.d (BitVec.ofNat 64 r.val) r.fl lat) := by
  show Host.Outcome.next { s with tile := s.tile.arith [_] lat 0 _ } = _
  rw [bFlags, arith_quiet q]; rfl

/-! ### Commands (R393, R398, R409) -/

/-- A command of a management ring acts on that ring once the module has booted. -/
theorem mgmtCommand_acts {c : Cmd} {s : State} {p : BitVec 1} (h : c.ring = .mgmt p) (b : s.hilum.booting = false)
    (f : State → State) : mgmtCommand c f s = .next (f s) := by simp [mgmtCommand, h, b]

/-- A command of a submission queue acts for the owner once the module has booted. -/
theorem queueCommand_acts {c : Cmd} {s : State} {q : BitVec 4} (h : c.ring = .queue q) (b : s.hilum.booting = false)
    (o : s.hilum.owner c.port = true) (f : State → State) : queueCommand c f s = .next (f s) := by simp [queueCommand, h, b, o]

/-! ### The Hilum's rings -/

@[simp] theorem Hilum.ring_onRing_self (h : Hilum) (r : RingId) (f : Ring → Ring) : (h.onRing r f).ring r = f (h.ring r) := by
  cases r <;> simp [Hilum.onRing, Hilum.ring]

theorem Hilum.ring_onRing_other (h : Hilum) {r q : RingId} (f : Ring → Ring) (ne : q ≠ r) : (h.onRing r f).ring q = h.ring q := by
  cases r with
  | queue a =>
    cases q with
    | queue b =>
      have n : a.toNat ≠ b.toNat := fun e => ne (by rw [BitVec.eq_of_toNat_eq e])
      simp [Hilum.onRing, Hilum.ring, n]
    | mgmt b => rfl
  | mgmt a =>
    cases q with
    | queue b => rfl
    | mgmt b =>
      have n : a.toNat ≠ b.toNat := fun e => ne (by rw [BitVec.eq_of_toNat_eq e])
      simp [Hilum.onRing, Hilum.ring, n]

end Sys2Proof.Machine
end

