-- ==== Sys2Proof/Laws/Shares.lean ====
section
/-!
SUPPORT. Moving and replacing parts of memories, as the loading and the movement of contexts do, keeps the canonical form.
-/
namespace Sys2Proof.Machine

theorem map_shift_wfFrom {w : Nat} {m : Store w} {lo k d : Nat} (h : memWfFrom lo m = true) (le : k ≤ lo) :
    memWfFrom (lo - k + d) (m.map fun c => (c.1 - k + d, c.2)) = true := by
  induction m generalizing lo with
  | nil => rfl
  | cons c m ih =>
    obtain ⟨b, x⟩ := c
    simp only [memWfFrom, Bool.and_eq_true, decide_eq_true_eq] at h
    simp only [List.map_cons, memWfFrom, Bool.and_eq_true, decide_eq_true_eq]
    have e := ih h.2 (by omega)
    have n : b + 1 - k + d = b - k + d + 1 := by omega
    rw [n] at e
    exact ⟨⟨by omega, h.1.2⟩, e⟩

theorem filter_range_wfFrom {w : Nat} {m : Store w} {a lo hi : Nat} (h : memWfFrom a m = true) :
    memWfFrom (max a lo) (m.filter fun c => decide (lo ≤ c.1) && decide (c.1 < hi)) = true := by
  induction m generalizing a with
  | nil => rfl
  | cons c m ih =>
    obtain ⟨b, x⟩ := c
    simp only [memWfFrom, Bool.and_eq_true, decide_eq_true_eq] at h
    rw [List.filter_cons]
    split
    · next p =>
      simp only [Bool.and_eq_true, decide_eq_true_eq] at p
      simp only [memWfFrom, Bool.and_eq_true, decide_eq_true_eq]
      refine ⟨⟨by omega, h.1.2⟩, ?_⟩
      have e := ih h.2
      rwa [Nat.max_eq_left (by omega)] at e
    · exact memWfFrom_mono (ih h.2) (by omega)

/-- A part of a memory moved to another place is canonical. -/
theorem memMove_wf {w : Nat} {m : Store w} (h : memWf m = true) (lo hi at_ : Nat) : memWf (memMove m lo hi at_) = true := by
  have e := map_shift_wfFrom (k := lo) (d := at_) (filter_range_wfFrom (lo := lo) (hi := hi) h) (by omega)
  exact memWfFrom_mono e (by omega)

/-- A memory with a part replaced is canonical. -/
theorem memPaste_wf {w : Nat} {m : Store w} (h : memWf m = true) (at_ n : Nat) (new : Store w) :
    memWf (memPaste m at_ n new) = true := memSetAll_wf (memClear_wf h _ _) _

end Sys2Proof.Machine
end

