-- ==== Sys2Proof/Laws/State.lean ====
section
/-!
SUPPORT. What the updates of the state leave in each field: one lemma a field for each update.
-/
namespace Sys2Proof.Machine
open Sys2Proof.Safety

/-! ### The tile in focus -/

@[simp] theorem withTile_tile (s : State) (t : Tile) : (withTile s t).tile = t := rfl
@[simp] theorem withTile_others (s : State) (t : Tile) : (withTile s t).others = s.others := rfl
@[simp] theorem withTile_jobs (s : State) (t : Tile) : (withTile s t).jobs = s.jobs := rfl
@[simp] theorem withTile_wcyc (s : State) (t : Tile) : (withTile s t).wcyc = s.wcyc := rfl
@[simp] theorem withTile_tick (s : State) (t : Tile) : (withTile s t).tick = s.tick := rfl
@[simp] theorem withTile_edge (s : State) (t : Tile) : (withTile s t).edge = s.edge := rfl
@[simp] theorem withTile_beaconDone (s : State) (t : Tile) : (withTile s t).beaconDone = s.beaconDone := rfl
@[simp] theorem withTile_driftDone (s : State) (t : Tile) : (withTile s t).driftDone = s.driftDone := rfl
@[simp] theorem withTile_quads (s : State) (t : Tile) : (withTile s t).quads = s.quads := rfl
@[simp] theorem withTile_arrivals (s : State) (t : Tile) : (withTile s t).arrivals = s.arrivals := rfl
@[simp] theorem withTile_beaconSlots (s : State) (t : Tile) : (withTile s t).beaconSlots = s.beaconSlots := rfl
@[simp] theorem withTile_retireAsk (s : State) (t : Tile) : (withTile s t).retireAsk = s.retireAsk := rfl
@[simp] theorem withTile_storeErr (s : State) (t : Tile) : (withTile s t).storeErr = s.storeErr := rfl
@[simp] theorem withTile_sramErr (s : State) (t : Tile) : (withTile s t).sramErr = s.sramErr := rfl
@[simp] theorem withTile_commons (s : State) (t : Tile) : (withTile s t).commons = s.commons := rfl
@[simp] theorem withTile_arms (s : State) (t : Tile) : (withTile s t).arms = s.arms := rfl
@[simp] theorem withTile_hilum (s : State) (t : Tile) : (withTile s t).hilum = s.hilum := rfl
@[simp] theorem withTile_power (s : State) (t : Tile) : (withTile s t).power = s.power := rfl
@[simp] theorem withTile_pod (s : State) (t : Tile) : (withTile s t).pod = s.pod := rfl
@[simp] theorem withTile_inbox (s : State) (t : Tile) : (withTile s t).inbox = s.inbox := rfl
@[simp] theorem withTile_timeAt (s : State) (t : Tile) : (withTile s t).timeAt = s.timeAt := rfl
@[simp] theorem withTile_launches (s : State) (t : Tile) : (withTile s t).launches = s.launches := rfl

/-! ### The Hilum -/

@[simp] theorem State.onHilum_tile (s : State) (f : Hilum → Hilum) : (s.onHilum f).tile = s.tile := rfl
@[simp] theorem State.onHilum_others (s : State) (f : Hilum → Hilum) : (s.onHilum f).others = s.others := rfl
@[simp] theorem State.onHilum_jobs (s : State) (f : Hilum → Hilum) : (s.onHilum f).jobs = s.jobs := rfl
@[simp] theorem State.onHilum_wcyc (s : State) (f : Hilum → Hilum) : (s.onHilum f).wcyc = s.wcyc := rfl
@[simp] theorem State.onHilum_tick (s : State) (f : Hilum → Hilum) : (s.onHilum f).tick = s.tick := rfl
@[simp] theorem State.onHilum_edge (s : State) (f : Hilum → Hilum) : (s.onHilum f).edge = s.edge := rfl
@[simp] theorem State.onHilum_beaconDone (s : State) (f : Hilum → Hilum) : (s.onHilum f).beaconDone = s.beaconDone := rfl
@[simp] theorem State.onHilum_driftDone (s : State) (f : Hilum → Hilum) : (s.onHilum f).driftDone = s.driftDone := rfl
@[simp] theorem State.onHilum_quads (s : State) (f : Hilum → Hilum) : (s.onHilum f).quads = s.quads := rfl
@[simp] theorem State.onHilum_arrivals (s : State) (f : Hilum → Hilum) : (s.onHilum f).arrivals = s.arrivals := rfl
@[simp] theorem State.onHilum_beaconSlots (s : State) (f : Hilum → Hilum) : (s.onHilum f).beaconSlots = s.beaconSlots := rfl
@[simp] theorem State.onHilum_retireAsk (s : State) (f : Hilum → Hilum) : (s.onHilum f).retireAsk = s.retireAsk := rfl
@[simp] theorem State.onHilum_storeErr (s : State) (f : Hilum → Hilum) : (s.onHilum f).storeErr = s.storeErr := rfl
@[simp] theorem State.onHilum_sramErr (s : State) (f : Hilum → Hilum) : (s.onHilum f).sramErr = s.sramErr := rfl
@[simp] theorem State.onHilum_commons (s : State) (f : Hilum → Hilum) : (s.onHilum f).commons = s.commons := rfl
@[simp] theorem State.onHilum_arms (s : State) (f : Hilum → Hilum) : (s.onHilum f).arms = s.arms := rfl
@[simp] theorem State.onHilum_hilum (s : State) (f : Hilum → Hilum) : (s.onHilum f).hilum = f s.hilum := rfl
@[simp] theorem State.onHilum_power (s : State) (f : Hilum → Hilum) : (s.onHilum f).power = s.power := rfl
@[simp] theorem State.onHilum_pod (s : State) (f : Hilum → Hilum) : (s.onHilum f).pod = s.pod := rfl
@[simp] theorem State.onHilum_inbox (s : State) (f : Hilum → Hilum) : (s.onHilum f).inbox = s.inbox := rfl
@[simp] theorem State.onHilum_timeAt (s : State) (f : Hilum → Hilum) : (s.onHilum f).timeAt = s.timeAt := rfl
@[simp] theorem State.onHilum_launches (s : State) (f : Hilum → Hilum) : (s.onHilum f).launches = s.launches := rfl

/-! ### A job -/

@[simp] theorem State.onJob_tile (s : State) (pid : Nat) (f : Job → Job) : (s.onJob pid f).tile = s.tile := rfl
@[simp] theorem State.onJob_others (s : State) (pid : Nat) (f : Job → Job) : (s.onJob pid f).others = s.others := rfl
@[simp] theorem State.onJob_jobs (s : State) (pid : Nat) (f : Job → Job) : (s.onJob pid f).jobs = updWhere (fun j => j.pid == pid && j.state == .running) f s.jobs := rfl
@[simp] theorem State.onJob_wcyc (s : State) (pid : Nat) (f : Job → Job) : (s.onJob pid f).wcyc = s.wcyc := rfl
@[simp] theorem State.onJob_tick (s : State) (pid : Nat) (f : Job → Job) : (s.onJob pid f).tick = s.tick := rfl
@[simp] theorem State.onJob_edge (s : State) (pid : Nat) (f : Job → Job) : (s.onJob pid f).edge = s.edge := rfl
@[simp] theorem State.onJob_beaconDone (s : State) (pid : Nat) (f : Job → Job) : (s.onJob pid f).beaconDone = s.beaconDone := rfl
@[simp] theorem State.onJob_driftDone (s : State) (pid : Nat) (f : Job → Job) : (s.onJob pid f).driftDone = s.driftDone := rfl
@[simp] theorem State.onJob_quads (s : State) (pid : Nat) (f : Job → Job) : (s.onJob pid f).quads = s.quads := rfl
@[simp] theorem State.onJob_arrivals (s : State) (pid : Nat) (f : Job → Job) : (s.onJob pid f).arrivals = s.arrivals := rfl
@[simp] theorem State.onJob_beaconSlots (s : State) (pid : Nat) (f : Job → Job) : (s.onJob pid f).beaconSlots = s.beaconSlots := rfl
@[simp] theorem State.onJob_retireAsk (s : State) (pid : Nat) (f : Job → Job) : (s.onJob pid f).retireAsk = s.retireAsk := rfl
@[simp] theorem State.onJob_storeErr (s : State) (pid : Nat) (f : Job → Job) : (s.onJob pid f).storeErr = s.storeErr := rfl
@[simp] theorem State.onJob_sramErr (s : State) (pid : Nat) (f : Job → Job) : (s.onJob pid f).sramErr = s.sramErr := rfl
@[simp] theorem State.onJob_commons (s : State) (pid : Nat) (f : Job → Job) : (s.onJob pid f).commons = s.commons := rfl
@[simp] theorem State.onJob_arms (s : State) (pid : Nat) (f : Job → Job) : (s.onJob pid f).arms = s.arms := rfl
@[simp] theorem State.onJob_hilum (s : State) (pid : Nat) (f : Job → Job) : (s.onJob pid f).hilum = s.hilum := rfl
@[simp] theorem State.onJob_power (s : State) (pid : Nat) (f : Job → Job) : (s.onJob pid f).power = s.power := rfl
@[simp] theorem State.onJob_pod (s : State) (pid : Nat) (f : Job → Job) : (s.onJob pid f).pod = s.pod := rfl
@[simp] theorem State.onJob_inbox (s : State) (pid : Nat) (f : Job → Job) : (s.onJob pid f).inbox = s.inbox := rfl
@[simp] theorem State.onJob_timeAt (s : State) (pid : Nat) (f : Job → Job) : (s.onJob pid f).timeAt = s.timeAt := rfl
@[simp] theorem State.onJob_launches (s : State) (pid : Nat) (f : Job → Job) : (s.onJob pid f).launches = s.launches := rfl

/-! ### A quad -/

@[simp] theorem State.setQuad_tile (s : State) (q : Nat) (x : Quad) : (s.setQuad q x).tile = s.tile := rfl
@[simp] theorem State.setQuad_others (s : State) (q : Nat) (x : Quad) : (s.setQuad q x).others = s.others := rfl
@[simp] theorem State.setQuad_jobs (s : State) (q : Nat) (x : Quad) : (s.setQuad q x).jobs = s.jobs := rfl
@[simp] theorem State.setQuad_wcyc (s : State) (q : Nat) (x : Quad) : (s.setQuad q x).wcyc = s.wcyc := rfl
@[simp] theorem State.setQuad_tick (s : State) (q : Nat) (x : Quad) : (s.setQuad q x).tick = s.tick := rfl
@[simp] theorem State.setQuad_edge (s : State) (q : Nat) (x : Quad) : (s.setQuad q x).edge = s.edge := rfl
@[simp] theorem State.setQuad_beaconDone (s : State) (q : Nat) (x : Quad) : (s.setQuad q x).beaconDone = s.beaconDone := rfl
@[simp] theorem State.setQuad_driftDone (s : State) (q : Nat) (x : Quad) : (s.setQuad q x).driftDone = s.driftDone := rfl
@[simp] theorem State.setQuad_quads (s : State) (q : Nat) (x : Quad) : (s.setQuad q x).quads = (q, x) :: s.quads.filter (·.1 != q) := rfl
@[simp] theorem State.setQuad_arrivals (s : State) (q : Nat) (x : Quad) : (s.setQuad q x).arrivals = s.arrivals := rfl
@[simp] theorem State.setQuad_beaconSlots (s : State) (q : Nat) (x : Quad) : (s.setQuad q x).beaconSlots = s.beaconSlots := rfl
@[simp] theorem State.setQuad_retireAsk (s : State) (q : Nat) (x : Quad) : (s.setQuad q x).retireAsk = s.retireAsk := rfl
@[simp] theorem State.setQuad_storeErr (s : State) (q : Nat) (x : Quad) : (s.setQuad q x).storeErr = s.storeErr := rfl
@[simp] theorem State.setQuad_sramErr (s : State) (q : Nat) (x : Quad) : (s.setQuad q x).sramErr = s.sramErr := rfl
@[simp] theorem State.setQuad_commons (s : State) (q : Nat) (x : Quad) : (s.setQuad q x).commons = s.commons := rfl
@[simp] theorem State.setQuad_arms (s : State) (q : Nat) (x : Quad) : (s.setQuad q x).arms = s.arms := rfl
@[simp] theorem State.setQuad_hilum (s : State) (q : Nat) (x : Quad) : (s.setQuad q x).hilum = s.hilum := rfl
@[simp] theorem State.setQuad_power (s : State) (q : Nat) (x : Quad) : (s.setQuad q x).power = s.power := rfl
@[simp] theorem State.setQuad_pod (s : State) (q : Nat) (x : Quad) : (s.setQuad q x).pod = s.pod := rfl
@[simp] theorem State.setQuad_inbox (s : State) (q : Nat) (x : Quad) : (s.setQuad q x).inbox = s.inbox := rfl
@[simp] theorem State.setQuad_timeAt (s : State) (q : Nat) (x : Quad) : (s.setQuad q x).timeAt = s.timeAt := rfl
@[simp] theorem State.setQuad_launches (s : State) (q : Nat) (x : Quad) : (s.setQuad q x).launches = s.launches := rfl

/-! ### The registers of a tile -/

@[simp] theorem Tile.onCx_ltid (t : Tile) (f : Ctx → Ctx) : (t.onCx f).ltid = t.ltid := rfl
@[simp] theorem Tile.onCx_ct (t : Tile) (f : Ctx → Ctx) : (t.onCx f).ct = { t.ct with cx := f t.ct.cx } := rfl
@[simp] theorem Tile.onCx_standby (t : Tile) (f : Ctx → Ctx) : (t.onCx f).standby = t.standby := rfl
@[simp] theorem Tile.onCx_streamed (t : Tile) (f : Ctx → Ctx) : (t.onCx f).streamed = t.streamed := rfl
@[simp] theorem Tile.onCx_want (t : Tile) (f : Ctx → Ctx) : (t.onCx f).want = t.want := rfl
@[simp] theorem Tile.onCx_moveAt (t : Tile) (f : Ctx → Ctx) : (t.onCx f).moveAt = t.moveAt := rfl
@[simp] theorem Tile.onCx_switchLeft (t : Tile) (f : Ctx → Ctx) : (t.onCx f).switchLeft = t.switchLeft := rfl
@[simp] theorem Tile.onCx_saved (t : Tile) (f : Ctx → Ctx) : (t.onCx f).saved = t.saved := rfl
@[simp] theorem Tile.onCx_imem (t : Tile) (f : Ctx → Ctx) : (t.onCx f).imem = t.imem := rfl
@[simp] theorem Tile.onCx_sp (t : Tile) (f : Ctx → Ctx) : (t.onCx f).sp = t.sp := rfl
@[simp] theorem Tile.onCx_marks (t : Tile) (f : Ctx → Ctx) : (t.onCx f).marks = t.marks := rfl
@[simp] theorem Tile.onCx_lastUe (t : Tile) (f : Ctx → Ctx) : (t.onCx f).lastUe = t.lastUe := rfl
@[simp] theorem Tile.onCx_corrected (t : Tile) (f : Ctx → Ctx) : (t.onCx f).corrected = t.corrected := rfl
@[simp] theorem Tile.onCx_corrSeen (t : Tile) (f : Ctx → Ctx) : (t.onCx f).corrSeen = t.corrSeen := rfl
@[simp] theorem Tile.onCx_corrAt (t : Tile) (f : Ctx → Ctx) : (t.onCx f).corrAt = t.corrAt := rfl
@[simp] theorem Tile.onCx_rollAsk (t : Tile) (f : Ctx → Ctx) : (t.onCx f).rollAsk = t.rollAsk := rfl
@[simp] theorem Tile.onCx_reloadAsk (t : Tile) (f : Ctx → Ctx) : (t.onCx f).reloadAsk = t.reloadAsk := rfl
@[simp] theorem Tile.onCx_acc (t : Tile) (f : Ctx → Ctx) : (t.onCx f).acc = t.acc := rfl
@[simp] theorem Tile.onCx_scales (t : Tile) (f : Ctx → Ctx) : (t.onCx f).scales = t.scales := rfl
@[simp] theorem Tile.onCx_tags (t : Tile) (f : Ctx → Ctx) : (t.onCx f).tags = t.tags := rfl
@[simp] theorem Tile.onCx_cimBusy (t : Tile) (f : Ctx → Ctx) : (t.onCx f).cimBusy = t.cimBusy := rfl
@[simp] theorem Tile.onCx_denseBusy (t : Tile) (f : Ctx → Ctx) : (t.onCx f).denseBusy = t.denseBusy := rfl
@[simp] theorem Tile.onCx_pipBusy (t : Tile) (f : Ctx → Ctx) : (t.onCx f).pipBusy = t.pipBusy := rfl
@[simp] theorem Tile.onCx_decBusy (t : Tile) (f : Ctx → Ctx) : (t.onCx f).decBusy = t.decBusy := rfl
@[simp] theorem Tile.onCx_pend (t : Tile) (f : Ctx → Ctx) : (t.onCx f).pend = t.pend := rfl
@[simp] theorem Tile.onCx_banks (t : Tile) (f : Ctx → Ctx) : (t.onCx f).banks = t.banks := rfl
@[simp] theorem Tile.onCx_dets (t : Tile) (f : Ctx → Ctx) : (t.onCx f).dets = t.dets := rfl
@[simp] theorem Tile.onCx_post (t : Tile) (f : Ctx → Ctx) : (t.onCx f).post = t.post := rfl
@[simp] theorem Tile.onCx_late (t : Tile) (f : Ctx → Ctx) : (t.onCx f).late = t.late := rfl
@[simp] theorem Tile.onCx_owed (t : Tile) (f : Ctx → Ctx) : (t.onCx f).owed = t.owed := rfl
@[simp] theorem Tile.onCx_undo (t : Tile) (f : Ctx → Ctx) : (t.onCx f).undo = t.undo := rfl
@[simp] theorem Tile.onCx_engineOor (t : Tile) (f : Ctx → Ctx) : (t.onCx f).engineOor = t.engineOor := rfl
@[simp] theorem Tile.onCx_beats (t : Tile) (f : Ctx → Ctx) : (t.onCx f).beats = t.beats := rfl
@[simp] theorem Tile.onCx_landing (t : Tile) (f : Ctx → Ctx) : (t.onCx f).landing = t.landing := rfl
@[simp] theorem Tile.onCx_drops (t : Tile) (f : Ctx → Ctx) : (t.onCx f).drops = t.drops := rfl
@[simp] theorem Tile.onCx_uid (t : Tile) (f : Ctx → Ctx) : (t.onCx f).uid = t.uid := rfl
@[simp] theorem Tile.onCx_issued (t : Tile) (f : Ctx → Ctx) : (t.onCx f).issued = t.issued := rfl
@[simp] theorem Tile.onCx_lost (t : Tile) (f : Ctx → Ctx) : (t.onCx f).lost = t.lost := rfl

/-! ### The sequencer of a tile -/

@[simp] theorem Tile.onSq_ltid (t : Tile) (f : Seq → Seq) : (t.onSq f).ltid = t.ltid := rfl
@[simp] theorem Tile.onSq_ct (t : Tile) (f : Seq → Seq) : (t.onSq f).ct = { t.ct with sq := f t.ct.sq } := rfl
@[simp] theorem Tile.onSq_standby (t : Tile) (f : Seq → Seq) : (t.onSq f).standby = t.standby := rfl
@[simp] theorem Tile.onSq_streamed (t : Tile) (f : Seq → Seq) : (t.onSq f).streamed = t.streamed := rfl
@[simp] theorem Tile.onSq_want (t : Tile) (f : Seq → Seq) : (t.onSq f).want = t.want := rfl
@[simp] theorem Tile.onSq_moveAt (t : Tile) (f : Seq → Seq) : (t.onSq f).moveAt = t.moveAt := rfl
@[simp] theorem Tile.onSq_switchLeft (t : Tile) (f : Seq → Seq) : (t.onSq f).switchLeft = t.switchLeft := rfl
@[simp] theorem Tile.onSq_saved (t : Tile) (f : Seq → Seq) : (t.onSq f).saved = t.saved := rfl
@[simp] theorem Tile.onSq_imem (t : Tile) (f : Seq → Seq) : (t.onSq f).imem = t.imem := rfl
@[simp] theorem Tile.onSq_sp (t : Tile) (f : Seq → Seq) : (t.onSq f).sp = t.sp := rfl
@[simp] theorem Tile.onSq_marks (t : Tile) (f : Seq → Seq) : (t.onSq f).marks = t.marks := rfl
@[simp] theorem Tile.onSq_lastUe (t : Tile) (f : Seq → Seq) : (t.onSq f).lastUe = t.lastUe := rfl
@[simp] theorem Tile.onSq_corrected (t : Tile) (f : Seq → Seq) : (t.onSq f).corrected = t.corrected := rfl
@[simp] theorem Tile.onSq_corrSeen (t : Tile) (f : Seq → Seq) : (t.onSq f).corrSeen = t.corrSeen := rfl
@[simp] theorem Tile.onSq_corrAt (t : Tile) (f : Seq → Seq) : (t.onSq f).corrAt = t.corrAt := rfl
@[simp] theorem Tile.onSq_rollAsk (t : Tile) (f : Seq → Seq) : (t.onSq f).rollAsk = t.rollAsk := rfl
@[simp] theorem Tile.onSq_reloadAsk (t : Tile) (f : Seq → Seq) : (t.onSq f).reloadAsk = t.reloadAsk := rfl
@[simp] theorem Tile.onSq_acc (t : Tile) (f : Seq → Seq) : (t.onSq f).acc = t.acc := rfl
@[simp] theorem Tile.onSq_scales (t : Tile) (f : Seq → Seq) : (t.onSq f).scales = t.scales := rfl
@[simp] theorem Tile.onSq_tags (t : Tile) (f : Seq → Seq) : (t.onSq f).tags = t.tags := rfl
@[simp] theorem Tile.onSq_cimBusy (t : Tile) (f : Seq → Seq) : (t.onSq f).cimBusy = t.cimBusy := rfl
@[simp] theorem Tile.onSq_denseBusy (t : Tile) (f : Seq → Seq) : (t.onSq f).denseBusy = t.denseBusy := rfl
@[simp] theorem Tile.onSq_pipBusy (t : Tile) (f : Seq → Seq) : (t.onSq f).pipBusy = t.pipBusy := rfl
@[simp] theorem Tile.onSq_decBusy (t : Tile) (f : Seq → Seq) : (t.onSq f).decBusy = t.decBusy := rfl
@[simp] theorem Tile.onSq_pend (t : Tile) (f : Seq → Seq) : (t.onSq f).pend = t.pend := rfl
@[simp] theorem Tile.onSq_banks (t : Tile) (f : Seq → Seq) : (t.onSq f).banks = t.banks := rfl
@[simp] theorem Tile.onSq_dets (t : Tile) (f : Seq → Seq) : (t.onSq f).dets = t.dets := rfl
@[simp] theorem Tile.onSq_post (t : Tile) (f : Seq → Seq) : (t.onSq f).post = t.post := rfl
@[simp] theorem Tile.onSq_late (t : Tile) (f : Seq → Seq) : (t.onSq f).late = t.late := rfl
@[simp] theorem Tile.onSq_owed (t : Tile) (f : Seq → Seq) : (t.onSq f).owed = t.owed := rfl
@[simp] theorem Tile.onSq_undo (t : Tile) (f : Seq → Seq) : (t.onSq f).undo = t.undo := rfl
@[simp] theorem Tile.onSq_engineOor (t : Tile) (f : Seq → Seq) : (t.onSq f).engineOor = t.engineOor := rfl
@[simp] theorem Tile.onSq_beats (t : Tile) (f : Seq → Seq) : (t.onSq f).beats = t.beats := rfl
@[simp] theorem Tile.onSq_landing (t : Tile) (f : Seq → Seq) : (t.onSq f).landing = t.landing := rfl
@[simp] theorem Tile.onSq_drops (t : Tile) (f : Seq → Seq) : (t.onSq f).drops = t.drops := rfl
@[simp] theorem Tile.onSq_uid (t : Tile) (f : Seq → Seq) : (t.onSq f).uid = t.uid := rfl
@[simp] theorem Tile.onSq_issued (t : Tile) (f : Seq → Seq) : (t.onSq f).issued = t.issued := rfl
@[simp] theorem Tile.onSq_lost (t : Tile) (f : Seq → Seq) : (t.onSq f).lost = t.lost := rfl

/-! ### A cause -/

@[simp] theorem Tile.raiseAt_ltid (t : Tile) (c : Cause) (v n d : Nat) : (t.raiseAt c v n d).ltid = t.ltid := rfl
@[simp] theorem Tile.raiseAt_ct (t : Tile) (c : Cause) (v n d : Nat) : (t.raiseAt c v n d).ct = t.ct := rfl
@[simp] theorem Tile.raiseAt_standby (t : Tile) (c : Cause) (v n d : Nat) : (t.raiseAt c v n d).standby = t.standby := rfl
@[simp] theorem Tile.raiseAt_streamed (t : Tile) (c : Cause) (v n d : Nat) : (t.raiseAt c v n d).streamed = t.streamed := rfl
@[simp] theorem Tile.raiseAt_want (t : Tile) (c : Cause) (v n d : Nat) : (t.raiseAt c v n d).want = t.want := rfl
@[simp] theorem Tile.raiseAt_moveAt (t : Tile) (c : Cause) (v n d : Nat) : (t.raiseAt c v n d).moveAt = t.moveAt := rfl
@[simp] theorem Tile.raiseAt_switchLeft (t : Tile) (c : Cause) (v n d : Nat) : (t.raiseAt c v n d).switchLeft = t.switchLeft := rfl
@[simp] theorem Tile.raiseAt_saved (t : Tile) (c : Cause) (v n d : Nat) : (t.raiseAt c v n d).saved = t.saved := rfl
@[simp] theorem Tile.raiseAt_imem (t : Tile) (c : Cause) (v n d : Nat) : (t.raiseAt c v n d).imem = t.imem := rfl
@[simp] theorem Tile.raiseAt_sp (t : Tile) (c : Cause) (v n d : Nat) : (t.raiseAt c v n d).sp = t.sp := rfl
@[simp] theorem Tile.raiseAt_marks (t : Tile) (c : Cause) (v n d : Nat) : (t.raiseAt c v n d).marks = t.marks := rfl
@[simp] theorem Tile.raiseAt_lastUe (t : Tile) (c : Cause) (v n d : Nat) : (t.raiseAt c v n d).lastUe = t.lastUe := rfl
@[simp] theorem Tile.raiseAt_corrected (t : Tile) (c : Cause) (v n d : Nat) : (t.raiseAt c v n d).corrected = t.corrected := rfl
@[simp] theorem Tile.raiseAt_corrSeen (t : Tile) (c : Cause) (v n d : Nat) : (t.raiseAt c v n d).corrSeen = t.corrSeen := rfl
@[simp] theorem Tile.raiseAt_corrAt (t : Tile) (c : Cause) (v n d : Nat) : (t.raiseAt c v n d).corrAt = t.corrAt := rfl
@[simp] theorem Tile.raiseAt_rollAsk (t : Tile) (c : Cause) (v n d : Nat) : (t.raiseAt c v n d).rollAsk = t.rollAsk := rfl
@[simp] theorem Tile.raiseAt_reloadAsk (t : Tile) (c : Cause) (v n d : Nat) : (t.raiseAt c v n d).reloadAsk = t.reloadAsk := rfl
@[simp] theorem Tile.raiseAt_acc (t : Tile) (c : Cause) (v n d : Nat) : (t.raiseAt c v n d).acc = t.acc := rfl
@[simp] theorem Tile.raiseAt_scales (t : Tile) (c : Cause) (v n d : Nat) : (t.raiseAt c v n d).scales = t.scales := rfl
@[simp] theorem Tile.raiseAt_tags (t : Tile) (c : Cause) (v n d : Nat) : (t.raiseAt c v n d).tags = t.tags := rfl
@[simp] theorem Tile.raiseAt_cimBusy (t : Tile) (c : Cause) (v n d : Nat) : (t.raiseAt c v n d).cimBusy = t.cimBusy := rfl
@[simp] theorem Tile.raiseAt_denseBusy (t : Tile) (c : Cause) (v n d : Nat) : (t.raiseAt c v n d).denseBusy = t.denseBusy := rfl
@[simp] theorem Tile.raiseAt_pipBusy (t : Tile) (c : Cause) (v n d : Nat) : (t.raiseAt c v n d).pipBusy = t.pipBusy := rfl
@[simp] theorem Tile.raiseAt_decBusy (t : Tile) (c : Cause) (v n d : Nat) : (t.raiseAt c v n d).decBusy = t.decBusy := rfl
@[simp] theorem Tile.raiseAt_pend (t : Tile) (c : Cause) (v n d : Nat) : (t.raiseAt c v n d).pend = t.pend := rfl
@[simp] theorem Tile.raiseAt_banks (t : Tile) (c : Cause) (v n d : Nat) : (t.raiseAt c v n d).banks = t.banks := rfl
@[simp] theorem Tile.raiseAt_dets (t : Tile) (c : Cause) (v n d : Nat) : (t.raiseAt c v n d).dets = t.dets ++ [{
    cause := c, tval := BitVec.ofNat 64 v, slot := n, issue := t.ct.now, addr := t.ct.sq.pc, det := d
    nest := t.nests t.ct.now }] := rfl
@[simp] theorem Tile.raiseAt_post (t : Tile) (c : Cause) (v n d : Nat) : (t.raiseAt c v n d).post = t.post := rfl
@[simp] theorem Tile.raiseAt_late (t : Tile) (c : Cause) (v n d : Nat) : (t.raiseAt c v n d).late = t.late := rfl
@[simp] theorem Tile.raiseAt_owed (t : Tile) (c : Cause) (v n d : Nat) : (t.raiseAt c v n d).owed = t.owed := rfl
@[simp] theorem Tile.raiseAt_undo (t : Tile) (c : Cause) (v n d : Nat) : (t.raiseAt c v n d).undo = t.undo := rfl
@[simp] theorem Tile.raiseAt_engineOor (t : Tile) (c : Cause) (v n d : Nat) : (t.raiseAt c v n d).engineOor = t.engineOor := rfl
@[simp] theorem Tile.raiseAt_beats (t : Tile) (c : Cause) (v n d : Nat) : (t.raiseAt c v n d).beats = t.beats := rfl
@[simp] theorem Tile.raiseAt_landing (t : Tile) (c : Cause) (v n d : Nat) : (t.raiseAt c v n d).landing = t.landing := rfl
@[simp] theorem Tile.raiseAt_drops (t : Tile) (c : Cause) (v n d : Nat) : (t.raiseAt c v n d).drops = t.drops := rfl
@[simp] theorem Tile.raiseAt_uid (t : Tile) (c : Cause) (v n d : Nat) : (t.raiseAt c v n d).uid = t.uid := rfl
@[simp] theorem Tile.raiseAt_issued (t : Tile) (c : Cause) (v n d : Nat) : (t.raiseAt c v n d).issued = t.issued := rfl
@[simp] theorem Tile.raiseAt_lost (t : Tile) (c : Cause) (v n d : Nat) : (t.raiseAt c v n d).lost = t.lost := rfl

/-! ### A result in flight -/

@[simp] theorem Tile.land_ltid (t : Tile) (d : Dest) (v : Vec) (be : Word) (fl lat n : Nat) : (t.land d v be fl lat n).ltid = t.ltid := rfl
@[simp] theorem Tile.land_ct (t : Tile) (d : Dest) (v : Vec) (be : Word) (fl lat n : Nat) : (t.land d v be fl lat n).ct = { t.ct with inflight := t.ct.inflight ++ [{
    id := t.uid, dest := d, due := t.ct.now + lat, rdAt := t.ct.now + lat, src := .val v, be := be, fl := BitVec.ofNat 14 fl
    issue := t.ct.now, slot := n, addr := t.ct.sq.pc, phase := t.ct.cx.phaseNum }] } := rfl
@[simp] theorem Tile.land_standby (t : Tile) (d : Dest) (v : Vec) (be : Word) (fl lat n : Nat) : (t.land d v be fl lat n).standby = t.standby := rfl
@[simp] theorem Tile.land_streamed (t : Tile) (d : Dest) (v : Vec) (be : Word) (fl lat n : Nat) : (t.land d v be fl lat n).streamed = t.streamed := rfl
@[simp] theorem Tile.land_want (t : Tile) (d : Dest) (v : Vec) (be : Word) (fl lat n : Nat) : (t.land d v be fl lat n).want = t.want := rfl
@[simp] theorem Tile.land_moveAt (t : Tile) (d : Dest) (v : Vec) (be : Word) (fl lat n : Nat) : (t.land d v be fl lat n).moveAt = t.moveAt := rfl
@[simp] theorem Tile.land_switchLeft (t : Tile) (d : Dest) (v : Vec) (be : Word) (fl lat n : Nat) : (t.land d v be fl lat n).switchLeft = t.switchLeft := rfl
@[simp] theorem Tile.land_saved (t : Tile) (d : Dest) (v : Vec) (be : Word) (fl lat n : Nat) : (t.land d v be fl lat n).saved = t.saved := rfl
@[simp] theorem Tile.land_imem (t : Tile) (d : Dest) (v : Vec) (be : Word) (fl lat n : Nat) : (t.land d v be fl lat n).imem = t.imem := rfl
@[simp] theorem Tile.land_sp (t : Tile) (d : Dest) (v : Vec) (be : Word) (fl lat n : Nat) : (t.land d v be fl lat n).sp = t.sp := rfl
@[simp] theorem Tile.land_marks (t : Tile) (d : Dest) (v : Vec) (be : Word) (fl lat n : Nat) : (t.land d v be fl lat n).marks = t.marks := rfl
@[simp] theorem Tile.land_lastUe (t : Tile) (d : Dest) (v : Vec) (be : Word) (fl lat n : Nat) : (t.land d v be fl lat n).lastUe = t.lastUe := rfl
@[simp] theorem Tile.land_corrected (t : Tile) (d : Dest) (v : Vec) (be : Word) (fl lat n : Nat) : (t.land d v be fl lat n).corrected = t.corrected := rfl
@[simp] theorem Tile.land_corrSeen (t : Tile) (d : Dest) (v : Vec) (be : Word) (fl lat n : Nat) : (t.land d v be fl lat n).corrSeen = t.corrSeen := rfl
@[simp] theorem Tile.land_corrAt (t : Tile) (d : Dest) (v : Vec) (be : Word) (fl lat n : Nat) : (t.land d v be fl lat n).corrAt = t.corrAt := rfl
@[simp] theorem Tile.land_rollAsk (t : Tile) (d : Dest) (v : Vec) (be : Word) (fl lat n : Nat) : (t.land d v be fl lat n).rollAsk = t.rollAsk := rfl
@[simp] theorem Tile.land_reloadAsk (t : Tile) (d : Dest) (v : Vec) (be : Word) (fl lat n : Nat) : (t.land d v be fl lat n).reloadAsk = t.reloadAsk := rfl
@[simp] theorem Tile.land_acc (t : Tile) (d : Dest) (v : Vec) (be : Word) (fl lat n : Nat) : (t.land d v be fl lat n).acc = t.acc := rfl
@[simp] theorem Tile.land_scales (t : Tile) (d : Dest) (v : Vec) (be : Word) (fl lat n : Nat) : (t.land d v be fl lat n).scales = t.scales := rfl
@[simp] theorem Tile.land_tags (t : Tile) (d : Dest) (v : Vec) (be : Word) (fl lat n : Nat) : (t.land d v be fl lat n).tags = t.tags := rfl
@[simp] theorem Tile.land_cimBusy (t : Tile) (d : Dest) (v : Vec) (be : Word) (fl lat n : Nat) : (t.land d v be fl lat n).cimBusy = t.cimBusy := rfl
@[simp] theorem Tile.land_denseBusy (t : Tile) (d : Dest) (v : Vec) (be : Word) (fl lat n : Nat) : (t.land d v be fl lat n).denseBusy = t.denseBusy := rfl
@[simp] theorem Tile.land_pipBusy (t : Tile) (d : Dest) (v : Vec) (be : Word) (fl lat n : Nat) : (t.land d v be fl lat n).pipBusy = t.pipBusy := rfl
@[simp] theorem Tile.land_decBusy (t : Tile) (d : Dest) (v : Vec) (be : Word) (fl lat n : Nat) : (t.land d v be fl lat n).decBusy = t.decBusy := rfl
@[simp] theorem Tile.land_pend (t : Tile) (d : Dest) (v : Vec) (be : Word) (fl lat n : Nat) : (t.land d v be fl lat n).pend = t.pend := rfl
@[simp] theorem Tile.land_banks (t : Tile) (d : Dest) (v : Vec) (be : Word) (fl lat n : Nat) : (t.land d v be fl lat n).banks = t.banks := rfl
@[simp] theorem Tile.land_dets (t : Tile) (d : Dest) (v : Vec) (be : Word) (fl lat n : Nat) : (t.land d v be fl lat n).dets = t.dets := rfl
@[simp] theorem Tile.land_post (t : Tile) (d : Dest) (v : Vec) (be : Word) (fl lat n : Nat) : (t.land d v be fl lat n).post = t.post := rfl
@[simp] theorem Tile.land_late (t : Tile) (d : Dest) (v : Vec) (be : Word) (fl lat n : Nat) : (t.land d v be fl lat n).late = t.late := rfl
@[simp] theorem Tile.land_owed (t : Tile) (d : Dest) (v : Vec) (be : Word) (fl lat n : Nat) : (t.land d v be fl lat n).owed = t.owed := rfl
@[simp] theorem Tile.land_undo (t : Tile) (d : Dest) (v : Vec) (be : Word) (fl lat n : Nat) : (t.land d v be fl lat n).undo = t.undo := rfl
@[simp] theorem Tile.land_engineOor (t : Tile) (d : Dest) (v : Vec) (be : Word) (fl lat n : Nat) : (t.land d v be fl lat n).engineOor = t.engineOor := rfl
@[simp] theorem Tile.land_beats (t : Tile) (d : Dest) (v : Vec) (be : Word) (fl lat n : Nat) : (t.land d v be fl lat n).beats = t.beats := rfl
@[simp] theorem Tile.land_landing (t : Tile) (d : Dest) (v : Vec) (be : Word) (fl lat n : Nat) : (t.land d v be fl lat n).landing = t.landing := rfl
@[simp] theorem Tile.land_drops (t : Tile) (d : Dest) (v : Vec) (be : Word) (fl lat n : Nat) : (t.land d v be fl lat n).drops = t.drops := rfl
@[simp] theorem Tile.land_uid (t : Tile) (d : Dest) (v : Vec) (be : Word) (fl lat n : Nat) : (t.land d v be fl lat n).uid = t.uid + 1 := rfl
@[simp] theorem Tile.land_issued (t : Tile) (d : Dest) (v : Vec) (be : Word) (fl lat n : Nat) : (t.land d v be fl lat n).issued = t.issued := rfl
@[simp] theorem Tile.land_lost (t : Tile) (d : Dest) (v : Vec) (be : Word) (fl lat n : Nat) : (t.land d v be fl lat n).lost = t.lost := rfl

/-! ### A change at commit -/

@[simp] theorem Tile.later_ltid (t : Tile) (p : Post) : (t.later p).ltid = t.ltid := rfl
@[simp] theorem Tile.later_ct (t : Tile) (p : Post) : (t.later p).ct = t.ct := rfl
@[simp] theorem Tile.later_standby (t : Tile) (p : Post) : (t.later p).standby = t.standby := rfl
@[simp] theorem Tile.later_streamed (t : Tile) (p : Post) : (t.later p).streamed = t.streamed := rfl
@[simp] theorem Tile.later_want (t : Tile) (p : Post) : (t.later p).want = t.want := rfl
@[simp] theorem Tile.later_moveAt (t : Tile) (p : Post) : (t.later p).moveAt = t.moveAt := rfl
@[simp] theorem Tile.later_switchLeft (t : Tile) (p : Post) : (t.later p).switchLeft = t.switchLeft := rfl
@[simp] theorem Tile.later_saved (t : Tile) (p : Post) : (t.later p).saved = t.saved := rfl
@[simp] theorem Tile.later_imem (t : Tile) (p : Post) : (t.later p).imem = t.imem := rfl
@[simp] theorem Tile.later_sp (t : Tile) (p : Post) : (t.later p).sp = t.sp := rfl
@[simp] theorem Tile.later_marks (t : Tile) (p : Post) : (t.later p).marks = t.marks := rfl
@[simp] theorem Tile.later_lastUe (t : Tile) (p : Post) : (t.later p).lastUe = t.lastUe := rfl
@[simp] theorem Tile.later_corrected (t : Tile) (p : Post) : (t.later p).corrected = t.corrected := rfl
@[simp] theorem Tile.later_corrSeen (t : Tile) (p : Post) : (t.later p).corrSeen = t.corrSeen := rfl
@[simp] theorem Tile.later_corrAt (t : Tile) (p : Post) : (t.later p).corrAt = t.corrAt := rfl
@[simp] theorem Tile.later_rollAsk (t : Tile) (p : Post) : (t.later p).rollAsk = t.rollAsk := rfl
@[simp] theorem Tile.later_reloadAsk (t : Tile) (p : Post) : (t.later p).reloadAsk = t.reloadAsk := rfl
@[simp] theorem Tile.later_acc (t : Tile) (p : Post) : (t.later p).acc = t.acc := rfl
@[simp] theorem Tile.later_scales (t : Tile) (p : Post) : (t.later p).scales = t.scales := rfl
@[simp] theorem Tile.later_tags (t : Tile) (p : Post) : (t.later p).tags = t.tags := rfl
@[simp] theorem Tile.later_cimBusy (t : Tile) (p : Post) : (t.later p).cimBusy = t.cimBusy := rfl
@[simp] theorem Tile.later_denseBusy (t : Tile) (p : Post) : (t.later p).denseBusy = t.denseBusy := rfl
@[simp] theorem Tile.later_pipBusy (t : Tile) (p : Post) : (t.later p).pipBusy = t.pipBusy := rfl
@[simp] theorem Tile.later_decBusy (t : Tile) (p : Post) : (t.later p).decBusy = t.decBusy := rfl
@[simp] theorem Tile.later_pend (t : Tile) (p : Post) : (t.later p).pend = t.pend := rfl
@[simp] theorem Tile.later_banks (t : Tile) (p : Post) : (t.later p).banks = t.banks := rfl
@[simp] theorem Tile.later_dets (t : Tile) (p : Post) : (t.later p).dets = t.dets := rfl
@[simp] theorem Tile.later_post (t : Tile) (p : Post) : (t.later p).post = t.post ++ [p] := rfl
@[simp] theorem Tile.later_late (t : Tile) (p : Post) : (t.later p).late = t.late := rfl
@[simp] theorem Tile.later_owed (t : Tile) (p : Post) : (t.later p).owed = t.owed := rfl
@[simp] theorem Tile.later_undo (t : Tile) (p : Post) : (t.later p).undo = t.undo := rfl
@[simp] theorem Tile.later_engineOor (t : Tile) (p : Post) : (t.later p).engineOor = t.engineOor := rfl
@[simp] theorem Tile.later_beats (t : Tile) (p : Post) : (t.later p).beats = t.beats := rfl
@[simp] theorem Tile.later_landing (t : Tile) (p : Post) : (t.later p).landing = t.landing := rfl
@[simp] theorem Tile.later_drops (t : Tile) (p : Post) : (t.later p).drops = t.drops := rfl
@[simp] theorem Tile.later_uid (t : Tile) (p : Post) : (t.later p).uid = t.uid := rfl
@[simp] theorem Tile.later_issued (t : Tile) (p : Post) : (t.later p).issued = t.issued := rfl
@[simp] theorem Tile.later_lost (t : Tile) (p : Post) : (t.later p).lost = t.lost := rfl

/-! ### A pending effect -/

@[simp] theorem Tile.pending_ltid (t : Tile) (due n : Nat) (k : PendKind) : (t.pending due n k).ltid = t.ltid := rfl
@[simp] theorem Tile.pending_ct (t : Tile) (due n : Nat) (k : PendKind) : (t.pending due n k).ct = t.ct := rfl
@[simp] theorem Tile.pending_standby (t : Tile) (due n : Nat) (k : PendKind) : (t.pending due n k).standby = t.standby := rfl
@[simp] theorem Tile.pending_streamed (t : Tile) (due n : Nat) (k : PendKind) : (t.pending due n k).streamed = t.streamed := rfl
@[simp] theorem Tile.pending_want (t : Tile) (due n : Nat) (k : PendKind) : (t.pending due n k).want = t.want := rfl
@[simp] theorem Tile.pending_moveAt (t : Tile) (due n : Nat) (k : PendKind) : (t.pending due n k).moveAt = t.moveAt := rfl
@[simp] theorem Tile.pending_switchLeft (t : Tile) (due n : Nat) (k : PendKind) : (t.pending due n k).switchLeft = t.switchLeft := rfl
@[simp] theorem Tile.pending_saved (t : Tile) (due n : Nat) (k : PendKind) : (t.pending due n k).saved = t.saved := rfl
@[simp] theorem Tile.pending_imem (t : Tile) (due n : Nat) (k : PendKind) : (t.pending due n k).imem = t.imem := rfl
@[simp] theorem Tile.pending_sp (t : Tile) (due n : Nat) (k : PendKind) : (t.pending due n k).sp = t.sp := rfl
@[simp] theorem Tile.pending_marks (t : Tile) (due n : Nat) (k : PendKind) : (t.pending due n k).marks = t.marks := rfl
@[simp] theorem Tile.pending_lastUe (t : Tile) (due n : Nat) (k : PendKind) : (t.pending due n k).lastUe = t.lastUe := rfl
@[simp] theorem Tile.pending_corrected (t : Tile) (due n : Nat) (k : PendKind) : (t.pending due n k).corrected = t.corrected := rfl
@[simp] theorem Tile.pending_corrSeen (t : Tile) (due n : Nat) (k : PendKind) : (t.pending due n k).corrSeen = t.corrSeen := rfl
@[simp] theorem Tile.pending_corrAt (t : Tile) (due n : Nat) (k : PendKind) : (t.pending due n k).corrAt = t.corrAt := rfl
@[simp] theorem Tile.pending_rollAsk (t : Tile) (due n : Nat) (k : PendKind) : (t.pending due n k).rollAsk = t.rollAsk := rfl
@[simp] theorem Tile.pending_reloadAsk (t : Tile) (due n : Nat) (k : PendKind) : (t.pending due n k).reloadAsk = t.reloadAsk := rfl
@[simp] theorem Tile.pending_acc (t : Tile) (due n : Nat) (k : PendKind) : (t.pending due n k).acc = t.acc := rfl
@[simp] theorem Tile.pending_scales (t : Tile) (due n : Nat) (k : PendKind) : (t.pending due n k).scales = t.scales := rfl
@[simp] theorem Tile.pending_tags (t : Tile) (due n : Nat) (k : PendKind) : (t.pending due n k).tags = t.tags := rfl
@[simp] theorem Tile.pending_cimBusy (t : Tile) (due n : Nat) (k : PendKind) : (t.pending due n k).cimBusy = t.cimBusy := rfl
@[simp] theorem Tile.pending_denseBusy (t : Tile) (due n : Nat) (k : PendKind) : (t.pending due n k).denseBusy = t.denseBusy := rfl
@[simp] theorem Tile.pending_pipBusy (t : Tile) (due n : Nat) (k : PendKind) : (t.pending due n k).pipBusy = t.pipBusy := rfl
@[simp] theorem Tile.pending_decBusy (t : Tile) (due n : Nat) (k : PendKind) : (t.pending due n k).decBusy = t.decBusy := rfl
@[simp] theorem Tile.pending_pend (t : Tile) (due n : Nat) (k : PendKind) : (t.pending due n k).pend = t.pend ++ [{
    due := due, kind := k, issue := t.ct.now, slot := n, addr := t.ct.sq.pc, phase := t.ct.cx.phaseNum }] := rfl
@[simp] theorem Tile.pending_banks (t : Tile) (due n : Nat) (k : PendKind) : (t.pending due n k).banks = t.banks := rfl
@[simp] theorem Tile.pending_dets (t : Tile) (due n : Nat) (k : PendKind) : (t.pending due n k).dets = t.dets := rfl
@[simp] theorem Tile.pending_post (t : Tile) (due n : Nat) (k : PendKind) : (t.pending due n k).post = t.post := rfl
@[simp] theorem Tile.pending_late (t : Tile) (due n : Nat) (k : PendKind) : (t.pending due n k).late = t.late := rfl
@[simp] theorem Tile.pending_owed (t : Tile) (due n : Nat) (k : PendKind) : (t.pending due n k).owed = t.owed := rfl
@[simp] theorem Tile.pending_undo (t : Tile) (due n : Nat) (k : PendKind) : (t.pending due n k).undo = t.undo := rfl
@[simp] theorem Tile.pending_engineOor (t : Tile) (due n : Nat) (k : PendKind) : (t.pending due n k).engineOor = t.engineOor := rfl
@[simp] theorem Tile.pending_beats (t : Tile) (due n : Nat) (k : PendKind) : (t.pending due n k).beats = t.beats := rfl
@[simp] theorem Tile.pending_landing (t : Tile) (due n : Nat) (k : PendKind) : (t.pending due n k).landing = t.landing := rfl
@[simp] theorem Tile.pending_drops (t : Tile) (due n : Nat) (k : PendKind) : (t.pending due n k).drops = t.drops := rfl
@[simp] theorem Tile.pending_uid (t : Tile) (due n : Nat) (k : PendKind) : (t.pending due n k).uid = t.uid := rfl
@[simp] theorem Tile.pending_issued (t : Tile) (due n : Nat) (k : PendKind) : (t.pending due n k).issued = t.issued := rfl
@[simp] theorem Tile.pending_lost (t : Tile) (due n : Nat) (k : PendKind) : (t.pending due n k).lost = t.lost := rfl

end Sys2Proof.Machine
end

