-- ==== Sys2Proof/Laws/Step.lean ====
section
/-!
SUPPORT. What a step is: one of four things, and the only stop is the missing power.
-/
namespace Sys2Proof.Machine

/-! ### The four kinds of step -/

/-- A step that answers a next state has carried out an event from outside, an event that was due, the issue of one bundle, or the
passing of the cycle. -/
theorem step_cases {s t : State} (h : step s = .next t) :
    (∃ e r, s.inbox = e :: r ∧ exec e { s with inbox := r } = .next t) ∨
    (s.inbox = [] ∧ s.power.on = true ∧ dueStep s = some (.next t)) ∨
    (s.inbox = [] ∧ s.power.on = true ∧ dueStep s = none ∧ ∃ u, nextTile s = some u ∧ issueTile u = .next t) ∨
    (s.inbox = [] ∧ s.power.on = true ∧ dueStep s = none ∧ nextTile s = none ∧ t = advance s) := by
  unfold step at h
  split at h
  · next e r he => exact .inl ⟨e, r, he, h⟩
  · next he =>
    split at h
    · next on =>
      split at h
      · next r hr => subst h; exact .inr (.inl ⟨he, on, hr⟩)
      · next hr =>
        split at h
        · next u hu => exact .inr (.inr (.inl ⟨he, on, hr, u, hu, h⟩))
        · next hu => cases h; exact .inr (.inr (.inr ⟨he, on, hr, hu, rfl⟩))
    · cases h

/-! ### No issue stops -/

theorem runOps_completes (n : Nat) (is : List Instr) (s : State) : Completes (runOps n is s) := by
  induction is generalizing s with
  | nil => exact ⟨_, rfl⟩
  | cons i is ih =>
    obtain ⟨t, ht⟩ := exec_completes i s
    unfold runOps
    rw [ht]
    dsimp only
    split
    · exact ih t
    · exact ⟨_, rfl⟩

theorem issueOps_completes (s : State) (b : Bundle) (extra : List Instr) : Completes (issueOps s b extra) := by
  unfold issueOps
  obtain ⟨t, ht⟩ := runOps_completes s.tile.dets.length (b.ops ++ extra) s
  dsimp only
  rw [ht]
  dsimp only
  repeat' first | exact ⟨_, rfl⟩ | split

theorem issueAt_completes (s : State) (extra : List Instr) : Completes (issueAt s extra) := by
  unfold issueAt
  dsimp only
  repeat' first | exact issueOps_completes .. | exact ⟨_, rfl⟩ | split

theorem issueEmpty_completes (s : State) (extra : List Instr) : Completes (issueEmpty s extra) := by
  unfold issueEmpty
  obtain ⟨t, ht⟩ := runOps_completes s.tile.dets.length extra s
  dsimp only
  rw [ht]
  dsimp only
  repeat' first | exact ⟨_, rfl⟩ | split

theorem issueTile_completes (s : State) : Completes (issueTile s) := by
  unfold issueTile
  dsimp only
  repeat' first | exact issueEmpty_completes .. | exact issueAt_completes .. | exact ⟨_, rfl⟩ | split

/-! ### No event that is due stops -/

/-- Whatever an event answers is a next state. -/
def EventCompletes (e : State → Option Out) : Prop := ∀ s r, e s = some r → Completes r

theorem map_completes {α : Type} {o : Option α} {f : α → Out} (h : ∀ a, Completes (f a)) {r : Out} (e : o.map f = some r) :
    Completes r := by
  cases o with
  | none => cases e
  | some a => cases e; exact h a

theorem onDue_completes {f : State → Out} (h : ∀ s, Completes (f s)) (p : State → Tile → Bool) : EventCompletes (onDue p f) :=
  fun _ _ e => map_completes (fun _ => h _) e

theorem onLive_completes {f : State → Out} (h : ∀ s, Completes (f s)) (p : State → Tile → Bool) : EventCompletes (onLive p f) :=
  onDue_completes h _

theorem onLiveRank_completes {f : State → Out} (h : ∀ s, Completes (f s)) (p : State → Tile → Bool) :
    EventCompletes (onLiveRank p f) := fun _ _ e => map_completes (fun _ => h _) e

theorem onJobs_completes {f : Nat → State → Out} (h : ∀ n s, Completes (f n s)) (p : State → Job → Bool) :
    EventCompletes (onJobs p f) := fun _ _ e => map_completes (fun _ => h _ _) e

theorem onModule_completes {f : State → Out} (h : ∀ s, Completes (f s)) (p : State → Bool) : EventCompletes (onModule p f) := by
  intro s r e
  unfold onModule at e
  split at e
  · cases e; exact h s
  · cases e

theorem findSome_completes {α : Type} {l : List α} {f : α → Option Out} (h : ∀ a r, f a = some r → Completes r) {r : Out}
    (e : l.findSome? f = some r) : Completes r := by
  obtain ⟨a, -, ha⟩ := List.exists_of_findSome?_eq_some e
  exact h a r ha

theorem onStrands_completes {f : Nat → Nat → State → Out} (h : ∀ n m s, Completes (f n m s)) (p : State → Job → Strand → Bool) :
    EventCompletes (onStrands p f) :=
  fun _ _ e => findSome_completes (fun _ _ e => map_completes (fun _ => h _ _ _) e) e

theorem onWindows_completes {f : Nat → Nat → State → Out} (h : ∀ n m s, Completes (f n m s)) (p : State → Job → Window → Bool) :
    EventCompletes (onWindows p f) :=
  fun _ _ e => findSome_completes (fun _ _ e => map_completes (fun _ => h _ _ _) e) e

theorem moduleEvents_complete : ∀ e ∈ moduleEvents, EventCompletes e := by
  simp only [moduleEvents, List.forall_mem_cons]
  exact ⟨onModule_completes (fun s => exec_completes .tickEdge s) _,
    onModule_completes (fun s => exec_completes .beacon s) _,
    (fun s r e => by
      dsimp only at e
      split at e
      · exact map_completes (fun (a : Nat × Nat) => exec_completes (.beaconArrival a.1 a.2) s) e
      · cases e),
    onModule_completes (fun s => exec_completes .drift s) _,
    (fun s r e => map_completes (fun a => exec_completes (.completionEntryWrite a) s) e),
    (fun s r e => map_completes (fun a => exec_completes (.unitRetirement (.unit a)) s) e),
    (fun s r e => map_completes (fun (j : Job) => exec_completes (.jobReplacement j.jobid) s) e),
    onJobs_completes (fun a s => exec_completes (.checkpointRollback a) s) _,
    onJobs_completes (fun a s => exec_completes (.rollbackRestart a) s) _,
    onJobs_completes (fun a s => exec_completes (.checkpointComplete a) s) _,
    onJobs_completes (fun a s => exec_completes (.preemptDelivery a) s) _,
    onDue_completes (fun s => exec_completes .contextSwitchIn s) _,
    onDue_completes (fun s => exec_completes .contextSwitch s) _,
    onDue_completes (fun s => exec_completes .contextStreamOut s) _,
    onDue_completes (fun s => exec_completes .contextStreamIn s) _,
    onJobs_completes (fun a s => exec_completes (.partitionSwitchIn a) s) _,
    onJobs_completes (fun a s => exec_completes (.jobStart a) s) _,
    onJobs_completes (fun a s => exec_completes (.barrierBreak a) s) _,
    (fun s r e => by
      dsimp only at e
      split at e
      · exact map_completes (fun (b : Nat × Nat) => exec_completes (.barrierBreak b.1) s) e
      · cases e),
    onModule_completes (fun s => exec_completes .commonsSlotService s) _,
    (fun s r e => map_completes (fun n => exec_completes (.fabricSlotSend n) s) e),
    fun _ h => nomatch h⟩

theorem writeEvents_complete : ∀ e ∈ writeEvents, EventCompletes e := by
  simp only [writeEvents, List.forall_mem_cons]
  exact ⟨onLive_completes (fun s => exec_completes .memoryWriteLanding s) _,
    onLive_completes (fun s => exec_completes .vaultBankAccess s) _,
    onLive_completes (fun s => exec_completes .cimPlaneWrite s) _,
    onLive_completes (fun s => exec_completes .huskLocalLineWrite s) _,
    onLive_completes (fun s => exec_completes .cimAccumulateAdd s) _,
    onLive_completes (fun s => exec_completes .memoryWriteLanding s) _,
    fun _ h => nomatch h⟩

theorem readEvents_complete : ∀ e ∈ readEvents, EventCompletes e := by
  simp only [readEvents, List.forall_mem_cons]
  exact ⟨onLive_completes (fun s => exec_completes .atomicWindow s) _,
    onLive_completes (fun s => exec_completes .barrierWindow s) _,
    onLiveRank_completes (fun s => exec_completes .resultLanding s) _,
    onLive_completes (fun s => exec_completes .resultLanding s) _,
    onLive_completes (fun s => exec_completes .vaultBankAccess s) _,
    onLive_completes (fun s => exec_completes .engineStreamAccess s) _,
    onLive_completes (fun s => exec_completes .huskSourceRead s) _,
    onLive_completes (fun s => exec_completes .translation s) _,
    fun _ h => nomatch h⟩

theorem arrivalEvents_complete (q : State → Tile → Bool) : ∀ e ∈ arrivalEvents q, EventCompletes e := by
  simp only [arrivalEvents, List.forall_mem_cons]
  exact ⟨onLive_completes (fun s => exec_completes .channelArrival s) _,
    onLive_completes (fun s => exec_completes .channelEntryDrop s) _,
    onLive_completes (fun s => exec_completes .finjFire s) _,
    onLive_completes (fun s => exec_completes .resultLanding s) _,
    onLive_completes (fun s => exec_completes .dmmaLanding s) _,
    onLive_completes (fun s => exec_completes .xRegisterLanding s) _,
    onLive_completes (fun s => exec_completes .checksum s) _,
    onLive_completes (fun s => exec_completes .missedPromise s) _,
    fun _ h => nomatch h⟩

theorem waitEvents_complete : ∀ e ∈ waitEvents, EventCompletes e := by
  simp only [waitEvents, List.forall_mem_cons]
  exact ⟨onLive_completes (fun s => exec_completes .bwaitWake s) _,
    onLive_completes (fun s => exec_completes .bwaitTimeout s) _,
    onLive_completes (fun s => exec_completes .waitcResume s) _,
    onLive_completes (fun s => exec_completes .stagewResume s) _,
    onLive_completes (fun s => exec_completes .fenceResume s) _,
    onLive_completes (fun s => exec_completes .contextResume s) _,
    fun _ h => nomatch h⟩

theorem walkerEvents_complete : ∀ e ∈ walkerEvents, EventCompletes e := by
  simp only [walkerEvents, List.forall_mem_cons]
  exact ⟨onStrands_completes (fun a b s => exec_completes (.walkerBranch a b) s) _,
    onStrands_completes (fun a b s => exec_completes (.walkerWhile a b) s) _,
    onStrands_completes (fun a b s => exec_completes (.walkerCollect a b) s) _,
    fun _ h => nomatch h⟩

theorem memoryEvents_complete : ∀ e ∈ memoryEvents, EventCompletes e := by
  simp only [memoryEvents, List.forall_mem_append, List.forall_mem_cons]
  exact ⟨⟨⟨⟨⟨⟨writeEvents_complete,
    (fun s r e => map_completes (fun (b : Batch) => exec_completes (.fabricBatchPublish b.stream { at_ := b.at_, lines := b.lines }) s) e), fun _ h => nomatch h⟩,
    waitEvents_complete⟩, arrivalEvents_complete _⟩,
    onLive_completes issueTile_completes _,
    onStrands_completes (fun a b s => exec_completes (.nodeEnd a b) s) _,
    onLive_completes (fun s => exec_completes .huskBarrierDecrement s) _, fun _ h => nomatch h⟩, readEvents_complete⟩,
    onWindows_completes (fun a b s => exec_completes (.huskPromiseMiss a b) s) _,
    onWindows_completes (fun a b s => exec_completes (.huskWindowSwapin a b) s) _,
    fun _ h => nomatch h⟩

theorem landingEvents_complete : ∀ e ∈ landingEvents, EventCompletes e := by
  simp only [landingEvents, List.forall_mem_append, List.forall_mem_cons, List.forall_mem_map]
  exact ⟨⟨arrivalEvents_complete _, fun n _ => onLive_completes (fun s => exec_completes (.bTargetReady _) s) _⟩,
    onLive_completes (fun s => exec_completes .returnEntryReady s) _,
    onLive_completes (fun s => exec_completes .loopBufferIssue s) _,
    onLive_completes (fun s => exec_completes .repReissue s) _,
    fun _ h => nomatch h⟩

/-- The first of several choices answers a next state where each does. -/
theorem choice_completes {l : List (Option Out)} (h : ∀ o ∈ l, ∀ r, o = some r → Completes r) {r : Out} (e : l.findSome? id = some r) :
    Completes r := by
  obtain ⟨o, m, ho⟩ := List.exists_of_findSome?_eq_some e
  exact h o m r ho

theorem ite_completes {c : Prop} [Decidable c] {a r : Out} (h : Completes a) (e : (if c then some a else none) = some r) :
    Completes r := by
  split at e
  · cases e; exact h
  · cases e

theorem endOf_completes {s : State} {j : Job} {r : Out} (e : s.endOf j = some r) : Completes r := by
  refine choice_completes ?_ e
  simp only [List.forall_mem_cons]
  exact ⟨fun r => ite_completes (exec_completes (.completionEntryWrite j.ring) s),
    fun r => ite_completes (exec_completes (.checkpointRollback j.pid) s),
    fun r => ite_completes (exec_completes (.jobReplacement j.jobid) s),
    fun r => ite_completes (exec_completes (.dualCompare j.jobid) s),
    fun r => ite_completes (exec_completes (.checkpointComplete j.pid) s),
    (fun r e => by
      split at e
      · cases e
      · exact map_completes (fun s => exec_completes .silentErrorKill s) e),
    fun r => map_completes fun s => exec_completes .handlerFaultEnd s,
    fun r => map_completes fun s => exec_completes .trapStop s,
    fun r => map_completes fun (x : Strand) => exec_completes (.walkerFinish j.pid x.num) s,
    fun _ h => nomatch h⟩

theorem endEvents_complete : ∀ e ∈ endEvents, EventCompletes e := by
  simp only [endEvents, List.forall_mem_cons]
  exact ⟨fun s r e => findSome_completes (fun _ _ e => map_completes (fun (x : Strand) => exec_completes (.walkerFinish _ x.num) s) e) e,
    fun s r e => findSome_completes (fun _ _ e => endOf_completes e) e,
    fun _ h => nomatch h⟩

theorem controlEvents_complete : ∀ e ∈ controlEvents, EventCompletes e := by
  simp only [controlEvents, List.forall_mem_append, List.forall_mem_cons]
  exact ⟨⟨⟨onLive_completes (fun s => exec_completes .segmentCountLimit s) _,
    onLive_completes (fun s => exec_completes .imemShareReload s) _,
    fun _ h => nomatch h⟩, endEvents_complete⟩,
    onLive_completes (fun s => exec_completes .groupHalt s) _,
    onLive_completes (fun s => exec_completes .trapStop s) _,
    onLive_completes (fun s => exec_completes .handlerEntry s) _,
    onLive_completes (fun s => exec_completes .nodeRerunStart s) _,
    onStrands_completes (fun a b s => exec_completes (.walkerCodeStart a b) s) _,
    onLive_completes (fun s => exec_completes .contextSwitch s) _,
    fun _ h => nomatch h⟩

theorem dueStep_completes {s : State} {r : Out} (h : dueStep s = some r) : Completes r := by
  obtain ⟨e, he, h⟩ := List.exists_of_findSome?_eq_some h
  simp only [List.mem_append] at he
  rcases he with (((he | he) | he) | he) | he
  · exact moduleEvents_complete e he s r h
  · exact walkerEvents_complete e he s r h
  · exact memoryEvents_complete e he s r h
  · exact landingEvents_complete e he s r h
  · exact controlEvents_complete e he s r h

/-- **The only stop**: a step of a module that has power, or for which an event waits, answers a next state. -/
theorem step_completes (s : State) (h : s.inbox ≠ [] ∨ s.power.on = true) : Completes (step s) := by
  unfold step
  split
  · exact exec_completes ..
  · next e =>
    have on : s.power.on = true := h.resolve_left (fun n => n e)
    rw [if_pos on]
    split
    · next r hr => exact dueStep_completes hr
    · split
      · exact issueTile_completes ..
      · exact ⟨_, rfl⟩

end Sys2Proof.Machine
end

