-- ==== Sys2Proof/Tests/Slice0.lean ====
section
/-!
SUPPORT. Tests of the model against the manual's words and rules, and for every statement with hypotheses a state and operands that
meet them.
-/
namespace Sys2Proof.Tests
open Sys2Proof Sys2Proof.Machine Sys2Proof.Safety

-- one test after the other: evaluating them side by side takes a thread and its stack for each
set_option Elab.async false

/-! ### Decoding (R22-R44) -/

/-- Every word decodes to the op beside it, which is well formed and encodes to the same word. -/
def decodesAll (l : List (Nat × Instr)) : Bool :=
  l.all fun e => decodeTableWord 32 e.1 == some e.2 && e.2.wf && (encode true e.2 == some (BitVec.ofNat 32 e.1, none))

/-- Words written out from the opcode table: nop to rdcyc. -/
theorem test_decode_nop_to_rdcyc : decodesAll [
  (0x80000000, .nop),
  (0x80480004, .bprep ⟨1, 4⟩),
  (0x8082F000, .bprepr ⟨2, 60, 0, 0⟩),
  (0x80FE1000, .bt ⟨7, 6, 1⟩),
  (0x81331000, .bf ⟨6, 3, 1⟩),
  (0x81601000, .ba ⟨4, 0, 1⟩),
  (0x81B81000, .call ⟨7, 0, 1⟩),
  (0x81C00000, .ret ⟨0, 0, 0⟩),
  (0x82180000, .binv ⟨3, 0, 0⟩),
  (0x8248CB3B, .loop ⟨8, 12, 2875⟩ none),
  (0x82848002, .loopi ⟨4, 8, 2⟩ none),
  (0x82DAD002, .loopp ⟨26, 13, 2⟩ none),
  (0x83031000, .lexit ⟨0, 3, 1⟩),
  (0x83670002, .lidx ⟨39, 0, 2⟩),
  (0x8380C7BA, .seg ⟨0, 51130⟩ none),
  (0x83C00000, .nodeend),
  (0x84001C00, .condw ⟨0, 7, 0, 0⟩),
  (0x84400004, .phase ⟨0, 4⟩),
  (0x84800C07, .waitc ⟨0, 3, 7⟩ none),
  (0x84E60002, .rdcyc ⟨38, 0, 2⟩)] = true := by decide +kernel

/-- Words written out from the opcode table: calign to shr. -/
theorem test_decode_calign_to_shr : decodesAll [
  (0x85000004, .calign ⟨0, 4⟩),
  (0x85400004, .fence ⟨0, 4⟩),
  (0x85802AAC, .trap ⟨0, 10924⟩ none),
  (0x85C00000, .tret),
  (0x860213BD, .rep ⟨2, 5053⟩ none),
  (0x8644B112, .cmp ⟨4, 44, 17, 2⟩),
  (0x86840801, .cmpi ⟨4, 2, 1⟩ none),
  (0x86C71039, .qop ⟨7, 4, 3, 9⟩),
  (0x87010403, .qmov ⟨1, 1, 0, 3⟩),
  (0x87404030, .schk ⟨0, 16, 3, 0⟩),
  (0x878A0001, .csrr ⟨10, 1⟩),
  (0x87C10002, .csrw ⟨1, 2⟩),
  (0x88010C80, .add ⟨1, 3, 8, 0⟩),
  (0x88415E90, .sub ⟨1, 23, 41, 0⟩),
  (0x88A80810, .and ⟨40, 2, 1, 0⟩),
  (0x88E91E30, .or ⟨41, 7, 35, 0⟩),
  (0x89320870, .xor ⟨50, 2, 7, 0⟩),
  (0x8947C010, .andn ⟨7, 48, 1, 0⟩),
  (0x89B12020, .shl ⟨49, 8, 2, 0⟩),
  (0x89C22070, .shr ⟨2, 8, 7, 0⟩)] = true := by decide +kernel

/-- Words written out from the opcode table: sra to xori. -/
theorem test_decode_sra_to_xori : decodesAll [
  (0x8A380C70, .sra ⟨56, 3, 7, 0⟩),
  (0x8A430B40, .rol ⟨3, 2, 52, 0⟩),
  (0x8A931080, .mul ⟨19, 4, 8, 0⟩),
  (0x8AC80ED2, .mulh ⟨8, 3, 45, 2⟩),
  (0x8B3910D0, .div ⟨57, 4, 13, 0⟩),
  (0x8B421ED1, .rem ⟨2, 7, 45, 1⟩),
  (0x8BB0E431, .min ⟨48, 57, 3, 1⟩),
  (0x8BC71081, .max ⟨7, 4, 8, 1⟩),
  (0x8C0A5C00, .clz ⟨10, 23, 0, 0⟩),
  (0x8C48A800, .ctz ⟨8, 42, 0, 0⟩),
  (0x8C813C00, .popc ⟨1, 15, 0, 0⟩),
  (0x8CC92001, .sext ⟨9, 8, 0, 1⟩),
  (0x8D040402, .zext ⟨4, 1, 0, 2⟩),
  (0x8D64D020, .clmul ⟨36, 52, 2, 0⟩),
  (0x8D88EC70, .clmulh ⟨8, 59, 7, 0⟩),
  (0x8DC40885, .sel ⟨4, 2, 8, 5⟩ none),
  (0x8E01DAB2, .addi ⟨1, 54, 690⟩ none),
  (0x8E441401, .andi ⟨4, 5, 1⟩ none),
  (0x8E830807, .ori ⟨3, 2, 7⟩ none),
  (0x8EC13C02, .xori ⟨1, 15, 2⟩ none)] = true := by decide +kernel

/-- Words written out from the opcode table: shli to ddiv. -/
theorem test_decode_shli_to_ddiv : decodesAll [
  (0x8F330408, .shli ⟨51, 1, 8⟩),
  (0x8F730807, .shri ⟨51, 2, 7⟩),
  (0x8F871002, .srai ⟨7, 4, 2⟩),
  (0x8FC88551, .limm ⟨8, 34129⟩ none),
  (0x901212CD, .lins ⟨18, 4813⟩ none),
  (0x904A07B0, .fadd ⟨10, 1, 59, 0⟩),
  (0x90878420, .fsub ⟨7, 33, 2, 0⟩),
  (0x90C99030, .fmul ⟨9, 36, 3, 0⟩),
  (0x91074830, .fdiv ⟨7, 18, 3, 0⟩),
  (0x91571000, .fsqrt ⟨23, 4, 0, 0⟩),
  (0x91821870, .fma ⟨2, 6, 7, 0⟩ none),
  (0x91C1D430, .fmin ⟨1, 53, 3, 0⟩),
  (0x92071080, .fmax ⟨7, 4, 8, 0⟩),
  (0x92477883, .fcmp ⟨7, 30, 8, 3⟩),
  (0x92810897, .fcvt ⟨1, 2, 9, 7⟩),
  (0x92C11800, .fclass ⟨1, 6, 0, 0⟩),
  (0x94250440, .dadd ⟨37, 1, 4, 0⟩),
  (0x945B6410, .dsub ⟨27, 25, 1, 0⟩),
  (0x94841430, .dmul ⟨4, 5, 3, 0⟩),
  (0x94C74630, .ddiv ⟨7, 17, 35, 0⟩)] = true := by decide +kernel

/-- Words written out from the opcode table: dfma to vshr. -/
theorem test_decode_dfma_to_vshr : decodesAll [
  (0x95170840, .dfma ⟨23, 2, 4, 0⟩ none),
  (0x954DC3C0, .dquant ⟨13, 48, 60, 0⟩),
  (0x95875804, .drint ⟨7, 22, 0, 4⟩),
  (0x95C4FC86, .dcmp ⟨4, 63, 8, 6⟩),
  (0x960414C3, .dcvt ⟨4, 5, 12, 3⟩),
  (0x9641BC00, .dclass ⟨1, 47, 0, 0⟩),
  (0x96B60406, .mfy ⟨54, 1, 0, 6⟩),
  (0x96C70C09, .mty ⟨7, 3, 0, 9⟩),
  (0x97080000, .rstk ⟨8, 0, 0, 0⟩),
  (0x97000801, .rstkPush ⟨0, 2, 0, 1⟩),
  (0xA0182042, .vadd ⟨24, 8, 4, 2⟩ none),
  (0xA041B445, .vsub ⟨1, 45, 4, 5⟩ none),
  (0xA0811027, .vmul ⟨1, 4, 2, 7⟩ none),
  (0xA0C70845, .vmulh ⟨7, 2, 4, 5⟩ none),
  (0xA1230673, .vand ⟨35, 1, 39, 3⟩ none),
  (0xA1479561, .vor ⟨7, 37, 22, 1⟩ none),
  (0xA1840E81, .vxor ⟨4, 3, 40, 1⟩ none),
  (0xA1C12244, .vandn ⟨1, 8, 36, 4⟩ none),
  (0xA2250484, .vshl ⟨37, 1, 8, 4⟩ none),
  (0xA2430447, .vshr ⟨3, 1, 4, 7⟩ none)] = true := by decide +kernel

/-- Words written out from the opcode table: vsra to vfsqrt. -/
theorem test_decode_vsra_to_vfsqrt : decodesAll [
  (0xA28705F2, .vsra ⟨7, 1, 31, 2⟩ none),
  (0xA2C46D81, .vmin ⟨4, 27, 24, 1⟩ none),
  (0xA3081021, .vmax ⟨8, 4, 2, 1⟩ none),
  (0xA35A1C01, .vabs ⟨26, 7, 0, 1⟩ none),
  (0xA3870434, .vadds ⟨7, 1, 3, 4⟩ none),
  (0xA3E61EC5, .vsubs ⟨38, 7, 44, 5⟩ none),
  (0xA412A487, .vcmp ⟨18, 41, 8, 7⟩ none),
  (0xA4489813, .vsel ⟨8, 38, 1, 3⟩ none),
  (0xA48221A7, .vclmul ⟨2, 8, 26, 7⟩ none),
  (0xA4C80C01, .vpopc ⟨8, 3, 0, 1⟩ none),
  (0xA5034407, .vclz ⟨3, 17, 0, 7⟩ none),
  (0xA5489142, .vshli ⟨8, 36, 20, 2⟩ none),
  (0xA582A836, .vshri ⟨2, 42, 3, 6⟩ none),
  (0xA5C10887, .vsrai ⟨1, 2, 8, 7⟩ none),
  (0xA82A201A, .vfadd ⟨42, 8, 1, 10⟩ none),
  (0xA8400D58, .vfsub ⟨0, 3, 21, 8⟩ none),
  (0xA8930C79, .vfmul ⟨19, 3, 7, 9⟩ none),
  (0xA8C41C38, .vfma ⟨4, 7, 3, 8⟩ none),
  (0xA9191078, .vfdiv ⟨25, 4, 7, 8⟩ none),
  (0xA9431C08, .vfsqrt ⟨3, 7, 0, 8⟩ none)] = true := by decide +kernel

/-- Words written out from the opcode table: vfmin to vslide. -/
theorem test_decode_vfmin_to_vslide : decodesAll [
  (0xA9821DC8, .vfmin ⟨2, 7, 28, 8⟩ none),
  (0xA9DA1C18, .vfmax ⟨26, 7, 1, 8⟩ none),
  (0xAA12047A, .vfcmp ⟨18, 1, 7, 10⟩ none),
  (0xAA451029, .vfcvt ⟨5, 4, 2, 9⟩ none),
  (0xAA835938, .vfscale ⟨3, 22, 19, 8⟩ none),
  (0xAAC8056B, .vfsgn ⟨8, 1, 22, 11⟩ none),
  (0xAC1D203C, .vdadd ⟨29, 8, 3, 12⟩ none),
  (0xAC47141C, .vdsub ⟨7, 5, 1, 12⟩ none),
  (0xAC82121C, .vdmul ⟨2, 4, 33, 12⟩ none),
  (0xACC3207C, .vdfma ⟨3, 8, 7, 12⟩ none),
  (0xAD0828DC, .vdquant ⟨8, 10, 13, 12⟩ none),
  (0xAD791C1C, .vdcmp ⟨57, 7, 1, 12⟩ none),
  (0xAE032002, .vradd ⟨3, 8, 0, 2⟩ none),
  (0xAE440C0A, .vrmax ⟨4, 3, 0, 10⟩ none),
  (0xAE888C01, .vrmin ⟨8, 35, 0, 1⟩ none),
  (0xB0130C07, .vbcast ⟨19, 3, 0, 7⟩ none),
  (0xB04B0BF3, .vext ⟨11, 2, 63, 3⟩),
  (0xB0830871, .vins ⟨3, 2, 7, 1⟩ none),
  (0xB0CD6028, .vperm ⟨13, 24, 2, 8⟩ none),
  (0xB1251017, .vslide ⟨37, 4, 1, 7⟩ none)] = true := by decide +kernel

/-- Words written out from the opcode table: vcompress to vst. -/
theorem test_decode_vcompress_to_vst : decodesAll [
  (0xB1440873, .vcompress ⟨4, 2, 7, 3⟩ none),
  (0xB1AD0C04, .viota ⟨45, 3, 0, 4⟩ none),
  (0xB4070C40, .kand ⟨7, 3, 4, 0⟩),
  (0xB4470460, .kor ⟨7, 1, 6, 0⟩),
  (0xB4831020, .kxor ⟨3, 4, 2, 0⟩),
  (0xB4C70800, .knot ⟨7, 2, 0, 0⟩),
  (0xB5011000, .kpopc ⟨1, 4, 0, 0⟩),
  (0xB5421C01, .kmov ⟨2, 7, 0, 1⟩),
  (0xB60860F3, .vdefer ⟨8, 24, 15, 3⟩ none),
  (0xB6411873, .vdrain ⟨1, 6, 7, 3⟩ none),
  (0xB6810000, .dqcnt ⟨1, 0, 0, 0⟩),
  (0xB8030800, .vrng ⟨3, 2, 0, 0⟩),
  (0xB84E1000, .vgauss ⟨14, 4, 0, 0⟩),
  (0xBA000420, .vchk ⟨0, 1, 2, 0⟩ none),
  (0xBC032211, .vbqpack ⟨3, 8, 33, 1⟩ none),
  (0xBC449551, .vbqunpk ⟨4, 37, 21, 1⟩ none),
  (0xC0342089, .ld ⟨52, 8, 1, 9⟩ none),
  (0xC0442DD7, .st ⟨4, 11, 3, 87⟩ none),
  (0xC0870408, .vld ⟨7, 1, 0, 8⟩ none),
  (0xC0C80C02, .vst ⟨8, 3, 0, 2⟩ none)] = true := by decide +kernel

/-- Words written out from the opcode table: vgather to aor. -/
theorem test_decode_vgather_to_aor : decodesAll [
  (0xC1071103, .vgather ⟨7, 4, 2, 3⟩),
  (0xC1444908, .vscatter ⟨4, 18, 2, 8⟩),
  (0xC4021C5F, .sets ⟨2, 7, 0, 95⟩ none),
  (0xC4471280, .srd ⟨7, 4, 5, 0⟩),
  (0xC4871300, .swr ⟨7, 4, 6, 0⟩),
  (0xC4C40000, .srst ⟨4, 0, 0, 0⟩),
  (0xC5080804, .sget ⟨8, 2, 0, 4⟩),
  (0xC62BA919, .ldv ⟨43, 42, 2, 25⟩ none),
  (0xC6777CEE, .stv ⟨55, 31, 1, 110⟩ none),
  (0xC68C5401, .vldv ⟨12, 21, 0, 1⟩ none),
  (0xC6C4C003, .vstv ⟨4, 48, 0, 3⟩ none),
  (0xC8082000, .drive ⟨8, 1⟩),
  (0xC85C2000, .tap ⟨28, 1⟩),
  (0xC888A000, .drives ⟨8, 5⟩),
  (0xC8C28000, .taps ⟨2, 4⟩),
  (0xCA07BD8C, .aadd ⟨7, 47, 3, 12⟩ none),
  (0xCA477DB1, .amax ⟨7, 31, 3, 49⟩ none),
  (0xCA848181, .aswap ⟨4, 32, 3, 1⟩ none),
  (0xCAD69C99, .acas ⟨22, 39, 1, 25⟩ none),
  (0xCB3E2DA6, .aor ⟨62, 11, 3, 38⟩ none)] = true := by decide +kernel

/-- Words written out from the opcode table: binit to dxld. -/
theorem test_decode_binit_to_dxld : decodesAll [
  (0xCC022087, .binit ⟨2, 8, 1, 7⟩ none),
  (0xCC481CB4, .barv ⟨8, 7, 1, 52⟩ none),
  (0xCCA99CAC, .bwait ⟨41, 39, 1, 44⟩ none),
  (0xCCC720F6, .bbytes ⟨7, 8, 1, 118⟩ none),
  (0xCE078003, .stage ⟨7, 32, 0, 3⟩ none),
  (0xCE48A858, .stagew ⟨8, 42, 0, 88⟩ none),
  (0xCE807800, .pubs ⟨0, 30, 0, 0⟩),
  (0xCEC21001, .hqry ⟨2, 4, 0, 1⟩),
  (0xD0210C04, .pubidx ⟨33, 3, 0, 4⟩ none),
  (0xE0084008, .cloadb ⟨2, 1, 0, 8⟩),
  (0xE0748001, .cloadbq ⟨13, 2, 0, 1⟩),
  (0xE0A1C403, .cmm ⟨8, 7, 1, 3⟩),
  (0xE0CDC402, .cmmq ⟨3, 7, 1, 2⟩),
  (0xE1200002, .caccz ⟨8, 0, 0, 2⟩),
  (0xE1480509, .caccrd ⟨2, 0, 1, 265⟩),
  (0xE1908003, .caccst ⟨4, 2, 0, 3⟩),
  (0xE400037C, .pipm ⟨0, 0, 0, 892⟩ none),
  (0xE8104808, .dmma ⟨4, 1, 2, 8⟩),
  (0xE8500000, .dxz ⟨4, 0, 0, 0⟩),
  (0xE88E0000, .dxld ⟨3, 8, 0, 0⟩)] = true := by decide +kernel

/-- Words written out from the opcode table: dxst to prefixBundle. -/
theorem test_decode_dxst_to_prefixBundle : decodesAll [
  (0xE8C68000, .dxst ⟨1, 10, 0, 0⟩),
  (0xE91D3C01, .dchk ⟨7, 4, 15, 1⟩),
  (0xE9458800, .dxfix ⟨1, 6, 2, 0⟩),
  (0xE98AC0F0, .dxrd ⟨2, 11, 0, 240⟩),
  (0x9FD50000, .prefixBundle 0x2A)] = true := by decide +kernel

/-! ### Well-formedness (R32-R35, R41-R44): one ill-formed term for each check -/

/-- Every one of these is refused. -/
def refusedAll (l : List Instr) : Bool := l.all fun i => !i.wf

/-- Sequencer ops. -/
theorem test_wf_sequencer : refusedAll [
  .bprepr ⟨8, 1, 0, 0⟩, .bprepr ⟨0, 1, 1, 0⟩, .bprepr ⟨0, 1, 0, 1⟩, .bt ⟨0, 0, 2⟩, .bf ⟨0, 0, 2⟩, .ba ⟨0, 0, 2⟩, .ba ⟨0, 1, 0⟩,
  .call ⟨0, 0, 2⟩, .call ⟨0, 1, 0⟩, .ret ⟨1, 0, 0⟩, .ret ⟨0, 1, 0⟩, .ret ⟨0, 0, 1⟩, .binv ⟨0, 1, 0⟩, .binv ⟨0, 0, 2⟩, .binv ⟨1, 0, 1⟩,
  .loop ⟨1, 1, 4⟩ none, .loop ⟨1, 0, 0⟩ none, .loopi ⟨1, 2, 4⟩ none, .loopi ⟨1, 0, 0⟩ none, .loopp ⟨1, 0, 0⟩ none,
  .lexit ⟨1, 0, 0⟩, .lexit ⟨0, 0, 2⟩, .lexit ⟨0, 1, 0⟩, .lidx ⟨1, 1, 0⟩, .lidx ⟨1, 0, 6⟩, .seg ⟨1, 0⟩ none, .trap ⟨1, 0⟩ none,
  .condw ⟨1, 2, 0, 0⟩, .condw ⟨0, 2, 1, 0⟩, .condw ⟨0, 2, 0, 1⟩, .phase ⟨1, 1⟩, .phase ⟨0, 0⟩, .phase ⟨0, 6⟩, .fence ⟨0, 0⟩,
  .fence ⟨0, 6⟩, .calign ⟨1, 2⟩, .calign ⟨0, 1⟩, .calign ⟨0, 6⟩, .waitc ⟨1, 0, 0⟩ none, .rdcyc ⟨1, 1, 0⟩, .rdcyc ⟨1, 0, 3⟩,
  .rstk ⟨1, 1, 0, 0⟩, .rstk ⟨1, 0, 1, 0⟩, .rstk ⟨1, 0, 0, 1⟩, .rstkPush ⟨1, 1, 0, 1⟩, .rstkPush ⟨0, 1, 1, 1⟩,
  .rstkPush ⟨0, 1, 0, 0⟩] = true := by decide +kernel

/-- Scalar ops. -/
theorem test_wf_scalar : refusedAll [
  .cmp ⟨8, 1, 2, 0⟩, .cmp ⟨0, 1, 2, 8⟩, .qop ⟨8, 0, 0, 0⟩, .qop ⟨0, 8, 0, 0⟩, .qop ⟨0, 0, 8, 0⟩, .qmov ⟨0, 0, 1, 0⟩, .qmov ⟨1, 1, 0, 0⟩,
  .qmov ⟨1, 1, 0, 1⟩, .qmov ⟨8, 1, 0, 2⟩, .qmov ⟨1, 8, 0, 3⟩, .qmov ⟨0, 0, 0, 4⟩, .schk ⟨1, 2, 3, 0⟩, .schk ⟨0, 2, 3, 1⟩,
  .csrr ⟨1, 4096⟩, .csrw ⟨1, 4096⟩, .add ⟨1, 2, 3, 1⟩, .sub ⟨1, 2, 3, 1⟩, .and ⟨1, 2, 3, 1⟩, .or ⟨1, 2, 3, 1⟩, .xor ⟨1, 2, 3, 1⟩,
  .andn ⟨1, 2, 3, 1⟩, .shl ⟨1, 2, 3, 1⟩, .shr ⟨1, 2, 3, 1⟩, .sra ⟨1, 2, 3, 1⟩, .rol ⟨1, 2, 3, 1⟩, .mul ⟨1, 2, 3, 1⟩, .clmul ⟨1, 2, 3, 1⟩,
  .clmulh ⟨1, 2, 3, 1⟩, .mulh ⟨1, 2, 3, 3⟩, .div ⟨1, 2, 3, 2⟩, .rem ⟨1, 2, 3, 2⟩, .min ⟨1, 2, 3, 2⟩, .max ⟨1, 2, 3, 2⟩,
  .clz ⟨1, 2, 1, 0⟩, .ctz ⟨1, 2, 0, 1⟩, .popc ⟨1, 2, 1, 0⟩, .sext ⟨1, 2, 0, 3⟩, .zext ⟨1, 2, 1, 0⟩, .sel ⟨1, 2, 3, 0⟩ (some 1),
  .sel ⟨1, 2, 3, 1⟩ (some 64), .shli ⟨1, 2, 64⟩, .shri ⟨1, 2, 64⟩, .srai ⟨1, 2, 64⟩, .lins ⟨1, 0⟩ (some 4)] = true := by decide +kernel

/-- Floating, decimal and replay register ops. -/
theorem test_wf_float : refusedAll [
  .fadd ⟨1, 2, 3, 1⟩, .fsub ⟨1, 2, 3, 1⟩, .fmul ⟨1, 2, 3, 1⟩, .fdiv ⟨1, 2, 3, 1⟩, .fmin ⟨1, 2, 3, 1⟩, .fmax ⟨1, 2, 3, 1⟩,
  .fsqrt ⟨1, 2, 1, 0⟩, .fclass ⟨1, 2, 0, 1⟩, .fma ⟨1, 2, 3, 1⟩ none, .fma ⟨1, 2, 3, 0⟩ (some 1), .fcmp ⟨8, 1, 2, 0⟩, .fcmp ⟨0, 1, 2, 8⟩,
  .fcvt ⟨1, 2, 12, 11⟩, .fcvt ⟨1, 2, 0, 12⟩, .fcvt ⟨1, 2, 0, 1⟩, .dadd ⟨1, 2, 3, 1⟩, .dsub ⟨1, 2, 3, 1⟩, .dmul ⟨1, 2, 3, 1⟩,
  .ddiv ⟨1, 2, 3, 1⟩, .dquant ⟨1, 2, 3, 1⟩, .dfma ⟨1, 2, 3, 1⟩ none, .dfma ⟨1, 2, 3, 0⟩ (some 1), .drint ⟨1, 2, 1, 0⟩, .drint ⟨1, 2, 0, 6⟩,
  .dcmp ⟨8, 1, 2, 0⟩, .dcmp ⟨0, 1, 2, 8⟩, .dcvt ⟨1, 2, 12, 12⟩, .dcvt ⟨1, 2, 3, 2⟩, .dcvt ⟨1, 2, 0, 12⟩, .dcvt ⟨1, 2, 12, 0⟩,
  .dclass ⟨1, 2, 1, 0⟩, .mfy ⟨1, 16, 0, 0⟩, .mfy ⟨1, 0, 1, 0⟩, .mfy ⟨1, 0, 0, 10⟩, .mty ⟨16, 1, 0, 0⟩, .mty ⟨0, 1, 1, 0⟩,
  .mty ⟨0, 1, 0, 10⟩] = true := by decide +kernel

/-- Lane ops: reserved vector fields, masking bits and types. -/
theorem test_wf_lanes : refusedAll [
  .vadd ⟨48, 1, 2, 0⟩ none, .vsub ⟨1, 48, 2, 0⟩ none, .vmul ⟨1, 2, 48, 0⟩ none, .vmulh ⟨1, 2, 3, 8⟩ none, .vand ⟨1, 2, 3, 0⟩ (some 1),
  .vor ⟨1, 2, 3, 0⟩ (some 8), .vxor ⟨1, 2, 3, 8⟩ none, .vandn ⟨1, 2, 3, 8⟩ none, .vshl ⟨1, 2, 3, 8⟩ none, .vshr ⟨1, 2, 3, 8⟩ none,
  .vsra ⟨1, 2, 3, 8⟩ none, .vmin ⟨1, 2, 3, 8⟩ none, .vmax ⟨1, 2, 3, 8⟩ none, .vadds ⟨1, 2, 3, 8⟩ none, .vsubs ⟨1, 2, 3, 8⟩ none,
  .vabs ⟨1, 2, 1, 0⟩ none, .vabs ⟨1, 2, 0, 4⟩ none, .vcmp ⟨48, 2, 3, 0⟩ none, .vcmp ⟨0, 48, 3, 0⟩ none, .vcmp ⟨0, 2, 3, 8⟩ none,
  .vsel ⟨1, 2, 3, 0⟩ (some 64), .vsel ⟨1, 2, 3, 0⟩ (some 1), .vsel ⟨1, 2, 3, 8⟩ none, .vclmul ⟨1, 2, 3, 2⟩ none, .vpopc ⟨1, 2, 1, 0⟩ none,
  .vclz ⟨1, 2, 0, 8⟩ none, .vshli ⟨1, 2, 8, 0⟩ none, .vshri ⟨1, 2, 16, 1⟩ none, .vsrai ⟨1, 2, 32, 2⟩ none, .vfadd ⟨1, 2, 3, 7⟩ none,
  .vfsub ⟨1, 2, 3, 12⟩ none, .vfmul ⟨1, 2, 3, 7⟩ none, .vfdiv ⟨1, 2, 3, 7⟩ none, .vfmin ⟨1, 2, 3, 7⟩ none, .vfmax ⟨1, 2, 3, 7⟩ none,
  .vfscale ⟨1, 2, 3, 7⟩ none, .vfsgn ⟨1, 2, 3, 7⟩ none, .vfma ⟨32, 2, 3, 10⟩ none, .vfma ⟨1, 2, 3, 7⟩ none, .vfsqrt ⟨1, 2, 1, 10⟩ none,
  .vfcmp ⟨0, 2, 3, 7⟩ none, .vfcvt ⟨1, 2, 0, 1⟩ none, .vfcvt ⟨48, 2, 0, 10⟩ none, .vdadd ⟨1, 2, 3, 11⟩ none, .vdsub ⟨1, 2, 3, 11⟩ none,
  .vdmul ⟨1, 2, 3, 11⟩ none, .vdquant ⟨1, 2, 3, 11⟩ none, .vdfma ⟨32, 2, 3, 12⟩ none, .vdcmp ⟨0, 2, 3, 11⟩ none] = true := by
  decide +kernel

/-- Lane moves, masks, deferral queues and the generator. -/
theorem test_wf_moves : refusedAll [
  .vradd ⟨1, 2, 0, 13⟩ none, .vradd ⟨1, 2, 1, 0⟩ none, .vrmax ⟨1, 2, 0, 12⟩ none, .vrmin ⟨1, 2, 0, 12⟩ none, .vbcast ⟨1, 2, 1, 0⟩ none,
  .vbcast ⟨1, 2, 0, 13⟩ none, .vext ⟨1, 48, 3, 0⟩, .vext ⟨1, 2, 3, 13⟩, .vins ⟨32, 2, 3, 0⟩ none, .vins ⟨1, 2, 3, 13⟩ none,
  .vperm ⟨1, 2, 3, 13⟩ none, .vslide ⟨1, 48, 3, 0⟩ none, .vslide ⟨1, 2, 3, 13⟩ none, .vcompress ⟨1, 2, 8, 0⟩ none,
  .vcompress ⟨1, 2, 0, 13⟩ none, .viota ⟨1, 8, 0, 0⟩ none, .viota ⟨1, 0, 1, 0⟩ none, .viota ⟨1, 0, 0, 8⟩ none, .kand ⟨8, 0, 0, 0⟩,
  .kor ⟨0, 8, 0, 0⟩, .kxor ⟨0, 0, 8, 0⟩, .knot ⟨0, 0, 1, 0⟩, .kpopc ⟨1, 8, 0, 0⟩, .kpopc ⟨1, 0, 0, 1⟩, .kmov ⟨8, 1, 0, 0⟩,
  .kmov ⟨1, 8, 0, 1⟩, .kmov ⟨8, 0, 0, 2⟩, .kmov ⟨0, 0, 0, 3⟩, .kmov ⟨0, 0, 1, 0⟩, .vdefer ⟨32, 0, 0, 1⟩ none, .vdefer ⟨1, 1, 0, 1⟩ none,
  .vdrain ⟨1, 2, 3, 2⟩ none, .vdrain ⟨1, 2, 3, 0⟩ none, .vdefer ⟨1, 2, 3, 4⟩ none, .dqcnt ⟨1, 1, 0, 0⟩, .dqcnt ⟨1, 0, 0, 1⟩,
  .vrng ⟨48, 2, 0, 0⟩, .vrng ⟨1, 3, 0, 0⟩, .vgauss ⟨1, 2, 1, 0⟩, .vchk ⟨1, 2, 3, 0⟩ none, .vchk ⟨0, 48, 3, 0⟩ none, .vchk ⟨0, 2, 3, 1⟩ none,
  .vbqpack ⟨1, 2, 3, 3⟩ none, .vbqunpk ⟨48, 2, 3, 0⟩ none] = true := by decide +kernel

/-- Memory, stream, channel, barrier and Husk ops. -/
theorem test_wf_memory : refusedAll [
  .ld ⟨1, 2, 7, 0⟩ none, .st ⟨1, 2, 7, 0⟩ none, .ldv ⟨1, 2, 7, 0⟩ none, .stv ⟨1, 2, 7, 0⟩ none, .vld ⟨32, 2, 0, 0⟩ none,
  .vst ⟨1, 2, 1, 0⟩ none, .vldv ⟨32, 2, 0, 0⟩ none, .vstv ⟨1, 2, 1, 0⟩ none, .vgather ⟨32, 2, 0, 0⟩, .vgather ⟨1, 2, 4, 0⟩,
  .vscatter ⟨1, 2, 0, 32⟩, .sets ⟨16, 2, 0, 0⟩ none, .sets ⟨1, 2, 1, 0⟩ none, .srd ⟨1, 16, 0, 0⟩, .swr ⟨1, 2, 7, 0⟩, .srd ⟨1, 2, 0, 1⟩,
  .srst ⟨16, 0, 0, 0⟩, .srst ⟨1, 1, 0, 0⟩, .sget ⟨1, 16, 0, 0⟩, .sget ⟨1, 2, 1, 0⟩, .sget ⟨1, 2, 0, 7⟩, .drives ⟨32, 0⟩, .taps ⟨32, 0⟩,
  .aadd ⟨1, 2, 4, 0⟩ none, .amax ⟨1, 2, 4, 0⟩ none, .aswap ⟨1, 2, 4, 0⟩ none, .aor ⟨1, 2, 4, 0⟩ none, .acas ⟨1, 2, 0, 0⟩ none,
  .acas ⟨2, 2, 4, 0⟩ none, .binit ⟨1, 2, 2, 0⟩ none, .barv ⟨1, 2, 2, 0⟩ none, .bwait ⟨1, 2, 2, 0⟩ none, .bbytes ⟨1, 2, 2, 0⟩ none,
  .stage ⟨1, 2, 1, 0⟩ none, .stagew ⟨1, 2, 1, 0⟩ none, .pubidx ⟨1, 2, 1, 0⟩ none, .pubs ⟨1, 2, 0, 0⟩, .pubs ⟨0, 2, 0, 1⟩,
  .hqry ⟨1, 2, 1, 0⟩, .hqry ⟨1, 2, 0, 4⟩] = true := by decide +kernel

/-- Matrix ops. -/
theorem test_wf_matrix : refusedAll [
  .cloadb ⟨0, 1, 1, 1⟩, .cloadb ⟨0, 1, 0, 0⟩, .cloadb ⟨15, 1, 0, 2⟩, .cloadbq ⟨0, 1, 0, 17⟩, .cmm ⟨0, 1, 2, 1⟩, .cmm ⟨0, 1, 0, 0⟩,
  .cmm ⟨11, 1, 0, 5⟩, .cmmq ⟨11, 1, 0, 17⟩, .cmmq ⟨0, 1, 0, 0⟩, .caccz ⟨0, 1, 0, 1⟩, .caccz ⟨0, 0, 0, 0⟩, .caccz ⟨11, 0, 0, 5⟩,
  .caccrd ⟨0, 1, 0, 0⟩, .caccrd ⟨0, 0, 2, 0⟩, .caccrd ⟨0, 0, 0, 48⟩, .caccrd ⟨0, 0, 1, 512⟩, .caccst ⟨0, 1, 1, 1⟩, .caccst ⟨11, 1, 0, 5⟩,
  .pipm ⟨1, 0, 0, 0⟩ none, .pipm ⟨0, 0, 0, 0⟩ (some 64), .dmma ⟨8, 1, 2, 10⟩, .dmma ⟨0, 1, 2, 7⟩, .dmma ⟨0, 1, 2, 12⟩, .dxz ⟨8, 0, 0, 0⟩,
  .dxz ⟨0, 1, 0, 0⟩, .dxld ⟨0, 1, 1, 0⟩, .dxst ⟨0, 1, 0, 1⟩, .dchk ⟨0, 1, 2, 64⟩, .dxfix ⟨0, 1, 2, 1⟩, .dxrd ⟨0, 1, 1, 0⟩,
  .dxrd ⟨0, 1, 0, 289⟩] = true := by decide +kernel

/-- A bundle that is malformed is refused by name: a zero word, words out of slot order, an extension for an absent word, bits
that must be zero, an op number of no op, and extension bits that no op uses. -/
theorem test_malformed_bundles :
    ([decodeBundle [0] none, decodeBundle [0xC0041F04, 0x88041460] none, decodeBundle [0x9FC00100] none, decodeBundle [0x80000001] none,
      decodeBundle [0x9F400000] none, decodeBundle [0x9FC28000, 0x41010800] none].map fun r => match r with
      | .ok _ => none
      | .error e => some e) =
    [some .zeroWord, some .slotOrder, some .header, some .mustBeZero, some .undefinedOp, some .extension] := by decide +kernel

/-! ### Witnesses: states and operands that meet the hypotheses of the statements -/

/-- A module in which a word stands where the next step fetches it. -/
def placed1 (w : Nat) : State := State.reset.withFetchWord 32 w

/-- The same with the code bytes of these words from code address 0. -/
def placedCode (ws : List OpWord) (next : Nat) : State :=
  let s := placed1 0x80000000
  { s with tile := { s.tile with
    imem := memPut [] 0 ((ws ++ [padWord]).flatMap fun x => bytesOf 4 x.toNat)
    ct := { s.tile.ct with sq := { s.tile.ct.sq with pc := next, sequential := true } } } }

/-- The tile that issues next, with its bundle's address in place. -/
def aboutTo (s : State) : Option (State × State) :=
  match nextTile s with
  | some s' => s'.tile.nextAddr.map fun a => (s', withSeq s' { s'.tile.ct.sq with pc := a, prePoint := none })
  | none => none

/-- The hypotheses of a step that issues a bundle, before those on its words. -/
def issues (s : State) : Bool :=
  s.inbox.isEmpty && s.power.on && (dueStep s).isNone && match aboutTo s with
  | some (s', _) => let q := s'.tile.ct.sq
    !s'.tile.lost && q.rep.isNone && q.reissue.isNone && q.buffer.isNone && q.pfx.isNone
  | none => false

/-- The hypotheses of AStepRunsTheDecodedOp on the word `w` of `s`, its op charging a cause or not. -/
def runsOp (s : State) (w : OpWord) (i : Instr) (charges : Bool) : Bool :=
  issues s && match aboutTo s with
  | none => false
  | some (s', s1) =>
    s1.tile.curWords == [w] && w != 0 && (!s'.tile.ct.sq.sequential || w.s) && !w.isHeader && (match decodeOp w none with
      | .ok j => j == i
      | .error _ => false) && i.wf &&
    !secondNaming [] i && !s1.tile.misplaced i && !s1.tile.charged && !s1.tile.segMissing ⟨[w], [i]⟩ &&
    s'.tile.ct.sq.fetchCopy.isNone && s1.others.isEmpty &&
    match exec i s1 with
    | .next s2 => (s2.tile.dets.length != s1.tile.dets.length) == charges && (charges || s2.order7 none == s2) && s2.others.isEmpty
    | _ => false

/-- AStepRunsTheDecodedOp: an ADD that completes, and a RET on an empty return stack that charges. -/
theorem wit_stepRuns : (runsOp (placed1 0x88041460) 0x88041460 (.add ⟨4, 5, 6, 0⟩) false &&
    runsOp (placed1 0x81C00000) 0x81C00000 (.ret ⟨0, 0, 0⟩) true) = true := by decide +kernel

/-- AStepRunsTheDecodedOp: a resuming bundle that a replay register has charged; a last bundle whose loop goes back through a Stale copy. -/
theorem wit_stepCharged :
    (let s := placed1 0x88041460
     let s := { s with tile := { s.tile with dets := [{ cause := .illegalOp, tval := 0, slot := 4, issue := s.tile.c, addr := 0, det := s.tile.c }] } }
     (issues s && (aboutTo s).any fun p => p.2.tile.curWords == [0x88041460] && p.2.tile.charged) = true) ∧
    (let e : LoopEntry := {
       index := 1, total := 5, start := 0, stop := 4, pre := false, rot := false, stages := 0, n := 5, pipelined := false
       startCopy := [], exitCopy := [], startAt := none, startStale := true }
     let s := placed1 0x88041460
     let s := { s with tile := { s.tile with ct := { s.tile.ct with sq := { s.tile.ct.sq with loops := [e] } } } }
     (runsOp s 0x88041460 (.add ⟨4, 5, 6, 0⟩) false && (aboutTo s).any fun p => let q := p.2.tile.ct.sq
       p.2.tile.isLast && q.target.isNone && goesOn q.pc p.2.tile.follow q.loops == some e) = true) := by decide +kernel

/-- The hypotheses of IllFormedBundlesRaiseTheirCause, and a condition on the bundle's words and on the crossing. -/
def illFormed (s : State) (p : List OpWord → Bool → Bool) : Bool :=
  issues s && match aboutTo s with
  | none => false
  | some (s', s1) => let q := s'.tile.ct.sq
    p s1.tile.curWords (q.sequential && s1.tile.ct.sq.pc % 32 == 0 && !(s1.tile.curWords.headD 0).s)

/-- IllFormedBundlesRaiseTheirCause: a zero word; a packet entered in its middle; two C ops in a bundle, and five words; a word
whose op is not well formed; one after a word that is. -/
theorem wit_illFormed :
    (illFormed (placedCode [0] 0) (fun ws _ => ws.contains 0) &&
     illFormed (placedCode ([0x80000000, 0x80000000, 0x80000000, 0x80000000, 0x80000000, 0x80000000, 0x80000000, 0x80000000,
        0x08041460]) 32) (fun ws c => !ws.contains 0 && c) &&
     illFormed (placedCode [0x88041460, 0x08041460] 0) (fun ws c => !ws.contains 0 && !c && !slotsRise ws) &&
     illFormed (placedCode [0x88041460, 0x20031052, 0x40041F04, 0x6008C004, 0x6008C004] 0)
       (fun ws c => !ws.contains 0 && !c && decide (4 < ws.length)) &&
     illFormed (placed1 0x86480420) (fun ws c => ws == [0x86480420] && !c && !OpWord.isHeader 0x86480420 &&
       match decodeOp 0x86480420 none with
       | .ok i => !i.wf
       | .error _ => true) &&
     illFormed (placedCode [0x88041460, 0x7FFFFFFE] 0) (fun ws c => ws == [0x88041460, 0x7FFFFFFE] && !c && slotsRise ws &&
       (match decodeOp 0x88041460 none with
       | .ok i => i.wf && !secondNaming [] i
       | .error _ => false) && match decodeOp 0x7FFFFFFE none with
       | .ok i => !i.wf
       | .error _ => true)) = true := by decide +kernel

/-- EncodingRoundTrip: an op with extension bits, a prefix, and a word with bits lent to it. -/
theorem wit_roundTrip : (Instr.addi ⟨1, 2, 3⟩ (some 127)).wf = true ∧
    encode true (.addi ⟨1, 2, 3⟩ (some 127)) = some (0x8E010803, some 127) ∧
    (encode true (.prefixBundle 5)).isSome = true ∧ decodeOp 0x8E010803 (some 127) = .ok (.addi ⟨1, 2, 3⟩ (some 127)) :=
  ⟨by decide +kernel, by decide +kernel, by decide +kernel, rfl⟩

/-! #### A running tile -/

/-- The job whose node runs on the tile of the witnesses: two quads wide and three high, a vault share of 16 KiB. -/
def jobW : Job := {
  jobid := 7, record := [BitVec.ofNat 64 (2 ^ 15 + 2 * 2 ^ 22), 0, BitVec.ofNat 64 (2 * 2 ^ 32)], state := .running, pid := 3
  jcbs := [{}] }

/-- A tile of that job at cycle 1000. -/
def tileW : Tile := { ct := {
  pid := 3, strand := some 0, run := .issue, now := 1000, isize := 8, ssize := 16, segn := 2, sq := { pc := 64 } } }

/-- A module in which that tile stands as `f` makes it. -/
def stW (f : Tile → Tile) : State := { tile := f tileW, jobs := [jobW], hilum := { booting := false }, wcyc := 5000 }

/-- The tile with these scalars. -/
def sRegs (l : List (BitVec 6 × Word)) (t : Tile) : Tile :=
  { t with ct := { t.ct with cx := l.foldl (fun x e => x.wrS e.1 e.2) t.ct.cx } }

/-- The tile with another register state. -/
def onCx (f : Ctx → Ctx) (t : Tile) : Tile := { t with ct := { t.ct with cx := f t.ct.cx } }

/-- The tile with another sequencer state. -/
def onSeq (f : Seq → Seq) (t : Tile) : Tile := { t with ct := { t.ct with sq := f t.ct.sq } }

/-- The tile with another context. -/
def onCt (f : Context → Context) (t : Tile) : Tile := { t with ct := f t.ct }

/-- The hypotheses of an op that traps: exception `n` of those that TRAPEN enables is the lowest it raises. -/
def trapBit (fl trapen base n : Nat) : Bool :=
  bit fl n && bit trapen (base + n) && (List.range n).all fun m => !(bit fl m && bit trapen (base + m))

/-- DivideAndRemainderTruncate: a zero divisor, the one quotient that does not fit, and operands of either sign. -/
theorem wit_divide :
    let s := stW (sRegs [(1, BitVec.ofNat 64 (2 ^ 63)), (2, BitVec.ofNat 64 (2 ^ 64 - 1)), (3, 7), (4, 0)])
    s.tile.s 4 = 0 ∧ s.tile.s 3 ≠ 0 ∧ (s.tile.s 1).toInt = -2 ^ 63 ∧ (s.tile.s 2).toInt = -1 ∧ (s.tile.s 3).toInt = 7 := by
  decide +kernel

/-- SelectTakesOneOperand: an extension that names no scalar, one that does, and a tile that meets the two ill-formed forms. -/
theorem wit_select : (BitVec.toNat (0 : BitVec 7)) < 64 ∧
    (let t := onSeq (fun q => { q with pc := 4, pfx := some 65, target := none }) { tileW with
        imem := memPut [] 4 (bytesOf 4 0x0DC10831 ++ bytesOf 4 0xFFC00000) }
     t.curWords = [packWord false 0 0x37 (RRR.word ⟨1, 2, 3, 1⟩)] ∧ t.ct.sq.pfx = some 65) ∧
    (let t := onSeq (fun q => { q with pc := 4, pfx := some 1, target := none }) { tileW with
        imem := memPut [] 4 (bytesOf 4 0x0DC10830 ++ bytesOf 4 0xFFC00000) }
     t.curWords = [packWord false 0 0x37 (RRR.word ⟨1, 2, 3, 0⟩)] ∧ t.ct.sq.pfx = some 1) ∧
    packWord false 0 0x37 (RRR.word ⟨1, 2, 3, 1⟩) ≠ 0 ∧ packWord false 0 0x37 (RRR.word ⟨1, 2, 3, 0⟩) ≠ 0 ∧ ¬ 4 % 32 = 0 := by
  decide +kernel

/-- ImmediateOpsDeliverTheirFunction: the least immediate that no shift takes. -/
theorem wit_immediate : 64 ≤ (RI.imm ⟨1, 2, 64⟩).toNat := by decide

/-- RepresentableBinaryValuesRoundToThemselves: one, the least subnormal number and the greatest number of binary64. -/
theorem wit_representable : (bfmt 11).read 0x3FF0000000000000 = .fin false (2 ^ 52) (-52) ∧
    (bfmt 11).read 1 = .fin false 1 (-1074) ∧ (bfmt 11).read 0x7FEFFFFFFFFFFFFF = .fin false (2 ^ 53 - 1) 971 := by decide +kernel

/-- FloatingOpsDeliverOrTrap: 1 + 1 with every trap enabled; 1 / 0 with its trap enabled and with none; the same in decimal. -/
theorem wit_floating :
    let s := stW fun t => onCx (fun x => { x with trapen := 0x1F1F }) (sRegs [(1, 0x3FF0000000000000), (2, 0), (3, 0x31C0000000000001), (4, 0x31C0000000000000)] t)
    Quiet s (fAdd (bfmt 11) 0 (s.tile.sN 1) (s.tile.sN 1)).fl ∧ Quiet s ((dAdd 0 (s.tile.sN 3) (s.tile.sN 3)).fl * 256) ∧
    Quiet (stW fun t => t) 31 ∧ trapBit (fDiv (bfmt 11) 0 (s.tile.sN 1) (s.tile.sN 2)).fl s.tile.ct.cx.trapen.toNat 0 1 = true ∧
    trapBit (dDiv 0 (s.tile.sN 3) (s.tile.sN 4)).fl s.tile.ct.cx.trapen.toNat 8 1 = true ∧
    Quiet s (fConvert 0 11 3 (s.tile.sN 1)).fl ∧ Quiet s ((dConvert 0 0 12 3 (s.tile.sN 3)).fl * 256) := by
  unfold Quiet; decide +kernel

/-- ConditionBitsAreWrittenAndMoved: condition codes 0 and 7, a compare of numbers without a flag, the four forms of QMOV. -/
theorem wit_conditions :
    let s := stW fun t => onCx (fun x => { x with trapen := 0x1F1F }) (sRegs [(1, 0x3FF0000000000000), (3, 0x31C0000000000001)] t)
    RRR.m ⟨0, 1, 2, 7⟩ = 7 ∧ Quiet s (fCompare (bfmt 11) 2 (s.tile.sN 1) (s.tile.sN 1)).2 ∧
    Quiet s ((dCompare 2 (s.tile.sN 3) (s.tile.sN 3)).2 * 256) ∧ RRR.m ⟨1, 0, 0, 0⟩ = 0 ∧ RRR.m ⟨0, 1, 0, 1⟩ = 1 ∧
    RRR.m ⟨1, 1, 0, 2⟩ = 2 ∧ RRR.m ⟨1, 1, 0, 3⟩ = 3 := by
  unfold Quiet; decide +kernel

/-! #### Sequencer and system ops -/

/-- A packet copy of eight one-word NOP bundles. -/
def nopCopy : List OpWord := List.replicate 8 0x80000000

/-- The tile with these eight states of b registers, each prepared for address 32. -/
def bRegs (st : BState) (copy : List OpWord) (t : Tile) : Tile :=
  onSeq (fun q => { q with b := Vector.replicate 8 { target := 32, state := st, ready := 1003, copy := copy } }) t

/-- A return entry for address 32. -/
def retW (st : BState) (copy : List OpWord) : RetEntry := { addr := 32, copy := copy, state := st, ready := 1003 }

/-- A loop entry that ends at address 96. -/
def loopW (stale : Bool) : LoopEntry := {
  index := 1, total := 5, start := 64, stop := 96, pre := false, rot := false, stages := 0, n := 5, pipelined := false
  startCopy := nopCopy, exitCopy := nopCopy, startAt := none, exitStale := stale }

/-- TransfersReachTheirTargetOrTrap: targets in the code part and at its two ends; a Ready register whose target begins a bundle;
each cause of a transfer; a full and an empty return stack. -/
theorem wit_transfers :
    (let s := stW (sRegs [(1, 8172), (2, 8176), (3, BitVec.ofNat 64 (2 ^ 17)), (4, 2)])
     codePart s = 8176 ∧ (0 : Int) ≤ s.tile.ct.sq.pc + 4 * (BP.disp ⟨0, BitVec.ofInt 19 (-16)⟩).toInt ∧
     (s.tile.ct.sq.pc : Int) + 4 * (BP.disp ⟨0, BitVec.ofInt 19 (-17)⟩).toInt < 0 ∧
     (s.tile.s 1).toNat < codePart s ∧ (s.tile.s 1).toNat % 4 = 0 ∧ codePart s ≤ (s.tile.s 2).toNat ∧
     2 ^ 17 ≤ (s.tile.s 3).toNat ∧ (s.tile.s 4).toNat % 4 ≠ 0) ∧
    BX.f ⟨1, 0, 0⟩ = 0 ∧ BX.f ⟨0, 0, 1⟩ = 1 ∧
    (let s := stW fun t => onSeq (fun q => { q with rets := [retW .ready nopCopy] }) (bRegs .ready nopCopy t)
     (bReg s 1).state = .ready ∧ arrives (bReg s 1).copy (bReg s 1).target ∧ s.tile.ct.sq.rets.length < 8 ∧
     s.tile.ct.sq.rets = [retW .ready nopCopy] ∧ arrives (retW .ready nopCopy).copy (retW .ready nopCopy).addr) ∧
    transferCause (.unpreparedTarget, 1) .empty 1003 1000 nopCopy 32 = some (.unpreparedTarget, 1) ∧
    transferCause (.unpreparedTarget, 1) .pending 1003 1000 nopCopy 32 = some (.prematureTransfer, 3) ∧
    transferCause (.unpreparedTarget, 1) .stale 1003 1000 nopCopy 32 = some (.staleTarget, 32) ∧
    transferCause (.unpreparedTarget, 1) .ready 1003 1000 [0x00000000] 32 = some (.misalignedTarget, 32) ∧
    transferCause (.unpreparedTarget, 1) .ready 1003 1000 [0xFFC00000] 32 = some (.illegalOp, 32) ∧
    8 ≤ (List.replicate 8 (retW .ready nopCopy)).length ∧ (stW id).tile.ct.sq.rets = [] ∧
    (retW .pending nopCopy).state ≠ .empty ∧
    transferCause (.rstackUnderflow, 0) .pending 1003 1000 nopCopy 32 = some (.prematureTransfer, 3) := by
  unfold arrives; decide +kernel

/-- LoopsAreEnteredAndLeft: the trip counts where the rules meet, with five and six loops open, a skip whose end begins a bundle, and
a top entry that is stale and one that is not. -/
theorem wit_loops :
    (let s := stW fun t => { sRegs [(1, 0xFFFF_FFFD), (2, 0), (3, 1), (4, 0xFFFF_FFFC)]
        (onSeq (fun q => { q with loops := List.replicate 5 (loopW false) }) t) with
          imem := memPut [] 64 (nopCopy.flatMap fun w => bytesOf 4 w.toNat) }
     0xFFFF_FFFC < (s.tile.s 1).toNat ∧ (s.tile.s 2).toNat = 0 ∧ 64 + 4 * 4 < codePart s ∧ arrives (s.tile.packet 80) 80 ∧
     0 < (s.tile.s 3).toNat ∧ (s.tile.s 4).toNat ≤ 0xFFFF_FFFC ∧ s.tile.ct.sq.loops.length < 6) ∧
    6 ≤ (List.replicate 6 (loopW false)).length ∧ (stW id).tile.ct.sq.loops = [] ∧ (loopW true).exitStale = true ∧
    (loopW false).exitStale = false ∧ arrives (loopW false).exitCopy (loopW false).stop ∧
    ([loopW false][0]? = some (loopW false)) ∧ [loopW false].length ≤ 1 := by
  unfold arrives; decide +kernel

/-- The word of an op. -/
def wordFor (first : Bool) (i : Instr) : OpWord := ((encode first i).map (·.1)).getD 0

/-- What a stop saves. -/
def saveW : TrapSave := {
  seq := {}, at_ := 900, rotb := 0, run := .issue, held := [], beats := [], landing := [], cimBusy := 0, denseBusy := 0, pipBusy := 0 }

/-- A tile about to issue a REP with a DMMA beside it and a one-word NOP bundle after it. -/
def repTile : Tile := onSeq (fun q => { q with pc := 0 }) { tileW with
  imem := memPut [] 0 ([wordFor true (.rep ⟨1, 5⟩ none), wordFor false (.dmma ⟨0, 1, 2, 11⟩), 0x80000000, 0xFFC00000].flatMap fun w => bytesOf 4 w.toNat) }

/-- SequencerMarksWaitsAndReturnEntries: a segment to open with none open; a REP whose bundle holds an X op and whose body fits; a
guard fault pending and none; a WAITC at its cycle and one that has passed; the return stack empty, full and between. -/
theorem wit_sequencer :
    immCard 16 1 none < (stW id).tile.ct.segn ∧ (stW id).tile.ct.sq.seg = none ∧
    (let t := repTile
     (t.xOp.map fun op => decide (1 < 5 * t.interval op)) = some true ∧
     ((t.bundlesFrom 1 t.afterAddr).map fun body => !t.anyLast body) = some true) ∧
    (stW id).tile.ct.guard = none ∧ (stW (onCt fun k => { k with guard := some 5 })).tile.ct.guard = some 5 ∧
    (let s := stW (sRegs [(1, 1000), (2, 999)])
     let now := (BitVec.ofInt 64 (s.tile.ct.now + (s.quad s.tile.quadIndex).skewOf s.tile.ct.pid)).toNat
     now ≤ (s.tile.s 1 + BitVec.ofInt 64 (signedOf 10 0 none)).toNat ∧
     (s.tile.s 2 + BitVec.ofInt 64 (signedOf 10 0 none)).toNat < now) ∧
    (stW id).tile.ct.sq.rets = [] ∧
    (let s := stW (sRegs [(1, 8172), (2, 8176)])
     (s.tile.s 1).toNat < 2 ^ 17 ∧ (s.tile.s 1).toNat % 4 = 0 ∧ (s.tile.s 1).toNat < codePart s ∧ codePart s ≤ (s.tile.s 2).toNat ∧
     s.tile.ct.sq.rets.length < 8) := by
  decide +kernel

/-- ShadowCompare: two equal scalars, and two that differ. -/
theorem wit_shadow : let s := stW (sRegs [(1, 5), (2, 5), (3, 4)])
    s.tile.s 1 = s.tile.s 2 ∧ s.tile.s 1 ≠ s.tile.s 3 := by decide +kernel

/-- TrapPhaseAndReplayOps: a tile in a handler whose TPC begins a bundle, and one in none; fences of the least and the greatest
scope, and one under way in an open segment; each form of MFY and MTY. -/
theorem wit_trapPhase :
    (let s := stW fun t => onCt (fun k => { k with trap := some saveW }) { t with
        imem := memPut [] 0 (nopCopy.flatMap fun w => bytesOf 4 w.toNat) }
     s.tile.ct.trap ≠ none ∧ arrives (s.tile.packet s.tile.ct.cx.tpc.toNat) s.tile.ct.cx.tpc.toNat ∧ s.tile.flying < 16) ∧
    (stW id).tile.ct.trap = none ∧ 1 ≤ (I16.imm ⟨0, 1⟩).toNat ∧ (I16.imm ⟨0, 5⟩).toNat ≤ 5 ∧
    (let v : Word := BitVec.ofNat 64 (2 ^ 63 + 3 * 2 ^ 16 + 5)
     v.toNat / 2 ^ 19 % 2 ^ 44 = 0 ∧ v.getLsbD 63 = true ∧ v.extractLsb' 16 3 ≠ 4) ∧
    (let t := onSeq (fun q => { q with seg := some { index := 1, count := 3, sig := 0 } }) (onCt (fun k => { k with run := .wait 1040 .fence }) tileW)
     t.ct.run = .wait 1040 .fence ∧ t.ct.now + 1 < 1040 ∧ t.ct.sq.seg.isSome = true) ∧
    (BitVec.toNat (0x7FFFF : Word)) / 2 ^ 19 = 0 ∧ (RRR.m ⟨1, 2, 0, 7⟩).toNat < 8 ∧ RRR.m ⟨1, 2, 0, 8⟩ = 8 ∧
    RRR.m ⟨1, 2, 0, 9⟩ = 9 := by
  unfold arrives; decide +kernel

/-- CountsAreReadAndArmed: the three counts, the least imm that names none, and a tile of a job under each scope from .quad to
.pod, in a beacon cycle that is done with and in no such cycle. -/
theorem wit_counts : RI.imm ⟨1, 0, 0⟩ = 0 ∧ RI.imm ⟨1, 0, 1⟩ = 1 ∧ RI.imm ⟨1, 0, 2⟩ = 2 ∧ 2 < (RI.imm ⟨1, 0, 3⟩).toNat ∧
    (stW id).myJob = some jobW ∧ (stW id).wcyc % 1024 ≠ 0 ∧
    (let s := { stW id with beaconDone := true, wcyc := 5120 }
     s.myJob = some jobW ∧ s.wcyc % 1024 = 0) ∧ 2 ≤ (I16.imm ⟨0, 2⟩).toNat ∧ (I16.imm ⟨0, 5⟩).toNat ≤ 5 := by decide +kernel

/-- CsrOpsFollowTheMap: a number that no CSR has; an RO CSR; values at the two ends of the limits of ROTB and FMODE; a scope; a
tile with no update held and one with an update of DQCAP held. -/
theorem wit_csr : tileW.ct.dqLate = none ∧ tileW.ct.mincLate = none ∧
    (onCt (fun k => { k with dqLate := some (1001, (3, 2)) }) tileW).ct.dqLate = some (1001, (3, 2)) ∧
    (let s := stW (sRegs [(1, 7), (2, 8), (3, 3), (4, 4)])
     ((csrMap s).all fun e => e.1 != 0x7FF) = true ∧ 0x000 ∉ csrWrites ∧
     s.tile.csrWriteFault 0x060 (s.tile.s 1).toNat = none ∧ (s.tile.s 1).toNat < 8 ∧ 8 ≤ (s.tile.s 2).toNat ∧
     (s.tile.s 3).toNat < 4 ∧ 4 ≤ (s.tile.s 4).toNat) := by decide +kernel

/-! #### Lane, memory and matrix ops -/

/-- A stream record: base 0, elements of format `fmt`, `n` of them in one dimension, `z` bytes apart. -/
def recW (fmt n z : Nat) (write shuf : Bool) : Vec :=
  BitVec.ofNat 512 (fmt * 2 ^ 32 + (if write then 2 ^ 40 else 0) + (if shuf then 2 ^ 41 else 0) + n * 2 ^ 64 + z * 2 ^ 192)

/-- A read stream a2 and a write stream a3 of 64-bit elements, a2 at its start and a3 near its end. -/
def streamsW (t : Tile) : Tile := onCx (fun x => { x with
  a := (x.a.set 2 { valid := true, record := recW 3 20 8 false false, pos := 0 }).set 3
    { valid := true, record := recW 3 20 8 true false, pos := 16 } }) t

/-- IntegerLaneOpsFromRegistersAndStreams: registers as operands and destination, streams as both, VCLMUL's two types; a store of a
whole group inside the walk and one that passes its end. -/
theorem wit_laneInt :
    laneReady (stW id) [1, 2] (some 3) 1 ∧ laneReady (stW streamsW) [34, 2] (some 35) 8 ∧ laneReady (stW id) [1] (some 3) 8 ∧
    RRR.m ⟨1, 2, 3, 3⟩ = 3 ∧ RRR.m ⟨1, 2, 3, 7⟩ = 7 ∧ (BitVec.toNat (31 : BitVec 6)) < 32 ∧
    32 ≤ (BitVec.toNat (35 : BitVec 6)) ∧ (BitVec.toNat (47 : BitVec 6)) < 48 ∧
    (let st := (stW streamsW).tile.ct.cx.rdA 3
     ((List.range 8).all fun k => !decide (st.pos + k < recN st.record) ||
       !(stW streamsW).tile.ct.spOutRange (recAddr st.record (st.pos + k)) 8) = true ∧ st.pos + 3 < recN st.record) := by
  unfold laneReady; decide +kernel

/-- The tile with two vectors of binary32 ones and twos, decimal ones, and every exception enabled. -/
def floatsW (t : Tile) : Tile := onCx (fun x => { x with
  trapen := 0x1F1F
  v := ((x.v.set 1 (ofLanes 32 (List.replicate 16 0x3F800000))).set 2 (ofLanes 32 (List.replicate 16 0x40000000))).set 3
    (ofLanes 64 (List.replicate 8 0x31C0000000000001)) }) t

/-- FloatingLaneOpsAndConversions: sums of binary32 and of decimal lanes that raise nothing, with every exception enabled. -/
theorem wit_laneFloat :
    laneReady (stW floatsW) [1, 2] (some 4) 4 ∧ (BitVec.toNat (10 : BitVec 4)) ≤ 11 ∧
    Quiet (stW floatsW) (laneFlagSum 16 (fun _ => true) fun i =>
      (fAdd (bfmt 10) 0 (lane 32 i ((stW floatsW).tile.v 1)) (lane 32 i ((stW floatsW).tile.v 2))).fl) ∧
    Quiet (stW floatsW) (laneFlagSum 8 (fun _ => true) fun i =>
      (dAdd 0 (lane 64 i ((stW floatsW).tile.v 3)) (lane 64 i ((stW floatsW).tile.v 3))).fl * 256) ∧
    (Instr.vfcvt ⟨4, 1, 11, 10⟩ none).wf = true ∧ (stW floatsW).tile.vReadFault 1 4 = none ∧
    (stW floatsW).tile.vWriteFault 4 8 = none ∧ (stW floatsW).tile.vReadRace 1 4 8 = none ∧
    Quiet (stW floatsW) (laneFlagSum 8 (fun _ => true) fun i => (fConvert 0 10 11 (lane 32 i ((stW floatsW).tile.v 1))).fl) := by
  unfold laneReady Quiet; decide +kernel

/-- LaneComparesAndShadowCompare: a compare in each kind of lane; VCHK on equal registers and on two that differ in lane 0. -/
theorem wit_laneCompare :
    laneReady (stW floatsW) [1, 2] none 4 ∧ (BitVec.toNat (47 : BitVec 6)) / 8 ≤ 5 ∧
    Quiet (stW floatsW) (laneFlagSum 16 (fun _ => true) fun i =>
      (fCompare (bfmt 10) 2 (lane 32 i ((stW floatsW).tile.v 1)) (lane 32 i ((stW floatsW).tile.v 2))).2) ∧
    Quiet (stW floatsW) (laneFlagSum 8 (fun _ => true) fun i =>
      (dCompare 2 (lane 64 i ((stW floatsW).tile.v 3)) (lane 64 i ((stW floatsW).tile.v 3))).2 * 256) ∧
    laneReady (stW floatsW) [1, 2] none 1 ∧
    lane 8 3 ((stW floatsW).tile.vRead 1 1 64) ≠ lane 8 3 ((stW floatsW).tile.vRead 2 1 64) ∧
    (stW floatsW).tile.active none 3 = true := by
  unfold laneReady Quiet; decide +kernel

/-- ReductionsMovesAndMaskOps: reductions of each kind that raise nothing; moves with register and stream operands; the forms of
KMOV. -/
theorem wit_laneMoves :
    laneReady (stW floatsW) [1] (some 4) 4 ∧
    Quiet (stW floatsW) (treeFlags (fAdd (bfmt 10) 0) (fun i => if i < 16 then some (lane 32 i ((stW floatsW).tile.v 1)) else none) 6 0 * 1) ∧
    Quiet (stW floatsW) (treeFlags (dAdd 0) (fun i => if i < 8 then some (lane 64 i ((stW floatsW).tile.v 3)) else none) 6 0 * 256) ∧
    (BitVec.toNat (12 : BitVec 4)) ≤ 12 ∧ laneReady (stW streamsW) [34, 2] (some 35) 8 ∧ laneReady (stW streamsW) [34] none 8 ∧
    RRR.m ⟨1, 2, 0, 0⟩ = 0 ∧ RRR.m ⟨1, 2, 0, 1⟩ = 1 ∧ RRR.m ⟨1, 2, 0, 2⟩ = 2 := by
  unfold laneReady Quiet; decide +kernel

/-- A deferral queue of four entries at address 0, two of them waiting. -/
def queueW (count held : Nat) (t : Tile) : Tile := onCx (fun x => { x with
  dqbase := 0, dqcap := BitVec.ofNat 64 (4 + count * 2 ^ 34 + held * 2 ^ 48)
  k := x.k.set 1 (BitVec.ofNat 64 1) }) t

/-- BlockPipAndDeferralOps: blocks of ones; operands of the generator ops; queues with room, without it and empty, and slots in
range. -/
theorem wit_block :
    (stW floatsW).tile.vReadFault 1 4 = none ∧ (stW floatsW).tile.vWriteFault 4 1 = none ∧
    (stW floatsW).tile.vReadRace 1 4 16 = none ∧
    Quiet (stW floatsW) (bqForm 7 ((List.range 16).map fun i => lane 32 i ((stW floatsW).tile.v 1))).2 ∧
    (stW floatsW).tile.vReadFault 1 1 = none ∧ (stW floatsW).tile.vWriteFault 4 4 = none ∧
    (stW floatsW).tile.vReadRace 1 1 16 = none ∧ laneReady (stW id) [] (some 4) 8 ∧ laneReady (stW id) [] (some 4) 4 ∧
    (let x : Ext := some 0x48
     let act (s : State) := (List.range 8).filter (s.tile.active x)
     act (stW (queueW 2 1)) = [0] ∧ 2 + 1 + 1 ≤ 4 ∧ 4 < 4 + 0 + 1 ∧
     (stW (queueW 2 1)).tile.ct.cx.dqcap.toNat % 2 ^ 14 = 4 ∧ (stW (queueW 0 0)).tile.ct.cx.dqcap.toNat / 2 ^ 34 % 2 ^ 14 = 0 ∧
     (stW (queueW 2 1)).tile.ct.spOutRange (queueSlot (stW (queueW 2 1)).tile.ct.cx (0 + 2 + 0)) 32 = false) := by
  unfold laneReady Quiet; decide +kernel

/-- ScratchpadAccessesReachTheirBytes: the last aligned word and the last aligned 64 bytes of the share, the first beyond it, a
misaligned address; lanes that are all in range, and a first misaligned one. -/
theorem wit_scratchpad :
    let s := stW (sRegs [(1, 16376), (2, 16384), (3, 3), (4, 16320), (5, 0)])
    effective s ⟨6, 1, 3, 0⟩ none 8 = 16376 ∧ 16376 % 8 = 0 ∧ s.tile.ct.spOutRange 16376 8 = false ∧
    effective s ⟨6, 2, 3, 0⟩ none 8 = 16384 ∧ s.tile.ct.spOutRange 16384 8 = true ∧ effective s ⟨6, 3, 3, 0⟩ none 8 % 8 ≠ 0 ∧
    effective s ⟨6, 4, 3, 0⟩ none 64 = 16320 ∧ 16320 % 64 = 0 ∧ s.tile.ct.spOutRange 16320 64 = false ∧
    ((List.range 8).all fun i => let a := ((s.tile.s 5).toNat + lane 64 i (s.tile.v 0) * 8) % 2 ^ 64
      a % 8 == 0 && !s.tile.ct.spOutRange a 8) = true ∧
    ((s.tile.s 3).toNat + lane 64 0 (s.tile.v 0) * 8) % 2 ^ 64 % 8 ≠ 0 := by decide +kernel

/-- StreamOpsFollowTheWalk: streams ready to read and to write, one that is not valid, one at its end, and a record in range. -/
theorem wit_streams :
    let s := stW fun t => onCx (fun x => { x with a := x.a.set 4 { valid := true, record := recW 3 20 8 false false, pos := 20 } })
      (streamsW t)
    let r := s.tile.ct.cx.rdA 2; let w := s.tile.ct.cx.rdA 3; let f := s.tile.ct.cx.rdA 4
    (r.valid = true ∧ recWrite r.record = false ∧ recZ r.record = 8 ∧ r.pos < recN r.record ∧
      s.tile.ct.spOutRange (recAddr r.record r.pos) 8 = false) ∧
    (w.valid = true ∧ recWrite w.record = true ∧ recZ w.record = 8 ∧ w.pos < recN w.record ∧
      s.tile.ct.spOutRange (recAddr w.record w.pos) 8 = false) ∧
    (s.tile.ct.cx.rdA 5).valid = false ∧ f.valid = true ∧ f.pos = recN f.record ∧
    effective s ⟨2, 0, 0, 0⟩ none 64 % 64 = 0 ∧ s.tile.ct.spOutRange (effective s ⟨2, 0, 0, 0⟩ none 64) 64 = false := by
  decide +kernel

/-- The commons of the witnesses: four banks, every slot of bank 0 granted to the job. -/
def commonsW : Commons := { cid := 1, quad := 40, banks := 4, cal := (List.range 64).map fun i => (0, i, 3) }

/-- The module with that commons. -/
def stC (f : Tile → Tile) : State := { stW f with commons := [commonsW] }

/-- VaultAccessesReachTheirBank, AtomicsSendTheirWindowOnce and BarrierOpsSendTheirWindow: the last word of the share, the first
beyond it, a commons, a misaligned address; counts and phases at their limits; a log entry that agrees. -/
theorem wit_vault :
    let s := stC (sRegs [(1, 16376), (2, 16384), (3, 3), (4, BitVec.ofNat 64 (2 ^ 37 + 2 ^ 24)), (5, 1), (6, BitVec.ofNat 64 (2 ^ 20 - 1)),
      (7, BitVec.ofNat 64 (2 ^ 20)), (8, BitVec.ofNat 64 (2 ^ 32 + 4095)), (9, 4096), (10, 16368)])
    s.vPlace (effective s ⟨20, 1, 3, 0⟩ none 8) 8 = .share ∧ s.vPlace (effective s ⟨20, 2, 3, 0⟩ none 8) 8 = .out ∧
    s.vPlace (effective s ⟨20, 4, 3, 0⟩ none 8) 8 = .commons 1 ∧ effective s ⟨20, 3, 3, 0⟩ none 8 % 2 ^ 24 % 8 ≠ 0 ∧
    effective s ⟨20, 4, 3, 0⟩ none 8 % 2 ^ 24 % 8 = 0 ∧ s.tile.ct.log[s.tile.ct.logPos]? = none ∧
    BitVec.getLsbD (MM.ty ⟨20, 1, 0, 0⟩) 0 = false ∧ BitVec.getLsbD (MM.ty ⟨20, 1, 1, 0⟩) 0 = true ∧
    s.tile.ct.spOutRange (effective s ⟨20, 1, 0, 0⟩ none 8) 8 = false ∧
    (effective s ⟨5, 10, 0, 0⟩ none 16 % 16 = 0 ∧ s.tile.ct.spOutRange 16368 16 = false ∧ s.vPlace 16368 16 = .share) ∧
    effective s ⟨5, 3, 0, 0⟩ none 16 % 16 ≠ 0 ∧
    1 ≤ (s.tile.s 5).toNat ∧ (s.tile.s 6).toNat < 2 ^ 20 ∧ 2 ^ 20 ≤ (s.tile.s 7).toNat ∧ (s.tile.s 0).toNat = 0 ∧
    (s.tile.s 8).toNat / 2 ^ 12 % 2 ^ 20 = 0 ∧ (s.tile.s 9).toNat / 2 ^ 12 % 2 ^ 20 ≠ 0 := by decide +kernel

/-- AtomicsSendTheirWindowOnce: a re-run whose log entry agrees with an AADD, and one whose entry does not. -/
theorem wit_reRun :
    let le : LogEntry := { code := 0x28, addr := 16376, operands := [0, 5, 0], value := some 9, offset := 0, id := 4 }
    let s := stW fun t => onCt (fun k => { k with log := [le] }) (sRegs [(1, 16376), (2, 5)] t)
    s.tile.ct.log[s.tile.ct.logPos]? = some le ∧ effective s ⟨2, 1, 0, 0⟩ none 8 % 8 = 0 ∧
    s.tile.ct.spOutRange (effective s ⟨2, 1, 0, 0⟩ none 8) 8 = false ∧
    (le.code = 0x28 ∧ le.addr = BitVec.ofNat 64 (effective s ⟨2, 1, 0, 0⟩ none 8) ∧
      le.operands = [BitVec.setWidth 64 (MM.ty ⟨2, 1, 0, 0⟩), BitVec.ofNat 64 ((s.tile.s 2).toNat % 2 ^ 64), 0]) ∧ le.code ≠ 0x2C := by
  decide +kernel

/-- HuskOpsAskTheirEngines: a descriptor address that is aligned and one that is not; a staged region, an unstaged one and the
overlays; engines 35 and 36; a publish-index register. -/
theorem wit_huskOps :
    let rg (staged : Bool) : Region := { base := 4096, space := 0, staged := staged, race := false, guard := false, size := 64, rcbase := 0 }
    let s := stC fun t => onCt (fun k => { k with regions := [rg true, rg false] })
      (sRegs [(1, 128), (2, 8), (3, 1), (4, 256), (5, 35), (6, 36), (7, BitVec.ofNat 64 (2 ^ 37 + 2 ^ 24 + 0xFFFF00))] t)
    effective s ⟨9, 1, 0, 0⟩ none 64 % 64 = 0 ∧ s.tile.ct.spOutRange (effective s ⟨9, 1, 0, 0⟩ none 64) 64 = false ∧
    effective s ⟨9, 2, 0, 0⟩ none 64 % 64 ≠ 0 ∧ s.tile.ct.regions[(s.tile.s 0).toNat]? = some (rg true) ∧
    s.tile.ct.regions[(s.tile.s 3).toNat]? = some (rg false) ∧ (s.tile.s 4).toNat = 256 ∧ (s.tile.s 5).toNat < 36 ∧
    36 ≤ (s.tile.s 6).toNat ∧ s.myJob = some jobW ∧ s.tile.ct.log[s.tile.ct.logPos]? = none ∧
    s.vPlace (effective s ⟨9, 7, 0, 0⟩ none 8) 8 = .index 1 ∧ effective s ⟨9, 7, 0, 0⟩ none 8 % 2 ^ 24 < 0xFFFF80 ∧
    effective s ⟨9, 7, 0, 0⟩ none 8 % 8 = 0 := by decide +kernel

/-- DrivesAndTapsUseTheChannel: a quad whose table feeds nothing from a lane, one that feeds the tile's own port, a landing buffer
with no entry of the lane yet and with one, the older of two. -/
theorem wit_channel :
    let s := stW fun t => { t with landing := [(2, 990, 7), (2, 995, 8), (3, 1001, 9)] }
    let sf := s.setQuad 0 { route := List.replicate 72 0 ++ [0xA0] ++ List.replicate 55 0 }
    fedBy (s.quad (s.tile.ltid / 4)).route 4 2 0 = [] ∧ fedBy (sf.quad (sf.tile.ltid / 4)).route 4 0 0 ≠ [] ∧
    (s.tile.landing.all fun e => e.1 != 3 || decide (s.tile.ct.now < e.2.1)) = true ∧
    ((2, 990, 7) ∈ s.tile.landing ∧ 990 ≤ s.tile.ct.now) ∧
    (s.tile.landing.all fun f => f.1 != 2 || f == (2, 990, 7) || decide (990 < f.2.1)) = true := by decide +kernel

/-- The tile with plane format BQ8, two planes, and streams for the matrix engines. -/
def engineW (t : Tile) : Tile := onCx (fun x => { x with
  cimcfg := BitVec.ofNat 64 (2 * 2 ^ 7)
  a := ((((x.a.set 1 { valid := true, record := recW 15 4096 1 false true, pos := 0 }).set 2
    { valid := true, record := recW 10 256 4 true false, pos := 0 }).set 3
    { valid := true, record := recW 11 64 8 false false, pos := 0 }).set 4
    { valid := true, record := recW 11 64 8 true false, pos := 0 }).set 5
    { valid := true, record := recW 10 256 4 false false, pos := 0 }
  x := x.x.set 1 { kind := .f64, cells := [] } }) t

/-- MatrixEngineOpsStart: operands without a fault for CLOADB, CMM and CACCST; a tile of TQ 0 and one led by it; a row that no
multiply uses. -/
theorem wit_matrix :
    let s := stW engineW
    firstFault (s.tile.loadFaults ⟨0, 1, 0, 2⟩) = none ∧ firstFault (s.tile.cmmFaults ⟨0, 1, 0, 4⟩) = none ∧
    firstFault (s.tile.caccstFaults ⟨0, 2, 0, 1⟩) = none ∧ s.tile.ltid % 4 = 0 ∧
    (let l : Tile := { s.tile with pend := [{
        due := 1001, kind := .planeRead true 0 2 0 (s.tile.ct.cx.rdA 1) 0, issue := 1000, slot := 3, addr := 64, phase := 0 }] }
     let u : State := { s with tile := { s.tile with ltid := 1 }, others := [l] }
     u.tile.ltid % 4 ≠ 0 ∧ u.loadLed ⟨0, 1, 0, 2⟩ = true ∧ firstFault (u.tile.loadFaults ⟨0, 1, 0, 2⟩) = none) ∧
    s.tile.rowBusy 0 = false ∧ Quiet s 0 ∧ s.tile.cimBusy ≤ s.tile.ct.now ∧ s.tile.pipBusy ≤ s.tile.ct.now := by
  unfold Quiet; decide +kernel

/-- DenseOpsAndChecksStart: operands without a fault and x registers on which nothing lands, of each content; cells 80 and 81; masks
of no line, of one cell and of more, with TRAPEN.CHK set and clear. -/
theorem wit_dense :
    let s := stW engineW
    firstFault (s.tile.dmmaFaults ⟨0, 3, 3, 11⟩) = none ∧ s.tile.xClash 0 1008 false = false ∧ s.tile.xClash 0 1001 false = false ∧
    (let r := s.tile.ct.cx.rdA 3
     r.valid = true ∧ recWrite r.record = false ∧ r.pos < recN r.record ∧ recFmt r.record = 11 ∧ s.tile.xClash 0 1012 false = false) ∧
    (let r := s.tile.ct.cx.rdA 5
     r.valid = true ∧ recWrite r.record = false ∧ r.pos < recN r.record ∧ recFmt r.record = 10 ∧ s.tile.xClash 0 1020 false = false) ∧
    (let r := s.tile.ct.cx.rdA 4
     r.valid = true ∧ recWrite r.record = true ∧ r.pos < recN r.record ∧ recFmt r.record = 11 ∧ (xReg s ⟨1, 4, 0, 0⟩).kind ≠ .f32) ∧
    (let r := s.tile.ct.cx.rdA 2
     r.valid = true ∧ recWrite r.record = true ∧ r.pos < recN r.record ∧ recFmt r.record = 10 ∧ (xReg s ⟨0, 2, 0, 0⟩).kind ≠ .f64) ∧
    ¬((xReg s ⟨1, 4, 0, 80⟩).kind = .f64 ∧ 80 < (XM.cnt ⟨1, 4, 0, 80⟩).toNat) ∧
    ((xReg s ⟨1, 4, 0, 81⟩).kind = .f64 ∧ 80 < (XM.cnt ⟨1, 4, 0, 81⟩).toNat) ∧ (xReg s ⟨0, 0, 0, 0⟩).kind = .empty ∧
    checkMasks (xReg s ⟨1, 0, 0, 0⟩) 0 = (0, 0) ∧
    (let r : XReg := { kind := .f64, cells := [(0, 0x3FF0000000000000)] }
     popCount 17 (checkMasks r 40).1 = 1 ∧ popCount 17 (checkMasks r 40).2 = 1) ∧
    (let r : XReg := { kind := .f64, cells := [(0, 0x3FF0000000000000), (10, 0x3FF0000000000000)] }
     popCount 17 (checkMasks r 40).1 = 2) ∧
    bit (stW (onCx fun x => { x with trapen := BitVec.ofNat 64 (2 ^ 16) })).tile.ct.cx.trapen.toNat 16 = true ∧
    bit s.tile.ct.cx.trapen.toNat 16 = false ∧ s.tile.xClash 0 1020 true = false := by decide +kernel

/-! #### What comes due -/

/-- The tile with one pending effect, due in its cycle. -/
def pendW (k : PendKind) (t : Tile) : Tile := { t with pend := [{ due := 1000, kind := k, issue := 995, slot := 2 }] }

/-- A result of scalar s5 in flight, of the op that issued in cycle 995. -/
def resW (id : Nat) (src : Src) : Result := {
  id := id, dest := .s 5, due := 1000, rdAt := 1000, src := src, be := 255, fl := 4, issue := 995, slot := 1 }

/-- The tile with that result. -/
def flyW (src : Src) (t : Tile) : Tile := onCt (fun k => { k with inflight := [resW 4 src] }) t

/-- The one effect of a kind that is due, and the tile without it. -/
def sole (s : State) (f : PendKind → Bool) (k : PendKind) : Prop :=
  soleDue s f { due := 1000, kind := k, issue := 995, slot := 2 }
    { s.tile with pend := s.tile.pend.filter fun q => !(decide (q.due ≤ s.tile.ct.now) && f q.kind) }

/-- Regions of 64 bytes at address 4096: staged, or with race checks. -/
def regionW (staged race : Bool) : Region := {
  base := 4096, space := 0, staged := staged, race := race, guard := false, size := 64, rcbase := 8192 }

/-- ResultsReadsAndStoresLand: a value that lands, a read of eight bytes that are sign-extended, stores to plain and to staged bytes, a
store that races, a staged region and an overlay to publish. -/
theorem wit_landing :
    (let k := (stW (flyW (.val 9))).tile.ct
     k.inflight.filter (·.toRead k.now) = [] ∧ k.inflight.filter (·.lands k.now) = [resW 4 (.val 9)] ∧ k.waiting = none ∧
     k.yAt = none) ∧
    (let r := resW 4 (.read .sp ((List.range 8).map some) (some 64))
     let s := stW (flyW r.src)
     s.tile.ct.inflight.filter (·.toRead s.tile.ct.now) = [r] ∧ s.tile.ct.inflight.filter (fun q => q.id == r.id) = [r] ∧
     r.y = none ∧ s.tile.ct.cx.memcfg.getLsbD 4 = false ∧ s.tile.sp.soft = [] ∧ s.tile.owed = [] ∧
     ({ s.tile with owed := [(995, 1, 5)] } : Tile).owed = [(r.issue, r.slot, 5)]) ∧
    (let s := stW (pendW (.spWrite [(4096, 7), (4097, 8)]))
     sole s PendKind.isSpWrite (.spWrite [(4096, 7), (4097, 8)]) ∧ s.tile.lockedWord [4096, 4097] = none ∧ s.tile.sp.wf = true ∧
     s.tile.owed = [] ∧
     s.tile.ct.spStaged 4096 = false ∧ s.tile.sp.writer 4096 = none) ∧
    (let s := stW fun t => onCt (fun k => { k with regions := [regionW true false] }) (pendW (.spWrite [(4096, 7), (4159, 8)]) t)
     sole s PendKind.isSpWrite (.spWrite [(4096, 7), (4159, 8)]) ∧ s.tile.ct.spStaged 4096 = true ∧ s.tile.ct.spStaged 4159 = true ∧
     s.tile.ct.spStaged 4160 = false ∧ s.tile.sp.writer 4096 = none) ∧
    (let s := stW fun t => onCt (fun k => { k with regions := [regionW false true], cx := { k.cx with memcfg := 16 } })
        { pendW (.spWrite [(4096, 7)]) t with sp := { pub := memPut [] 8192 (bytesOf 4 0x18000005) } }
     sole s PendKind.isSpWrite (.spWrite [(4096, 7)]) ∧ s.tile.lockedWord [4096] = none ∧
     (s.tile.spRace [4096] 0 true).isSome = true) ∧
    (let s := stW fun t => onCt (fun k => { k with regions := [regionW true false] })
        { pendW (.publish 0) t with sp := { pub := [], shadow := [(4096, 9)], lines := [(64, 0)] } }
     s.tile.hasDue PendKind.isSpWrite = false ∧ s.myJob.map s.halting = some false ∧ sole s PendKind.isPublish (.publish 0) ∧
     s.tile.ct.regions[0]? = some (regionW true false) ∧ s.tile.sp.wf = true ∧ (s.tile.sp.lines.map (·.1)).Nodup ∧
     (s.tile.ct.sbase + 4096) % 64 = 0) ∧
    (let s := stW fun t => onCt (fun k => { k with overlays := [(0, [1, 2])] }) (pendW (.publish 256) t)
     s.tile.hasDue PendKind.isSpWrite = false ∧ sole s PendKind.isPublish (.publish 256) ∧ s.tile.ct.overlays = [(0, [1, 2])] ∧
     memWf s.tile.imem = true) := by
  unfold sole soleDue; decide +kernel

/-- An armed wait of the tile, with this wake. -/
def armW (woken : Option (Word × Nat)) : Arm := {
  space := .sp, owner := 0, addr := 64, phase := 3, ltid := 0, pid := 3, id := 4, deadline := 1000, hops := 0, woken := woken, issue := 900 }

/-- VaultBanksWindowsAndWaitsAct: a write and a read at the banks, the windows of an atomic and of barrier ops, waits at their phase and
short of it, a wake and a deadline in this cycle, a registered pair. -/
theorem wit_windows :
    (let k := PendKind.vaultWrite [(0, 7)]
     let s := stW (pendW k)
     s.myJob = some jobW ∧ aloneAtBanks s ∧ s.tile.ct.cx.memcfg.getLsbD 4 = false ∧ sole s PendKind.isVaultWrite k ∧
     jobW.vault.wf = true ∧ vStaged s.tile.ct.regions 0 = false ∧ jobW.vault.writer 0 = none) ∧
    (let k := PendKind.vaultRead 4 0 8 none
     let s := stW fun t => pendW k (flyW .wait t)
     s.tile.hasDue PendKind.isVaultWrite = false ∧ sole s PendKind.isVaultRead k ∧ aloneAtBanks s ∧ jobW.vault.soft = [] ∧
     s.tile.ct.inflight.filter (fun q => q.id == 4) = [resW 4 .wait]) ∧
    (let k := PendKind.atomic 4 .sp 64 8 .add 1 0
     let s := stW fun t => pendW k (flyW .wait t)
     sole s PendKind.isAtomic k ∧ aloneAtBanks s ∧ s.tile.owed = [] ∧ s.tile.sp.soft = [] ∧ s.tile.ct.inflight.filter (fun q => q.id == 4) = [resW 4 .wait]) ∧
    (let k := PendKind.barrier 4 .sp 64 .barv 0
     sole (stW (pendW k)) PendKind.isBarrier k ∧ aloneAtBanks (stW (pendW k))) ∧
    (let k := PendKind.barrier 4 .sp 64 .bwait 1
     let s := stW (pendW k)
     sole s PendKind.isBarrier k ∧ s.tile.sp.soft = [] ∧ waitOver (2 ^ 62) 1 = true ∧ waitOver 0 1 = true ∧ waitOver (2 ^ 63) 1 = false ∧
     windowReads false s 64 8 = 0) ∧
    (let s := { stW (flyW .wait) with arms := [armW (some (5, 1000))] }
     s.arms.filter (s.armWakes s.tile) = [armW (some (5, 1000))] ∧ s.tile.ct.waitGone = false ∧
     s.tile.ct.inflight.filter (fun q => q.id == (armW none).id) = [resW 4 .wait]) ∧
    (let s := { stW (flyW .wait) with arms := [armW none] }
     s.arms.filter (fun b => b.expired s.tile && !s.armWakes s.tile b) = [armW none]) ∧
    (let s := { stC id with jobs := [{ jobW with pairs := [(1, 64)] }] }
     s.common? 1 = some commonsW ∧ memWf commonsW.mem = true ∧
     (s.jobs.filter fun j => j.pid == 3 && j.state != .waiting && j.state != .ended).flatMap (·.pairs) ++ s.breaksOf 3 = [(1, 64)]) := by
  unfold sole soleDue aloneAtBanks; decide +kernel

/-- A request at the commons of the witnesses. -/
def reqW (kind byte : Nat) (slotAt : Option Nat) : CReq := {
  pid := 3, ltid := 0, id := 4, bank := 0, byte := byte, kind := kind, bytes := bytesOf 8 9, n := 8, slotAt := slotAt, issue := 466 }

/-- The module with that request queued. -/
def reqState (r : CReq) : State := { stW (flyW .wait) with commons := [{ commonsW with queue := [r] }] }

/-- CommonsAndPromises: a load, a store and a raise of an index in their slots, at the ends of the addresses; an access that has no slot
in time, of a node with two misses and of one with none. -/
theorem wit_commons :
    ((List.all [reqW 1 0 (some 5000), reqW 0 0xFFFEF8 (some 5000), reqW 4 0xFFFF00 (some 5000)]) fun r =>
      let s := reqState r
      (s.commons.findSome? fun c => (c.queue.find? (·.slotDue s.wcyc)).map fun r => (c, r)) == some ({ commonsW with queue := [r] }, r) &&
      s.common? 1 == some { commonsW with queue := [r] } && commonsW.soft == [] && memWf commonsW.mem && memWf commonsW.value &&
      r.ltid == s.tile.ltid && r.pid == s.tile.ct.pid && !s.tile.ct.cx.memcfg.getLsbD 4 &&
      (decide (r.byte + r.n ≤ 0xFFFF00) || r.kind == 4) && r.bytes.length == r.n &&
      s.tile.ct.inflight.filter (fun q => q.id == r.id) == [resW 4 .wait]) = true ∧
    (let r := reqW 0 0 none
     let s := reqState r
     s.myJob = some jobW ∧
     (s.commons.findSome? fun c => (c.queue.find? (·.late s.tile s.wcyc)).map fun r => (c, r)) =
       some ({ commonsW with queue := [r] }, r) ∧ ¬ 2 ≤ jobW.misses s.tile.ct.node ∧
     2 ≤ Job.misses { jobW with stats := [{ node := 0, misses := 2 }] } s.tile.ct.node) := by decide +kernel

/-- ChannelsAndInjectedFaults: beats whose tags agree and differ, writes of FINJ that pass and that lack the right, injections of units
2, 3 and 4 that are due, and none. -/
theorem wit_injected :
    (let b (tag : BitVec 4) : Beat := { lane := 1, at_ := 1000, data := 5, tag := tag }
     let s (tag : BitVec 4) : State := stW fun t => { t with beats := [b tag] }
     (s 8).tile.beats.filter (fun b => decide (b.at_ ≤ 1000)) = [b 8] ∧
     ((BitVec.ofInt 64 (1000 + ((s 8).quad (s 8).tile.quadIndex).skewOf 3)).toNat % 16 = 8)) ∧
    (stW fun t => onCx (fun x => { x with partid := 2 ^ 10 }) t).tile.csrWriteFault 0x0F0 (4 + 2 ^ 6 + 2 ^ 21) = none ∧
    (stW id).tile.ct.cx.partid.getLsbD 10 = false ∧
    (let s (u : Nat) : State := stW (onCt fun k => { k with finj := BitVec.ofNat 64 (u + 5 * 2 ^ 6 + 9 * 2 ^ 15), finjDue := 1000 })
     (s 4).tile.ct.finjPrev = none ∧ (s 4).tile.ct.finjDue ≤ (s 4).tile.ct.now ∧ (s 4).tile.ct.finj.toNat % 8 = 4 ∧
     (s 2).tile.ct.finj.toNat % 8 = 2 ∧ (s 3).tile.ct.finj.toNat % 8 = 3 ∧ (s 3).tile.sp.soft = [] ∧ (s 0).tile.ct.finj.toNat % 8 < 2 ∧
     ∀ r ∈ (s 4).tile.ct.inflight, r.due ≠ (s 4).tile.ct.now) := by decide +kernel

/-- EnginesLandTheirEffects: a group of a plane load, the adds of a slice, the end of a multiply, a read of DXLD, a DMMA that raises
nothing and one that traps, the four landings of an x register, an unrepairable pattern. -/
theorem wit_engines :
    (let k := PendKind.planeWrite 1 383 0 2 (List.replicate 64 3) []
     let s := stW (pendW k)
     sole s PendKind.isPlaneWrite k ∧ s.tile.ct.cx.memcfg.getLsbD 4 = false ∧ s.tile.sp.wf = true ∧ s.tile.sp.lines = [] ∧
     s.tile.ct.regions = [] ∧ s.tile.banks = [] ∧ s.tile.owed = [] ∧ s.tile.lockedWord ((List.range 64).map fun i => loadByte 0 1 (64 * 383 + i)) = none) ∧
    (let k := PendKind.cimAdd 7 0 (List.replicate 384 [some (1, 0), none])
     sole (stW (pendW k)) PendKind.isAdd k ∧ (List.replicate 384 [some ((1 : Int), (0 : Int)), none]).length ≤ 384 ∧
     memWf (stW (pendW k)).tile.acc = true) ∧
    (let k := PendKind.cimEnd 16 [1, 2] none
     sole (stW (pendW k)) PendKind.isAdd k ∧
     ([1, 2].all fun f => decide (f < 32) && (List.range 5).all fun n => !(bit f n && bit 16 n)) = true) ∧
    (let k := PendKind.xRead 2 7 { valid := true, record := recW 3 64 8 false false, pos := 0 }
     sole (stW (pendW k)) PendKind.isStream k ∧ (stW (pendW k)).tile.banks = []) ∧
    (let k := PendKind.dmma 2 11 (ofLanes 64 (List.replicate 8 0x3FF0000000000000)) 0 31
     sole (stW (pendW k)) PendKind.isDmma k ∧ arithTrap 31 (dmmaUpdate {} 11 (ofLanes 64 (List.replicate 8 0x3FF0000000000000)) 0).2 = none ∧
     finjUnit (stW (pendW k)).tile.ct.finj.toNat ≠ 1 ∧ (stW (pendW k)).tile.ct.finjPrev = none) ∧
    (arithTrap 31 (dmmaUpdate {} 11 (ofLanes 64 (List.replicate 8 0x7FF0000000000000)) 0).2).isSome = true ∧
    (∀ k ∈ [PendKind.xZero 1, .xFix 1 (some (3, 5)), .xFix 1 none, .xLoad 1 .f64 [1, 2]], sole (stW (pendW k)) PendKind.isXLanding k) ∧
    sole (stW (pendW (.checksum 3 5))) PendKind.isChecksum (.checksum 3 5) := by
  unfold sole soleDue; decide +kernel

/-- SequencerTimersAct: a segment at its limit, a REP at an interval, between two and at its buffer's end, one without a buffer, and the
waits in their last cycle and before it. -/
theorem wit_timers :
    (let r (staged : Nat) (body : List (Nat × List OpWord)) : Rep := {
      op := .dmma ⟨0, 0, 1, 3⟩, interval := 4, count := 3, start := 992, body := body, after := 80, staged := staged }
     (r 0 []).start < 1000 ∧ 1000 < (r 0 []).start + (r 0 []).count * (r 0 []).interval ∧ (1000 - (r 0 []).start) % (r 0 []).interval = 0 ∧
     (1001 - (r 0 []).start) % (r 0 []).interval ≠ 0 ∧ (r 0 []).reissued ≠ 1000 ∧ (r 0 []).staged ≠ 1000 ∧
     (r 0 [(64, [1]), (68, [2])]).body[(1000 - 992 - 1) % 2]? = some (68, [2])) ∧
    (let s := stW (onSeq fun q => { q with seg := some { index := 2, count := 2 ^ 20, sig := 0 } })
     s.tile.ct.sq.seg = some { index := 2, count := 2 ^ 20, sig := 0 }) ∧
    (stW (onCt fun k => { k with run := .wait 1000 .fence })).tile.ct.run = .wait 1000 .fence ∧
    (stW (onCt fun k => { k with run := .wait 1001 .waitc })).tile.ct.run = .wait 1001 .waitc := by decide +kernel

/-! #### Engines, traps and switches -/

/-- A transfer of one raw line of engine 0: `kind` 0 into scratchpad address 4096, 1 out of it. -/
def lineW (kind : Nat) (walked : Bool) (t : Nat) : Transfer := {
  ltid := 0, desc := [BitVec.ofNat 64 kind, 0, 4096, 64, 0, 0], issue := 994, s := 994, t := t, n := 1, nd := 1, walked := walked }

/-- The module whose job has this window of engine 0. -/
def windowS (f : Job → Job) (active shadow : Option Transfer) (g : Tile → Tile) : State :=
  { stW g with jobs := [f { jobW with windows := [{ engine := 0, active := active, shadow := shadow }] }] }

/-- HuskEnginesMoveTheirLines: a walk of a mapped line and of an unmapped one of a node with one translation behind it. -/
theorem wit_walks :
    (let f (p : List Page) (j : Job) : Job := { j with pages := p, mapSet := true, stats := [{ node := 0, translations := 1 }] }
     let s (p : List Page) : State := windowS (f p) (some (lineW 0 false 1000)) none id
     let pick (j : Job) := (j.transfers.filter fun y => y.ltid == 0 && !y.done).filter fun y => !y.walked && decide (y.issue + 6 ≤ 1000)
     let pg : List Page := [{ large := true, index := 0, stack := 0, ppn := 0 }]
     (s pg).myJob.map pick = some [lineW 0 false 1000] ∧ (s pg).sramErr = [] ∧ (s pg).myJob.map (·.mapped 0) = some true ∧ dscN (lineW 0 false 1000).desc = 1 ∧
     (s []).myJob.map pick = some [lineW 0 false 1000] ∧ (s []).myJob.map (·.mapped 0) = some false ∧
     (s []).myJob.map (·.ending) = some none) := by decide +kernel

/-- HuskEnginesMoveTheirLines: a line in, an end of a transfer out, a line out; a window whose transfer is done, one whose T is missed,
before it and at it; a decrement that is due. -/
theorem wit_engineEnds :
    (let x := lineW 0 true 1000
     let s := windowS id (some x) none (onCt fun k => { k with regions := [regionW true false] })
     (s.myJob.map fun j => (j.transfers.filter fun y => y.ltid == 0 && !y.done).filter s.lineDue) = some [x] ∧
     dscKind x.desc = 0 ∧ dscXfmt x.desc = 0 ∧ x.next < x.nd ∧ dscVault x.desc = false ∧ s.tile.sp.wf = true ∧ s.tile.banks = [] ∧
     jobW.dram.soft = [] ∧ s.firstClash (fun _ => true) s.tile.banks (s.tile.spUses ((List.range 64).map (4096 + ·)) true x.issue 2 x.addr true) = none ∧
     s.tile.ct.spStaged 4096 = true ∧ s.tile.ct.spStaged 4159 = true) ∧
    (let x := lineW 1 true 1000
     let s := windowS id (some x) none id
     (s.myJob.map fun j => (j.transfers.filter fun y => y.ltid == 0 && !y.done).filter s.lineDue) = some [x] ∧ dscKind x.desc = 1 ∧
     (s.myJob.map fun j => (j.transfers.filter fun y => y.ltid == 0 && !y.done).filter s.sourceDue) = some [x] ∧
     s.tile.sp.soft = [] ∧ jobW.dram.wf = true) ∧
    (let x := lineW 0 true 1000
     let s := windowS id (some { x with done := true }) (some x) id
     (s.job? 3).map (fun j => s.windowOver 3 (j.window 0)) = some true) ∧
    (let s := windowS id (some (lineW 0 true 1001)) none id
     s.cycleOf 3 (lineW 0 true 1001) < 1001 ∧ (lineW 0 true 1001).done = false ∧ (lineW 0 true 1000).t ≤ s.tile.ct.now) ∧
    (let b : BarDue := { strand := 0, ltid := 0, space := 0, last := 4159, vault := false, baddr := 64, bytes := 64, due := some 1000 }
     let s : State := { stW id with jobs := [{ jobW with bars := [b] }] }
     s.myJob.map (fun j => j.bars.filter (·.isDue s.tile)) = some [b] ∧ s.tile.banks = []) := by decide +kernel

/-- A cause charged to the bundle that issued in cycle 980, found in cycle 990. -/
def detW (c : Cause) (silent : Bool) : Det := { cause := c, tval := 5, slot := 1, issue := 980, addr := 60, det := 990, silent := silent }

/-- The tile with that cause, in a group of one quad. -/
def chargedW (c : Cause) (silent : Bool) (t : Tile) : Tile :=
  { onCx (fun x => { x with groupsize := BitVec.ofNat 64 (1 + 2 ^ 7 + 4 * 2 ^ 14) }) t with dets := [detW c silent] }

/-- GroupsRewindAndReplay: a group halts for a class P cause, for a class R cause, and for one with a full effect log or sixteen
replays; its re-run is due and is not. -/
theorem wit_groups :
    (let s := stW (chargedW .alignment false)
     firstDet (s.groupDets s.tile) = some 990 ∧ s.tile.ct.strand = some 0 ∧ s.myJob = some jobW ∧ s.haltDue = true ∧
     replayCause (s.groupDets s.tile) = none ∧ stopIssue (s.groupDets s.tile) = some 980 ∧
     ((s.strandTiles 3 0).any fun u => u.ct.logFull || decide (256 ≤ u.ct.log.length)) = false ∧ s.strandTiles 3 0 ≠ [] ∧ s.tile.ct.isize ≠ 0 ∧ s.tile.ct.sbase % 64 = 0) ∧
    (stW (onCt fun k => { k with run := .halt (some 1000) })).tile.ct.run = .halt (some 1000) ∧
    (stW (onCt fun k => { k with run := .halt (some 1001) })).tile.ct.run = .halt (some 1001) ∧
    (let s := stW (chargedW .drift false)
     firstDet (s.groupDets s.tile) = some 990 ∧ s.haltDue = true ∧ replayCause (s.groupDets s.tile) = some .drift ∧
     ((s.strandTiles 3 0).any fun u => u.ct.logFull || decide (256 ≤ u.ct.log.length)) = false ∧ jobW.replaysOf 0 < 16 ∧
     16 ≤ Job.replaysOf { jobW with stats := [{ node := 0, replays := 16 }] } 0) ∧
    (let le : LogEntry := { code := 0x28, addr := 64, operands := [], value := some 9, offset := 0, id := 4 }
     let s := stW fun t => onCt (fun k => { k with log := List.replicate 256 le }) (chargedW .drift false t)
     s.haltDue = true ∧ replayCause (s.groupDets s.tile) = some .drift ∧
     ((s.strandTiles 3 0).any fun u => u.ct.logFull || decide (256 ≤ u.ct.log.length)) = true) := by
  decide +kernel

/-- TrapsAreTakenAndLeft: a stop with a handler and a result in flight, and one without a handler; a handler whose first bundle is due
and is not; returns with TPC as saved and with TPC changed, and one whose replay register is not sound. -/
theorem wit_traps :
    (let st : Stop := { at_ := 1000, own := some (detW .alignment false), gcode := 0x24, gsrc := 0 }
     let s := stW fun t => onCt (fun k => { k with stop := some st }) (flyW (.val 9) t)
     let u := stW fun t => onCt (fun k => { k with stop := some st }) { t with imem := memPut [] 0 (bytesOf 4 padWord.toNat) }
     s.tile.ct.stop = some st ∧ s.myJob = some jobW ∧ st.at_ ≤ s.tile.ct.now ∧ s.tile.hasHandler = true ∧
     s.tile.ct.inflight = [resW 4 (.val 9)] ∧ (resW 4 (.val 9)).y = none ∧ (resW 4 (.val 9)).dest.isS0 = false ∧
     (s.tile.ct.y.toList.all fun y => !y.valid) = true ∧ u.tile.hasHandler = false ∧ u.tile.ct.stop = some st ∧
     jobW.twin = none ∧ (∀ c : Fin 4, u.hilum.admission[c] = []) ∧ (u.hilum.ring jobW.ring).waiting.length < 1024) ∧
    (stW (onCt fun k => { k with run := .stopped 1000 })).tile.ct.run = .stopped 1000 ∧
    (stW (onCt fun k => { k with run := .stopped 1001 })).tile.ct.run = .stopped 1001 ∧
    (let y : YReg := { value := 9, byteen := 255, remain := 3, dnum := 5, dclass := 0, valid := true }
     let s (tpc : Word) (y : YReg) : State := stW (onCt fun k => { k with
       run := .resume 1000, trap := some saveW, y := k.y.set 0 y, cx := { k.cx with tpc := tpc } })
     (s 0 y).tile.ct.run = .resume 1000 ∧ (s 0 y).tile.ct.trap = some saveW ∧
     ((s 0 y).tile.ct.y.toList.all fun y => !y.valid || y.sound) = true ∧ yClash ((s 0 y).tile.ct.y.toList.filter (·.valid)) = none ∧
     ([s 0 y, s 4 y, s 0 { y with remain := 0 }].all fun s => (withTile s s.tile.returnTrap).firstClash (fun _ => true) s.tile.returnTrap.banks
       (saveW.banks.map fun b => { b with due := b.due + 1000 }) == none) = true ∧
     (∀ w ∈ [999, 1000, 1001], saveW.run ≠ .wait w .fence) ∧ (s 0 y).tile.ct.cx.tpc.toNat = saveW.seq.pc ∧ (s 4 y).tile.ct.cx.tpc.toNat ≠ saveW.seq.pc ∧
     ((s 0 { y with remain := 0 }).tile.ct.y.toList.any fun y => y.valid && !y.sound) = true) := by
  decide +kernel

/-- A FINISH, a code node of one quad, a BRANCH, a WHILE and a COLLECT. -/
def nodesW : List (List Word) := [
  [BitVec.ofNat 64 (1 * 2 ^ 20), 0, 4, 0, 0, 0, 0, 0], [BitVec.ofNat 64 (1 + 2 * 2 ^ 20), 0, BitVec.ofNat 64 (4 * 2 ^ 10), 0, 0, 0, 0, 0],
  [BitVec.ofNat 64 (2 + 2 * 2 ^ 20), 0, BitVec.ofNat 64 (4 * 2 ^ 10), 0, 0, 0, 0, 0],
  [BitVec.ofNat 64 (3 + 1 * 2 ^ 20), 0, 4, 0, 0, 0, 0, 0], [4, 0, 0, 0, 0, 0, 0, 0]]

/-- An image of those nodes that the loader takes. -/
def imageW : Image := {
  raw := [], pw := 2, ph := 3, entry := 0, pmax := 0, shares := List.replicate 24 (BitVec.ofNat 64 (8 + 2 * 2 ^ 8 + 16 * 2 ^ 32))
  sections := [{ code := bytesOf 4 0x80000000, segs := [] }], sectionOf := [0], regions := [], deferqs := [], declare := []
  nodes := nodesW, entries := [List.replicate 4 64], routes := [], data := [] }

/-- The Hilum with that image in slot 0. -/
def hilumW : Hilum := { booting := false, images := (Vector.replicate 16 {}).set 0 { image := some imageW, verified := true } }

/-- FaultsOfHandlersAndShares: a fault in a handler, a silent error, a share to reload. -/
theorem wit_handlers :
    (let d : Det := { detW .alignment false with nest := true }
     let s := stW fun t => { chargedW .alignment false t with dets := [d] }
     s.myJob = some jobW ∧ s.tile.dets = [d] ∧ d.det + treeDelay jobW.width jobW.height ≤ s.tile.ct.now ∧ d.nest = true ∧
     d.cls = .precise ∧ s.others = [] ∧ jobW.twin = none ∧ (∀ c : Fin 4, s.hilum.admission[c] = []) ∧
     (s.hilum.ring jobW.ring).waiting.length < 1024) ∧
    (let d := detW .shadowMismatch true
     let s := stW (chargedW .shadowMismatch true)
     s.tile.dets = [d] ∧ d.cls = .silent ∧ s.tile.ct.isize ≠ 0 ∧ s.others = []) ∧
    (let s : State := { stW (fun t => { t with reloadAsk := true }) with hilum := hilumW }
     s.imageOf jobW = some imageW ∧ s.tile.reloadAsk = true ∧ memWf s.tile.imem = true) := by decide +kernel

/-- ContextsLeaveAndReturn: a request at its cycle; a tile that leaves at its point, with an awaited standby context and without one, and
one that resumes; a context to stream out and one to stream in; a partition to bring back; placements that agree and differ. -/
theorem wit_contexts :
    (let s : State := { stW id with jobs := [{ jobW with preemptAt := some 0 }] }
     (s.job? 3).map (·.preemptAt) = some (some 0)) ∧
    (let o : Context := { pid := 4, isize := 8, ssize := 16 }
     let k4 : Job := { jobW with jobid := 8, pid := 4, state := .loaded }
     let s (b : Option Context) : State := { stW fun t => { onCt (fun k => { k with strand := none, run := .idle }) t with standby := b } with
       jobs := [{ jobW with preempting := true }, k4] }
     (s none).switchDue = true ∧ (s none).leavers = [(s none).tile] ∧ (s none).tile.dets = [] ∧ (s none).tile.ct.inflight = [] ∧
     (s none).tile.pend = [] ∧ (s (some o)).switchDue = true ∧ (s (some o)).awaits o = true ∧ (s (some o)).tile.ct.isize ≠ 0) ∧
    (let s := stW fun t => { onCt (fun k => { k with frozen := some saveW }) t with switchLeft := some 0 }
     s.tile.switchLeft = some 0 ∧ s.tile.ct.frozen = some saveW ∧ s.tile.ct.adrift = none) ∧
    (let o : Context := { pid := 4, isize := 8, ssize := 16 }
     let v : SavedShare := { pid := 4, imem := [], sp := {} }
     let s := stW fun t => { t with standby := some { o with pid := 5 }, streamed := [o], want := some 4 }
     let u := stW fun t => { t with ct := {}, streamed := [o], want := some 4, saved := [v] }
     let low : Job := { jobW with state := .preempted, record := [BitVec.ofNat 64 (3 + 2 ^ 15 + 2 * 2 ^ 22)] }
     let r : State := { stW (fun t => { onCt (fun k => { k with run := .out }) t with
       standby := some { o with pid := 5 }, streamed := [o], want := some 4 }) with jobs := [low] }
     s.tile.wanted = some o ∧ s.leaving s.tile = some { o with pid := 5 } ∧
     (sharesBeside (some s.tile.ct) o).isSome = true ∧ r.tile.wanted = some o ∧ r.leaving r.tile = some r.tile.ct ∧
     r.tile.standby ≠ some r.tile.ct ∧ (sharesBeside (some { o with pid := 5 }) o).isSome = true ∧
     (u.tile.want.bind fun p => u.tile.streamed.find? (·.isOf p)) = some o ∧ u.tile.standby = none ∧ u.tile.ct.isize = 0 ∧
     u.tile.saved.find? (·.pid == o.pid) = some v ∧ memWf u.tile.sp.pub = true ∧ memWf v.sp.pub = true) ∧
    (let s : State := { stW id with jobs := [{ jobW with state := .preempted }] }
     s.returner 3 (fun j => j.plan.isEmpty || (s.tiles.filter fun t => j.ltids.contains t.ltid).any (!·.holds 3)) = some { jobW with state := .preempted } ∧
     ((s.tiles.filter fun t => jobW.ltids.contains t.ltid).all (·.holds 3)) = true ∧
     (∀ c : Fin 4, s.hilum.admission[c] = [])) ∧
    (let a : Job := { jobW with endStatus := some 0, twin := some 4 }
     let b (d : List Byte) : Job := { jobW with place := 1, pid := 4, endStatus := some 0, twin := some 3, digest := d }
     let s (d : List Byte) : State := { stW id with jobs := [a, b d] }
     (s []).jobs.find? (fun j => j.jobid == a.jobid && j.place == 0 && j.endStatus.isSome) = some a ∧ (s []).twinOf a = some (b []) ∧
     a.placed = true ∧ (s [1]).twinOf a = some (b [1]) ∧ a.digest = (b []).digest ∧ a.digest ≠ (b [1]).digest) := by decide +kernel

/-- The module with that image and one record waiting in class 0. -/
def headS (j : Job) (f : Hilum → Hilum) : State := {
  jobs := [j], hilum := f { hilumW with admission := (Vector.replicate 4 []).set 0 [j.serial] } }

/-- A record of five units for that image, with 16 MiB of memory. -/
def waitingW (units : Nat) : Job := {
  jobid := 7, state := .waiting, record := [BitVec.ofNat 64 (2 ^ 15 + 2 * 2 ^ 22), BitVec.ofNat 64 (units * 2 ^ 32), 0, 0, 8, 0, 0, 0] }

/-- AdmissionTakesTheHead: a record of no units, one too long, one whose image is not there, one that waits, and one that is placed. -/
theorem wit_admission :
    ([0, 5, 65536].all fun n => let s := headS (waitingW n) id
      s.waiter 0 0 == some (waitingW n) && !s.power.hot &&
      (List.finRange 4).all fun d => s.hilum.admission[d] == if d = 0 then [0] else []) = true ∧
    (waitingW 0).units = 0 ∧ (headS (waitingW 65536) id).refusal (waitingW 65536) = some 0x10 ∧
    (headS (waitingW 5) fun h => { h with images := Vector.replicate 16 {} }).refusal (waitingW 5) = some 0x12 ∧
    (let s := headS (waitingW 5) id
     s.refusal (waitingW 5) = none ∧ s.verifiedImage (waitingW 5) = some imageW ∧
     s.placements (waitingW 5) imageW = some [(0, (0, 0))] ∧ s.memoryReady (waitingW 5) imageW [(0, (0, 0))] = true ∧
     (waitingW 5).replacing = false ∧ s.place (waitingW 5) imageW (fun _ _ => false) = some (0, 0)) := by decide +kernel

/-- The module whose job has one strand at node `n` of that image. -/
def walkS (x : Strand) (f : Tile → Tile) : State := { stW f with
  jobs := [{ jobW with refs := threeOf 100, strands := [x], jcbs := [{ expected := 1, completed := 1 }] }], hilum := hilumW }

/-- The other tiles of the job. -/
def mates : List Tile := (jobW.ltids.drop 1).map fun l => { tileW with ltid := l }

/-- A strand at a node. -/
def strandW (n : Nat) : Strand := { num := 0, node := n, ready := 90, cw := 1 }

/-- TheWalkerRunsTheGraph: a strand at a node of each kind, one of them with 64 passed; a group that has drained; a checkpoint written; a
job at its start. -/
theorem wit_walker :
    ([1, 2, 3, 4].all fun n => ((walkS (strandW n) id).readyAt 3 0 n).isSome) = true ∧
    ((walkS { strandW 1 with passed := 64 } id).readyAt 3 0 1).isSome = true ∧
    (let s := walkS (strandW 0) id
     (s.readyAt 3 0 0).isSome = true ∧ s.imageOf jobW = some imageW ∧ s.meeting jobW (nodesW.headD []) = [] ∧
     (jobW.groupLtids (nodesW.headD [])).filter (·.1 == s.tile.ltid) = [(0, 0)] ∧ s.tile.ct.isOf 3 = true) ∧
    (let s := walkS { strandW 0 with running := true } (onCt fun k => { k with run := .drain })
     let j : Job := { jobW with refs := threeOf 100, strands := [{ strandW 0 with running := true }], jcbs := [{ expected := 1, completed := 1 }] }
     s.job? 3 = some j ∧ j.strand 0 = some { strandW 0 with running := true } ∧ s.strandTiles 3 0 ≠ [] ∧
     ((s.strandTiles 3 0).all (·.drained j)) = true ∧ s.halting j = false ∧ ndNsucc (s.nodeOf j 0) = 1) ∧
    (let c (b : Bool) : Checkpoint := {
       num := 1, node := 0, at_ := 50, complete := false, digest := [], flagWord := 0, jcbs := [], strands := [], dram := [], vault := []
       tiles := [], spoiled := b }
     ({ jobW with checkpoints := [c true] } : Job).checkpoints.head?.any (·.spoiled) = true ∧
     ({ jobW with checkpoints := [c false] } : Job).checkpoints.head?.any (·.spoiled) = false ∧ jobW.rolling = none) ∧
    (let s : State := { stW id with jobs := [{ jobW with saving := true }] }
     (s.job? 3).map (·.saving) = some true ∧ (s.job? 3).map (·.migrate) = some false) ∧
    (let j : Job := { jobW with state := .loaded, loadedAt := some 3 }
     let s : State := { stW id with jobs := [j], wcyc := 5000, tick := 4, hilum := hilumW, others := mates }
     s.jobs.find? (fun j => j.pid == 3 && s.startsNow j && (j.plan.isEmpty || j.resuming)) = some j ∧ s.imageOf j = some imageW ∧
     s.tile.ct.isOf 3 = true) := by decide +kernel

/-! #### The grid, the host and the pod -/

/-- The module with these quads. -/
def quadsS (qs : List (Nat × Quad)) : State := { stW id with quads := qs, wcyc := 5120, beaconDone := false, driftDone := false }

/-- TheGridComparesItsCounts: a beacon with an armed quad and one that has slipped; the arrival of a beacon that differs; a resolution of
nothing, and one that outvotes a quad on which a node runs; crossings of either kind; a tick edge. -/
theorem wit_grid :
    (let s := quadsS [(5, { armed := [3], wskew := 3 }), (9, { dskews := [(3, 2)] })]
     s.beaconDone = false ∧ s.wcyc % 1024 = 0 ∧ hasNeighbour 5 0 = true ∧ s.mapTurn = 5 ∧ eccCorrects [1, 2, 3] = false ∧
     ([(5, [1, 2, 3])].find? fun e : Nat × List (BitVec 6) => e.1 == s.mapTurn) = some (s.mapTurn, [1, 2, 3])) ∧
    (let s : State := { quadsS [(5, { latchW := 3 })] with arrivals := [(5, 0)] }
     (5, 0) ∈ s.arrivals ∧ (s.quad 5).latchW ≠ (s.quad (quadBeyond 5 0)).latchW) ∧
    (let s := quadsS [(0, { latchW := 3, wskew := 3, findings := [⟨0, 0, 0⟩, ⟨1, 0, 0⟩] })]
     let k : Job := { jobW with startWcyc := 10 }
     s.driftDone = false ∧ (0, 72) ∈ s.pairsOf (·.kind == 0) ∧ s.outvoted 0 = some 0 ∧ k.started = true ∧ k.placed = true ∧
     s.tile.quadIndex = 0 ∧ s.tile.ltid % 4 = 0 ∧ k.ltids.contains s.tile.ltid = true ∧ s.tile.ct.isOf k.pid = true ∧
     s.tile.ct.strand ≠ none ∧ s.tile.ct.run ≠ .out ∧ ((quadsS [(9, {})]).quads.all fun e => e.2.findings.isEmpty && decide (e.2.slips ≤ 255)) = true) ∧
    isStitch 7 1 = true ∧ isStitch 0 1 = false ∧
    (let s : State := { stW id with edge := false, wcyc := 1250, tick := 2 ^ 64 - 2 }
     s.edge = false ∧ s.wcyc % 1250 = 0 ∧ s.tick < 2 ^ 64 - 1) := by decide +kernel

/-- The job in class `c` with this THR. -/
def throttledW (c thr : Nat) : Job := { jobW with record := [BitVec.ofNat 64 (c + 2 ^ 15 + 2 * 2 ^ 22), 0], thr := thr }

/-- PowerAndHeatThrottleTheJobs: a step up for the last class that is not at its limit, a wait, a step down for the first class above 0;
a pause, and a job that it ends. -/
theorem wit_power :
    (let s : State := { stW id with jobs := [throttledW 0 11, throttledW 3 12] }
     (∃ j ∈ s.jobs, j.state = .running ∧ j.cls = 0 ∧ decide (j.thrGoal < 12) = true) ∧
     (s.jobs.all fun j => j.cls == 0 || !decide (j.thrGoal < 12)) = true) ∧
    (let s : State := { stW id with jobs := [throttledW 0 0, throttledW 3 1], power := { coolSince := some 0, decided := 15 }, wcyc := 2 ^ 24 }
     (∃ j ∈ s.jobs, j.state = .running ∧ j.cls = 3 ∧ decide (0 < j.thrGoal) = true) ∧
     (s.jobs.all fun j => j.cls == 3 || !decide (0 < j.thrGoal)) = true ∧ 0 + 2 ^ 24 ≤ s.wcyc ∧ s.power.decided < s.wcyc / 2 ^ 20 ∧
     (stW id).power.coolSince = none) ∧
    (let s : State := { stW id with power := { paused := true } }
     s.power.paused = true ∧ s.jobs.filter (·.placed) = [jobW] ∧ jobW.pid < 256 ∧ jobW.twin = none ∧
     (s.hilum.ring jobW.ring).waiting.length < 1024 ∧ (∀ c : Fin 4, s.hilum.admission[c] = [])) ∧
    (let s : State := { headS (waitingW 5) id with power := { paused := true } }
     s.power.paused = true ∧ s.jobs.filter (·.placed) = [] ∧ s.waiter 0 0 = some (waitingW 5) ∧ s.power.hot = false ∧
     (waitingW 5).replacing = false ∧ (s.hilum.ring (waitingW 5).ring).waiting.length < 1024) := by decide +kernel

/-- ErrorsAreRepaired: a unit with a job on it and one without; a spare that is free and one that serves; a job that leaves, with three
rollbacks and with fewer, one that rolls back, with a checkpoint and without; a tile and a job that errors strike. -/
theorem wit_errors :
    (let s : State := { stW id with retireAsk := [1, 1000] }
     (1 : BitVec 32) ∈ s.retireAsk ∧ s.affected 1 = [jobW] ∧ jobW.placed = true ∧ jobW.replacing = false ∧ s.affected 1000 = [] ∧
     (s.quad (unitQuad 1000)).serve.findIdx? (· == 0) = some 0 ∧ (s.quad (unitQuad 1000)).quar.getLsbD 4 = false ∧
     4 ∉ (s.quad (unitQuad 1000)).serve ∧ BitVec.getLsbD (1000 : BitVec 32) 15 = false ∧ BitVec.toNat (1000 : BitVec 32) % 2 ^ 15 % 5 = 0 ∧
     4 ∈ (({ serve := [4, 1, 2, 3] } : Quad)).serve) ∧
    (let j (n : Nat) : Job := { jobW with replacing := true, rolling := some 0, rollbacks := n }
     let s (n : Nat) : State := { stW id with jobs := [j n] }
     (s 3).leaver 7 = some (j 3) ∧ (j 3).started = true ∧ (j 3).twin = none ∧ (s 2).leaver 7 = some (j 2)) ∧
    (let ck : Checkpoint := {
       num := 1, node := 0, at_ := 50, complete := true, digest := [], flagWord := 0, jcbs := [], strands := [], dram := [], vault := []
       tiles := [] }
     let j (n : Nat) (l : List Checkpoint) : Job := { jobW with rolling := some 0, rollbacks := n, checkpoints := l }
     let s (n : Nat) (l : List Checkpoint) : State := { stW id with jobs := [j n l], hilum := hilumW }
     (s 3 []).rollerOf 3 = some (j 3 []) ∧ (s 2 [ck]).rollerOf 3 = some (j 2 [ck]) ∧ (s 2 []).rollerOf 3 = some (j 2 []) ∧
     (s 2 [ck]).imageOf (j 2 [ck]) = some imageW ∧ (j 2 [ck]).checkpoints.find? (·.complete) = some ck ∧ ck.num ≤ 1) ∧
    (stW id).tile.ltid = 0 ∧ (stW id).tile.ct.isize ≠ 0 ∧ (stW id).tile.sp.soft = [] ∧ 16383 < (stW id).tile.ct.ssize * 1024 ∧
    (stW id).tile.ct.strand ≠ none ∧ (stW id).job? 3 = some jobW ∧ jobW.dram.soft = [] ∧ (stW id).regionsOf 3 = [] ∧ ((stW id).quad 5).copyErr = [] ∧
    (stW id).storeErr = [] ∧ jobW.plan = [] ∧ jobW.rolling = none := by decide +kernel

/-- A command of port 0 with these parameters. -/
def cmdW (r : RingId) (ps : List Word) (data : List Byte) : Cmd := {
  port := 0, ring := r, ctag := 5, buf := 0, params := ps, data := data, image := some imageW }

/-- The words of a submission slot: a code, SEQ, and zeros. -/
def slotW (code seq : Nat) : List Word := BitVec.ofNat 64 (code + seq * 2 ^ 16) :: List.replicate 16 0

/-- A Hilum owned by port 0 whose queue 2 is enabled and holds that slot in its first position. -/
def ownedW (ws : List Word) (waiting : List Entry) (csize : Nat) : Hilum := { hilumW with
  own := .owned 0
  queues := (Vector.replicate 16 {}).set 2 {
    enabled := true, cls := 1, stail := 1, slots := [(0, ws)], waiting := waiting, csize := csize, caddr := 4096 } }

/-- RingsCarryCommandsAndAnswers: rings with room; a position whose SEQ agrees and one whose SEQ does not; an entry that finds room and one
that finds none; an end that is due; a module that boots and a command whose port is not the owner. -/
theorem wit_rings :
    ((stW id).hilum.ring (.mgmt 1)).waiting.length < 1024 ∧
    (let s (q : Nat) : State := { stW id with hilum := ownedW (slotW 0x1C q) [] 16 }
     (s 0).onTurn (.queue 2) = true ∧ (s 9).onTurn (.queue 2) = false ∧ (s 0).slotReady (.queue 2) = true ∧
     (∀ p : BitVec 4, p ≠ 2 → (s 0).slotReady (.queue p) = false) ∧ (s 0).nextSlot (.queue 2) = some (slotW 0x1C 0) ∧ ((slotW 0x1C 0).getD 0 0).toNat / 2 ^ 16 % 2 ^ 16 = 0 ∧
     ((slotW 0x1C 0).getD 0 0).toNat % 2 ^ 16 = 0x1C ∧ (s 9).nextSlot (.queue 2) = some (slotW 0x1C 9) ∧
     ((slotW 0x1C 9).getD 0 0).toNat / 2 ^ 16 % 2 ^ 16 ≠ 0 ∧
     (((s 0).hilum.ring (.queue 2)).slots.all fun e => e.2.length == 17) = true) ∧
    (let e : Entry := ⟨List.replicate 23 0⟩
     let s (n : Nat) : State := { stW id with hilum := ownedW (slotW 0 0) [e] n }
     (s 16).nextEnd (.queue 2) = none ∧ ((s 16).hilum.ring (.queue 2)).waiting = [e] ∧ ((s 16).hilum.ring (.queue 2)).csize ≠ 0 ∧
     ((s 16).hilum.ring (.queue 2)).ctail < ((s 16).hilum.ring (.queue 2)).chead + ((s 16).hilum.ring (.queue 2)).csize ∧
     ((s 0).hilum.ring (.queue 2)).csize = 0) ∧
    (let j : Job := { jobW with ending := some (0, 0x25, 0, [0, 0, 0, 0]) }
     let s : State := { stW id with jobs := [j] }
     s.nextEnd (.queue 0) = some j ∧ j.ring = .queue 0 ∧ j.placed = true ∧ j.twin = none ∧
     (∀ c : Fin 4, s.hilum.admission[c] = []) ∧ (s.hilum.ring j.ring).waiting.length < 1024) ∧
    State.reset.hilum.booting = true ∧ (stW id).hilum.booting = false ∧ (stW id).hilum.owner 0 = false := by decide +kernel

/-- CommandsAreTurnedAway: codes of either list, and commands of either ring. -/
theorem wit_codes : mgmtCode (cmdW (.mgmt 0) [] []) 0x01 (.identify (cmdW (.mgmt 0) [] [])) ∧
    queueCode (cmdW (.queue 2) [] []) 0x1C (.setTime (cmdW (.queue 2) [] [])) ∧ (cmdW (.queue 2) [] []).ring = .queue 2 ∧
    (cmdW (.mgmt 0) [] []).ring = .mgmt 0 := by
  unfold mgmtCode queueCode; exact ⟨.inl ⟨rfl, rfl⟩, by simp, rfl, rfl⟩

/-- A queue table: queues 0 to 3 enabled, one for each class, with 16 entries at address 0. -/
def rowsW : List Byte := (List.range 16).flatMap fun q =>
  bytesOf 8 (if q < 4 then q + 4 + 16 * 2 ^ 32 else 0) ++ bytesOf 8 0

/-- OwnershipChangesHands: a good table and one that is not; an unowned, an owned and a pending module; a link that is down. -/
theorem wit_ownership :
    tableOk (tableOf rowsW) = true ∧ tableOk (tableOf []) = false ∧ (stW id).hilum.own = .unowned ∧
    (stW id).hilum.booting = false ∧
    (let c := cmdW (.mgmt 0) [] rowsW
     let h (o : Ownership) : Hilum := { hilumW with own := o, handover := some c, linkUp := (Vector.replicate 2 true).set 0 false }
     (h (.owned 0)).own = .owned c.port ∧ (h (.pending 1)).handover = some c ∧ (1 : BitVec 1) ≠ c.port ∧ c.port = 0 ∧
     ({ State.reset with inbox := [.claim c] } : State).claimsToo = true ∧ (stW id).claimsToo = false ∧
     (h (.pending 0)).own = .pending c.port ∧ (h (.owned 0)).up 0 = false) := by decide +kernel

/-- The module owned by port 0 whose only job is `j`. -/
def ownS (j : Job) : State := { stW id with jobs := [j], hilum := ownedW (slotW 0 0) [] 16 }

/-- QueriesAnswer, ImagesAndRecordsAreTaken and JobCommandsAct: jobs that a command finds and does not find, in each state that the
statements name; slots that are free, loaded and verified; a range of pages of a held job; the last unit; a WCYC to come and the
present one. -/
theorem wit_commands :
    (ownS jobW).jobOf 7 = some jobW ∧ (ownS jobW).jobOf 8 = none ∧ par (cmdW (.queue 2) [7] []) 0 = 7 ∧
    (ownS jobW).hilum.owner 0 = true ∧ (ownS jobW).hilum.booting = false ∧ jobW.state = .running ∧ jobW.ending = none ∧
    ((ownS jobW).hilum.ring (.queue 2)).cls = 1 ∧ (throttledW 2 0).cls = 2 ∧ (throttledW 1 0).cls = 1 ∧ jobW.preempting = false ∧
    jobW.preemptAt = none ∧ (ownS (waitingW 5)).jobOf 7 = some (waitingW 5) ∧
    (let j : Job := { jobW with state := .held, pages := [{ large := true, index := 0, stack := 0, ppn := 0 }] }
     (ownS j).jobOf 7 = some j ∧ j.copyOk (2 ^ 31 - 64) 64 = true ∧ memWf j.dram.pub = true) ∧
    (let j : Job := { jobW with state := .ended }
     (ownS j).jobOf 7 = some j ∧ (ownS j).slotBusy 0 = false ∧ j.p2m = 0 ∧ j.p2g = 0) ∧
    (let c := cmdW (.queue 2) [0, 0, 64, BitVec.ofNat 64 (2 ^ 63)] []
     parN c 0 < 16 ∧ 0 < parN c 2 ∧ parN c 2 ≤ 2 ^ 31 ∧ parN c 2 % 64 = 0 ∧ 2 ^ 63 ≤ parN c 3 ∧ parN c 9 = 0) ∧
    (ownS jobW).hilum.images.toList[0]? = some { image := some imageW, verified := true } ∧
    (let d := digest256 [1]
     let i : ImageSlot := { image := some imageW, digest := d }
     i.digest ≠ [] ∧ i.verified = false) ∧
    (let im : Image := { imageW with nodes := nodesW.map fun d => d.set 0 (d.getD 0 0 ||| 32) }
     imageCkpt im = true) ∧
    parN (cmdW (.queue 2) [23039] []) 0 < 23040 ∧ (ownS jobW).pod.members.length ≤ 1 ∧
    (ownS jobW).wcyc < parN (cmdW (.queue 2) [9, 5001] []) 1 ∧ parN (cmdW (.queue 2) [9, 5000] []) 1 = (ownS jobW).wcyc := by
  decide +kernel

/-- A pod of three modules in which this one is module 1. -/
def podW : Pod := { id := 1, members := [0, 1, 2], grandmaster := 0 }

/-- ThePodRunsItsJobs: ids to join and to lose; a grandmaster that is another; ports and lanes; a pod job that starts, a stream with a batch
whose cycle is past and one whose cycle is not, lines at either end of a region, and beacons that agree and differ. -/
theorem wit_pod :
    (∀ i, i < 3 → i ∈ podW.members) ∧ 3 ∉ podW.members ∧ 2 ≤ podW.members.length ∧ podW.grandmaster ≠ podW.id ∧
    podW.id ∈ podW.members ∧ (∀ m ∈ podW.members, m < 64) ∧ 2 ≠ podW.id ∧ 2 ∈ podW.members ∧ (∀ e ∈ podW.ports, e.1 ≠ 31) ∧
    (let rg : Region := { base := 4096, space := 2, staged := true, race := false, guard := false, size := 128, rcbase := 0 }
     let hil : Hilum := { hilumW with images := (Vector.replicate 16 {}).set 0 { image := some { imageW with regions := [rg] }, verified := true } }
     let e : List Word := [BitVec.ofNat 64 (2 * 2 ^ 8 + 1 * 2 ^ 14), BitVec.ofNat 64 (1 + 1 * 2 ^ 32), 0, 0]
     let j : Job := { jobW with plan := 7 :: e, refs := threeOf 2048 }
     let k : Job := { j with state := .loaded, loadedAt := some 3 }
     let s : State := { stW id with jobs := [j], pod := podW, hilum := hil }
     let u : State := { stW id with jobs := [k], pod := podW, hilum := hil, tick := 4, wcyc := 5000, others := mates }
     (u.jobs.find? fun j => j.jobid == 7 && !j.plan.isEmpty && j.state != .ended) = some k ∧ u.startsNow k = true ∧ u.tick = 4 ∧
     (s.jobs.find? fun j => j.jobid == 7 && !j.plan.isEmpty && j.state != .ended) = some j ∧ j.state = .running ∧ j.ending = none ∧ u.imageOf k = some { imageW with regions := [rg] } ∧
     s.stream (3 * 2 ^ 16) = some (j, e) ∧ strmDpod e = podW.id ∧ strmSpod e = 2 ∧ rg.space = 2 ∧ strmDreg e = 0 ∧
     4160 % 64 = 0 ∧ rg.base ≤ 4160 ∧ 4160 < rg.base + rg.size ∧
     (let b (n : Nat) : Batch := { stream := 3 * 2 ^ 16, at_ := n, lines := [(4096, 9)] }
      min (b 2032).lines.length (strmSlots e * (j.ref - (b 2032).at_) / 16) = 1 ∧ min (b 2033).lines.length (strmSlots e * (j.ref - (b 2033).at_) / 16) = 0 ∧
      [b 2048].find? (fun b => b.stream == 3 * 2 ^ 16) = some (b 2048)) ∧
     1376 + (640 + podW.fl + (16 * strmLines e + strmSlots e - 1) / strmSlots e) = j.ref ∧
     (s.jobs.find? fun j => j.jobid == 7 && j.state == .running && !j.plan.isEmpty) = some j ∧ j.podArmed = false ∧
     ((planStreams j.plan).filter s.pod.onStream) = [e] ∧ 2048 / 16 * strmSlots e = 128) := by decide +kernel

/-- PowerAndResetClearTheModule and the statements about every step: a module that boots, and states that meet the invariants in which a
step answers a next state. -/
theorem wit_invariants :
    State.reset.hilum.booting = true ∧ (∀ e ∈ State.reset.quads, e.2.fused = false) ∧ State.reset.memOk = true ∧ (stW id).memOk = true ∧
    (State.reset.hilum.own = .unowned ∧ ∀ i : Fin 16, (State.reset.hilum.queues[i]).enabled = false ∧ (State.reset.hilum.queues[i]).csize = 0) ∧
    (∀ j ∈ (stW id).jobs, j.thr ≤ 12 ∧ j.thrNext = none) ∧ (stW id).quads = [] ∧
    (match step (placed1 0x88041460) with
      | .next _ => true
      | _ => false) = true ∧ (placed1 0x88041460).memOk = true := by decide +kernel

/-! #### Bundles, loops, segments and commits; the passing of a cycle -/

/-- A result of scalar s4 in flight, of an op that issued in this cycle. -/
def flewW : Result := {
  id := 4, dest := .s 4, due := 1001, rdAt := 1001, src := .val 9, be := 255, fl := 0, issue := 1000, slot := 0 }

/-- BundlesRunTheirOpsTogether: the hypotheses of a step on a bundle of these words and ops, which a header or a prefix may lend bits. -/
def runsBundle (s : State) (ws : List OpWord) (ops : List Instr) (missing : Bool) : Bool :=
  s.inbox.isEmpty && s.power.on && (dueStep s).isNone && match aboutTo s with
  | none => false
  | some (s', s1) =>
    let q := s'.tile.ct.sq
    !s'.tile.lost && q.rep.isNone && q.reissue.isNone && q.buffer.isNone && s1.tile.curWords == ws && !ws.contains 0 &&
    (!(q.sequential && s1.tile.ct.sq.pc % 32 == 0) || (ws.headD 0).s) && decide (ws.length ≤ 4) && slotsRise ws &&
    (match ws with
    | h :: r => if h.isHeader then q.pfx.isNone && !r.isEmpty && headerOk h r.length else q.pfx.isNone || h.slot == 0
    | [] => true) &&
    ((lentTo ws q.pfx).map fun e => (match decodeOp e.1 e.2 with
      | .ok i => some i
      | .error _ => none)) == ops.map some &&
    (ops.all fun i => i.wf && !s1.tile.misplaced i) && !hasRepeat (ops.flatMap namings) && !s1.tile.charged &&
    s1.tile.segMissing ⟨ws, ops⟩ == missing && !s1.tile.isLast

/-- Ops that run one after the other without a cause, the last charging one where `charges` says so. -/
def runAll (charges : Bool) : List Instr → State → Option State
  | [], s => some s
  | i :: is, s => match exec i s with
    | .next t => if (t.tile.dets.length != s.tile.dets.length) == (charges && is.isEmpty) then runAll charges is t else none
    | _ => none

/-- BundlesRunTheirOpsTogether: a header that lends bits to a V op, a prefix before an op, a bundle without the SEG that is due, two ops of which the
second charges, and a bundle that order 7 charges; each of the collisions that order 7 finds. -/
theorem wit_bundles :
    (let h : OpWord := 0x9FE80000
     let ws : List OpWord := [h, 0x20031052, 0x40041F04]
     let s := placedCode ws 0
     let ops := [Instr.vadd ⟨3, 4, 5, 2⟩ (some 0x50), .ld ⟨4, 7, 6, 4⟩ (some 0)]
     (OpWord.isHeader h && runsBundle s ws ops false && (match aboutTo s with
       | some (_, s1) => (runAll false ops s1).isSome && (runAll false ops s1).any fun t => t.order7 none == t && t.others.isEmpty
       | none => false)) = true) ∧
    (let s := placed1 0x8E010803
     let s := withSeq s { s.tile.ct.sq with pfx := some 5 }
     runsBundle s [0x8E010803] [.addi ⟨1, 2, 3⟩ (some 5)] false = true) ∧
    (let s := placed1 0x88041460
     let s := withSeq s { s.tile.ct.sq with mustSeg := true }
     runsBundle s [0x88041460] [.add ⟨4, 5, 6, 0⟩] true = true) ∧
    (let ws : List OpWord := [0x88041460, 0x48054000]
     let s := placedCode ws 0
     let ops := [Instr.add ⟨4, 5, 6, 0⟩, .drive ⟨5, 2⟩]
     (runsBundle s ws ops false && (match aboutTo s with
       | some (_, s1) => (runAll true ops s1).isSome
       | none => false)) = true) ∧
    (let s := placed1 0x88041460
     let r : Result := { flewW with due := s.tile.c + 1, issue := s.tile.c - 2 }
     let s := withTile s (onCt (fun k => { k with inflight := [r] }) s.tile)
     (runsBundle s [0x88041460] [.add ⟨4, 5, 6, 0⟩] false && (match aboutTo s with
       | some (_, s1) => (runAll false [.add ⟨4, 5, 6, 0⟩] s1).any fun t => (t.order7 none).tile.dets.length != s1.tile.dets.length
       | none => false)) = true) ∧
    (Instr.opNumber (.add ⟨4, 5, 6, 0⟩) ≠ none ∧ (stW fun t => { t with late := [(5, 1)] }).tile.late = [(5, 1)]) ∧
    (let q : Result := { flewW with id := 1, issue := 998 }
     let r : Result := { flewW with id := 2, issue := 1000 }
     let s := stW (onCt fun k => { k with inflight := [q, r] })
     s.tile.late = [] ∧ s.tile.csrClash = none ∧ s.tile.ct.waiting = none ∧ q.due = r.due ∧ q.dest = .s 4 ∧ r.dest = .s 4) ∧
    (let rs := (List.range 17).map fun i => { flewW with id := i, dest := .s (BitVec.ofNat 6 (i + 1)) }
     let s := stW (onCt fun k => { k with inflight := rs })
     s.tile.landClash = none ∧ s.tile.resetClash = none ∧ s.tile.csrClash = none ∧ (s.tile.ct.y.toList.all fun y => !y.valid) = true ∧
     (s.tile.ct.inflight.filter (fun r => r.y.isNone && !r.dest.isS0)).length = 17) := by decide +kernel

/-- LoopsAreEnteredAndLeft: the ends of a skip and of LEXIT that are refused, END at the end of the code part; a loop whose last bundle
commits with an iteration left, one that is exhausted, and a bundle that ends none. -/
theorem wit_loopBack :
    (arrivalCause [0x00041460] 32 = some .misalignedTarget ∧ arrivalCause [0xFFC00000] 32 = some .illegalOp ∧
     codePart (stW id) ≤ 64 + 4 * ((LP.e ⟨0, 0, 4095⟩).toNat)) ∧
    (let e := loopW false
     let t := onSeq (fun q => { q with loops := [e] }) tileW
     t.ct.sq.loops = [e] ∧ t.ct.sq.target = none ∧ t.ct.sq.rep = none ∧ e.start ≤ t.ct.sq.pc ∧ t.ct.sq.pc < e.stop ∧ e.stop = 96 ∧
     e.index + 1 < e.total ∧ e.startStale = false ∧ ({ e with index := 4 } : LoopEntry).total ≤ 4 + 1) := by decide +kernel

/-- SegmentsFollowTheirBundles: an open segment, bundles that close none, that close one and that end the stream, an entry that agrees and
one that does not. SequencerMarksAndWaits: the cases in which REP is illegal. -/
theorem wit_segments :
    (let g : Seg := { index := 1, count := 3, sig := 0 }
     let t := onSeq (fun q => { q with seg := some g }) tileW
     t.ct.sq.seg = some g ∧ t.ct.sq.loops = [] ∧ opCloses (.add ⟨4, 5, 6, 0⟩) = false ∧ opCloses (.fence ⟨0, 1⟩) = false ∧ opCloses .nodeend = true ∧
     opEndsStream .nodeend = true ∧ opCloses (.ba ⟨0, 0, 0⟩) = true ∧ opEndsStream (.ba ⟨0, 0, 0⟩) = false ∧ t.segEntry 1 = 0) ∧
    (immCard 16 (I16.imm ⟨1, 0⟩).toNat none = 0 ∧ tileW.xOp = none ∧ (repTile.xOp.map fun op => decide (1 * repTile.interval op ≤ 9)) = some true ∧
     (let t := onSeq (fun q => { q with loops := [{ loopW false with start := 0, stop := 32 }] }) repTile
      ((t.bundlesFrom 1 t.afterAddr).map t.anyLast) = some true)) := by decide +kernel

/-- CommitAppliesCsrWrites: tiles with and without an update that waits, an access out of range in this cycle and in none, values of
OOBFLAG of both kinds. -/
theorem wit_commit :
    (tileW.ct.dqLate = none ∧ tileW.ct.mincLate = none ∧ (onCt (fun k => { k with mincLate := some (1001, 1) }) tileW).ct.mincLate = some (1001, 1) ∧
     (∀ o, tileW.ct.oor = some o → o.1 ≠ tileW.ct.now) ∧ BitVec.getLsbD (1 : Word) 0 = true ∧ BitVec.getLsbD (2 : Word) 0 = false) ∧
    ((onCt (fun k => { k with oor := some (1000, true, 64) }) tileW).ct.oor = some (1000, true, 64) ∧ tileW.ct.cx.guardMode = false) ∧
    (let q := (queueW 2 1 tileW).ct.cx.dqcap.toNat
     0 < q % 2 ^ 14 ∧ 2 ≤ q / 2 ^ 34 % 2 ^ 14 ∧ q / 2 ^ 34 % 2 ^ 14 + 2 < 2 ^ 14 ∧ q / 2 ^ 48 % 2 ^ 14 + 2 < 2 ^ 14) := by decide +kernel

/-- A module in which nothing is due and no tile is to issue. -/
def calmS (f : Job → Job) (g : Tile → Tile) : State := { stW fun t => g (onCt (fun k => { k with run := .idle, strand := none }) t) with
  jobs := [f { jobW with refs := threeOf 1000 }], beaconDone := true, driftDone := true, edge := true }

/-- ACyclePasses: nothing due, in a cycle that reaches the tile and in one that THR swallows; copies to read, updates that wait, and a
SET_TIME for the next cycle and for a later one. -/
theorem wit_cycle :
    (let calm (s : State) : Bool := s.inbox.isEmpty && s.power.on && (dueStep s).isNone && (nextTile s).isNone && s.tiles.all (!·.rollAsk)
     let s := calmS id id
     let u := calmS (fun j => { j with thr := 12 }) id
     let v := calmS id (onCt fun k => { k with mincLate := some (1000, 1) })
     let w := calmS id (onCt fun k => { k with dqLate := some (1000, 3, 2) })
     calm s = true ∧ reached s = true ∧ calm u = true ∧ reached u = false ∧ calm v = true ∧ reached v = true ∧ calm w = true ∧
     reached w = true ∧ s.tile.engineOor = none ∧ ({ s with timeAt := some (7, 5001) } : State).timeAt = some (7, 5001)) := by decide +kernel
/-! #### Traps of arithmetic, accesses out of range, and the values of words -/

/-- A tile with a signalling NaN in lane 1 of v1, a decimal one in lane 1 of v3, and every exception enabled. -/
def laneTrapW : State := stW (onCx fun x => { x with
  trapen := 0x1F1F, v := (x.v.set 1 (ofLanes 32 [0x3F800000, 0x7F800001])).set 3 (ofLanes 64 [0, 0x7E00000000000000]) })

/-- ConversionsDeliverTheirTarget, ComparesWriteOneConditionBit, FloatingLaneOps, LaneConversion, LaneCompares, Reductions and BlockPack: an
enabled exception of each op, and the lanes that raise it. -/
theorem wit_traps2 :
    (let s := stW fun t => onCx (fun x => { x with trapen := 0x1F1F })
       (sRegs [(1, 0x7FF8000000000000), (2, 0x7C00000000000000), (3, 0x7FF0000000000001), (4, 0x7E00000000000000)] t)
     trapsFirst s (fConvert 0 11 3 (s.tile.sN 1)).fl 0 (.binary 0) ∧ trapsFirst s ((dConvert 0 0 12 3 (s.tile.sN 2)).fl * 256) 8 (.decimal 0) ∧
     trapsFirst s (fCompare (bfmt 11) 2 (s.tile.sN 1) (s.tile.sN 3)).2 0 (.binary 0) ∧
     trapsFirst s ((dCompare 2 (s.tile.sN 2) (s.tile.sN 4)).2 * 256) 8 (.decimal 0)) ∧
    (let s := laneTrapW
     let f (i : Nat) : Nat := (fAdd (bfmt 10) 0 (lane 32 i (s.tile.v 1)) (lane 32 i (s.tile.v 1))).fl
     let g (i : Nat) : Nat := (dAdd 0 (lane 64 i (s.tile.v 3)) (lane 64 i (s.tile.v 3))).fl * 256
     laneReady s [1, 1] (some 4) 4 ∧ laneReady s [3, 3] (some 4) 8 ∧
     trapsFirst s (laneFlagSum 16 (fun _ => true) f) 0 (.binary 0) ∧ bit (f 0) 0 = false ∧ bit (f 1) 0 = true ∧
     trapsFirst s (laneFlagSum 8 (fun _ => true) g) 8 (.decimal 0) ∧ bit (g 0) 8 = false ∧ bit (g 1) 8 = true) ∧
    (let s := laneTrapW
     let c (i : Nat) : Nat := (fConvert 0 10 11 (lane 32 i (s.tile.v 1))).fl
     let p (i : Nat) : Nat := (fCompare (bfmt 10) 2 (lane 32 i (s.tile.v 1)) (lane 32 i (s.tile.v 1))).2
     let q (i : Nat) : Nat := (dCompare 2 (lane 64 i (s.tile.v 3)) (lane 64 i (s.tile.v 3))).2 * 256
     laneReady s [1, 1] none 4 ∧ laneReady s [3, 3] none 8 ∧
     trapsFirst s (laneFlagSum 8 (fun _ => true) c) 0 (.binary 0) ∧ bit (c 0) 0 = false ∧ bit (c 1) 0 = true ∧
     trapsFirst s (laneFlagSum 16 (fun _ => true) p) 0 (.binary 0) ∧ bit (p 0) 0 = false ∧ bit (p 1) 0 = true ∧
     trapsFirst s (laneFlagSum 8 (fun _ => true) q) 8 (.decimal 0) ∧ bit (q 0) 8 = false ∧ bit (q 1) 8 = true) ∧
    (let s := laneTrapW
     let a (i : Nat) : Option Nat := if i < 16 then some (lane 32 i (s.tile.v 1)) else none
     let d (i : Nat) : Option Nat := if i < 8 then some (lane 64 i (s.tile.v 3)) else none
     laneReady s [1] (some 4) 4 ∧ laneReady s [3] (some 4) 8 ∧
     trapsFirst s (treeFlags (fAdd (bfmt 10) 0) a 6 0 * 1) 0 (.binary 0) ∧ a 0 ≠ none ∧ bit (nodeFlags (fAdd (bfmt 10) 0) a 0 0 * 1) 0 = true ∧
     trapsFirst s (treeFlags (dAdd 0) d 6 0 * 256) 8 (.decimal 0) ∧ d 0 ≠ none ∧ bit (nodeFlags (dAdd 0) d 0 0 * 256) 8 = true ∧
     trapsFirst s (bqForm 7 ((List.range 16).map fun i => lane 32 i (ofLanes 32 [0x3F800001]))).2 4 (.binary 4)) := by
  unfold laneReady trapsFirst; refine ⟨?_, ?_, ?_, ?_⟩ <;> decide +kernel

/-- LoadsAndStores and GatherAndScatter: accesses out of range, a line of which half is, both modes of recording, and a first access of the
cycle. StreamFieldsAreRead: each selector, at a position and at the end. -/
theorem wit_outOfRange :
    (let s := stW (onCx fun x => { x with s := (x.s.set 1 16352).set 2 16384 })
     effective s ⟨6, 1, 3, 0⟩ none 64 % 64 ≠ 0 ∧ effective s ⟨6, 2, 3, 0⟩ none 64 % 64 = 0 ∧
     s.tile.ct.spOutRange 16376 8 = false ∧ s.tile.ct.spOutRange 16384 8 = true ∧ s.tile.ct.cx.guardMode = false ∧
     s.tile.ct.guard = none ∧ s.tile.ct.oor = none) ∧
    ((stW (onCx fun x => { x with memcfg := 1 })).tile.ct.cx.guardMode = true ∧
     (stW (onCt fun k => { k with oor := some (1000, false, 64) })).tile.ct.oor.map (·.1) = some 1000) ∧
    (let st := (stW streamsW).tile.ct.cx.rdA 2
     st.valid = true ∧ st.pos ≠ recN st.record ∧ ({ st with pos := 20 } : Stream).pos = recN st.record ∧
     (MM.off ⟨2, 2, 0, 4⟩).toNat % 8 = 4 ∧ (MM.off ⟨2, 2, 0, 5⟩).toNat % 8 = 5) := by decide +kernel

/-- ArithmeticRoundsTheExactResult and ComparesAndConversionsFollowTheValue: finite words and their values in binary64 and decimal64, a
quiet NaN, and a value that is an integer of its target's range. -/
theorem wit_values :
    (binaryValue (bfmt 11) 0x3FF0000000000000 = some 1 ∧ binaryValue (bfmt 11) 0 = some 0 ∧ decimalValue 0x31C0000000000001 = some 1 ∧
     (1 : Rat) ≠ 0) ∧
    ((bfmt 11).read 0x7FF8000000000000 = .nan false ∧ (bfmt 11).read 0x7FF0000000000001 = .nan true) ∧
    ((1 : Rat) = ((1 : Int) : Rat) ∧ intMin 3 ≤ 1 ∧ 1 ≤ intMax 3) := by decide +kernel

/-! #### More of what comes due -/

/-- PublishingSwapsTheCopies: a staged region of the vault and of DRAM with a line that the group wrote and one that another wrote. -/
theorem wit_publish :
    (let sp : Space := { pub := [(1, 7)], shadow := [(2, 9), (70, 3)], lines := [(0, 0), (1, 5)] }
     let rg (n : Nat) : Region := { base := 0, space := n, staged := true, race := false, guard := false, size := 128, rcbase := 0 }
     let s (n : Nat) (j : Job) : State := { stW (fun t => onCt (fun k => { k with regions := [rg n] }) (pendW (.publish 0) t)) with jobs := [j] }
     let u := s 1 { jobW with vault := sp }
     let v := s 2 { jobW with dram := sp }
     sp.wf = true ∧ (sp.lines.map (·.1)).Nodup ∧ sole u PendKind.isPublish (.publish 0) ∧ sole v PendKind.isPublish (.publish 0) ∧
     u.tile.hasDue PendKind.isSpWrite = false ∧ u.myJob.map u.halting = some false ∧ v.myJob.map v.halting = some false ∧
     u.tile.ct.regions[0]? = some (rg 1) ∧ v.tile.ct.regions[0]? = some (rg 2) ∧ jobW.plan = [] ∧ (rg 1).base % 64 = 0 ∧ (rg 1).size % 64 = 0) := by
  unfold sole soleDue; decide +kernel

/-- VaultBanksWindowsAndWaitsAct: windows in the vault, a BWAIT there on a live pair short of its phase, with room in its bank's list and
without, and the write of a window that advances a pair. -/
theorem wit_windows2 :
    (let k := PendKind.atomic 4 .vault 64 8 .add 1 0
     let s := stW fun t => pendW k (flyW .wait t)
     sole s PendKind.isAtomic k ∧ aloneAtBanks s ∧ s.tile.owed = [] ∧ s.tile.sp.soft = [] ∧ jobW.vault.soft = [] ∧ s.myJob = some jobW ∧
     s.tile.ct.inflight.filter (fun q => q.id == 4) = [resW 4 .wait]) ∧
    (let k := PendKind.barrier 4 .vault 64 .bwait 1
     let j : Job := { jobW with vault := { pub := memPut [] 64 (bytesOf 8 (2 ^ 63)) } }
     let s (arms : List Arm) : State := { stW fun t => pendW k (flyW .wait t) with jobs := [j], arms := arms }
     let a : Arm := { armW none with space := .vault, owner := 3, addr := 64, ltid := 1 }
     sole (s []) PendKind.isBarrier k ∧ aloneAtBanks (s []) ∧ j.vault.soft = [] ∧ waitOver (windowReads true (s []) 64 8) 1 = false ∧
     (s []).others = [] ∧ 64 ≤ ((List.replicate 64 a).filter fun b => b.space == .vault && b.owner == 3 && b.bank == vaultBank 64).length ∧
     ((s []).arms.filter fun b => b.space == .vault && b.owner == 3 && b.bank == vaultBank 64).length < 64) ∧
    (let k := PendKind.outWrite .sp (cellsAt 64 (bytesOf 8 1)) (some (0, 64, 2 ^ 63 + 1))
     let s : State := { stW (pendW k) with arms := [armW none] }
     sole s PendKind.isSpWrite k ∧ s.tile.lockedWord ((cellsAt 64 (bytesOf 8 1)).map (·.1)) = none ∧ s.tile.sp.wf = true ∧
     ((cellsAt 64 (bytesOf 8 1)).map (·.1)).Nodup ∧ s.tile.ct.spStaged 64 = false ∧ s.tile.ct.regions = [] ∧ s.tile.sp.lines = [] ∧
     (armW none).phase = 3 ∧ waitOver (2 ^ 63 + 3) 3 = true) := by
  unfold sole soleDue aloneAtBanks; decide +kernel

/-- CommonsAndPromises: a request that met a race while its context was out. -/
theorem wit_raced :
    (let r : CReq := { reqW 0 0 none with raced := some 5, issue := 900 }
     let s := reqState r
     (s.commons.flatMap (·.queue)).filter (·.toRaise s.tile) = [r] ∧ r.raced = some 5 ∧
     (s.commons.all fun c => c.queue.all fun q => !q.late s.tile s.wcyc) = true) ∧
    (let r := reqW 0 0 none
     ((reqState r).commons.flatMap (·.queue)).filter (·.toRaise (reqState r).tile) = []) := by decide +kernel

/-- EnginesLandTheirEffects: a group of a plane load from the scratchpad and from the vault with a tile that joins it, the parts of a slice with
.pip and a slice without, groups of CACCST in both formats and of DXST, ends of a command that trap on a flag, on ACC_SAT and not. -/
theorem wit_engines2 :
    (let st := (streamsW tileW).ct.cx.rdA 2
     let k (vault : Bool) : PendKind := .planeRead vault 1 2 0 st 0
     let q : Pend := { due := 1700, kind := .planeJoin 1 2 8, issue := 995, slot := 3 }
     let s (vault : Bool) : State := { stW (pendW (k vault)) with others := [{ tileW with ltid := 1, pend := [q] }] }
     sole (s false) PendKind.isStream (k false) ∧ sole (s true) PendKind.isStream (k true) ∧
     ((s true).others.all fun v => v.ltid / 4 == (s true).tile.ltid / 4 && v.sameGroup (s true).tile) = true ∧
     ((s false).others.map (·.pend)) = [[q]]) ∧
    (let run (pip : Bool) : CimRun := {
       row0 := 0, rows := [0], wa := 7, w := 2, planes := 1, pip := pip, strm := (streamsW tileW).ct.cx.rdA 2, baseRow := 0, accmode := 0, key := 1, ctr := 0 }
     let s (k : PendKind) : State := stW (pendW k)
     sole (s (.cimSlice (run true) 0 2 (List.replicate 32 0))) PendKind.isStream (.cimSlice (run true) 0 2 (List.replicate 32 0)) ∧
     sole (s (.cimSlice (run true) 0 3 (List.replicate 48 0))) PendKind.isStream (.cimSlice (run true) 0 3 (List.replicate 48 0)) ∧
     sole (s (.cimSlice (run false) 0 0 [])) PendKind.isStream (.cimSlice (run false) 0 0 []) ∧ 0 < (run true).wa ∧
     (s (.publish 0)).tile.ct.cx.memcfg.getLsbD 4 = false) ∧
    (let st := (engineW tileW).ct.cx.rdA 2
     let k := PendKind.accStore 0 1 0 st 0 0
     let x := PendKind.xStore 0 st (List.replicate 16 5)
     sole (stW (pendW k)) PendKind.isStream k ∧ sole (stW (pendW x)) PendKind.isStream x ∧ arithTrap 0 (List.replicate 16 0) = none ∧
     (arithTrap 31 [0, 16]).isSome = true ∧ 64 / recZ st.record = 16 ∧ (List.replicate 16 5).length = 16) ∧
    (let k (te : Word) (fl : List Nat) (sat : Option (Nat × Nat)) : PendKind := .cimEnd te fl sat
     sole (stW (pendW (k 16 [0, 16] none))) PendKind.isAdd (k 16 [0, 16] none) ∧
     sole (stW (pendW (k 0x2000 [0] (some (3, 9))))) PendKind.isAdd (k 0x2000 [0] (some (3, 9))) ∧
     (bit (([0, 16] : List Nat).getD 1 0) 4 && bit 16 4) = true ∧ bit (([0, 16] : List Nat).getD 0 0) 4 = false ∧ bit 0x2000 13 = true ∧
     ([0, 16].all fun f => decide (f < 32) && (List.range 4).all fun n => !(bit f n && bit 16 n)) = true) := by
  unfold sole soleDue; decide +kernel
/-! #### More of traps, switches, the walker, the host and the pod -/

/-- TrapsAreTakenAndLeft: a return to a FENCE wait. GroupsRewindAndReplay: a DRIFT beside a cause found before it. -/
theorem wit_traps3 :
    (let v : TrapSave := { saveW with run := .wait 1040 .fence }
     let s := stW (onCt fun k => { k with run := .resume 1000, trap := some v })
     s.tile.ct.run = .resume 1000 ∧ s.tile.ct.trap = some v ∧ s.tile.ct.cx.tpc.toNat = v.seq.pc ∧
     (s.tile.ct.y.toList.all fun y => !y.valid) = true ∧ (withTile s s.tile.returnTrap).firstClash (fun _ => true) s.tile.returnTrap.banks [] = none) ∧
    (let s := stW fun t => { chargedW .ueReplay false t with dets := [detW .ueReplay false, { detW .drift false with det := 991 }] }
     s.haltDue = true ∧ replayCause (s.groupDets s.tile) = some .ueReplay ∧ ((s.groupDets s.tile).any fun e => e.2.cause == .drift) = true ∧
     firstDet (s.groupDets s.tile) = some 990) := by decide +kernel

/-- ContextsLeaveAndReturn: a job that stood aside before its start; placements whose job has pages that it kept. -/
theorem wit_aside :
    (let j : Job := { jobW with state := .loaded, aside := true }
     let s : State := { stW id with jobs := [j] }
     s.returner 3 (fun j => j.plan.isEmpty || (s.tiles.filter fun t => j.ltids.contains t.ltid).any (!·.holds 3)) = some j ∧
     ((s.tiles.filter fun t => j.ltids.contains t.ltid).all (·.holds 3)) = true) ∧
    (let a : Job := { jobW with endStatus := some 0, twin := some 4, serial := 1, kept := [{ large := true, index := 0, stack := 0, ppn := 9 }] }
     let b : Job := { jobW with place := 1, pid := 4, endStatus := some 0, twin := some 3, digest := [1], serial := 1 }
     let s : State := { stW id with jobs := [a, b] }
     s.twinOf a = some b ∧ s.jobs.filter (·.same a) = [a] ∧ a.digest ≠ b.digest) := by decide +kernel

/-- TheWalkerRunsTheGraph: a node with three successors, where strands are free and where all sixteen are in use; a checkpoint of a job
that runs alone whose write was spoiled. -/
theorem wit_walker2 :
    (let d : List Word := [BitVec.ofNat 64 (3 * 2 ^ 20), 0, 4, 0, 0, 0, 0, 0]
     let im : Image := { imageW with nodes := [d] }
     let hil : Hilum := { hilumW with images := (Vector.replicate 16 {}).set 0 { image := some im, verified := true } }
     let x : Strand := { strandW 0 with running := true }
     let s (xs : List Strand) : State := { walkS x (onCt fun k => { k with run := .drain }) with
       jobs := [{ jobW with refs := threeOf 100, strands := x :: xs }], hilum := hil }
     let many := (List.range 15).map fun n => { strandW 0 with num := n + 1, ready := 2 ^ 40 }
     ((s []).job? 3).map (fun j => (decide (ndNsucc ((s []).nodeOf j 0) = 3), (s []).halting j, ((List.range 16).filter fun m => j.strands.all (·.num != m)).length)) =
       some (true, false, 15) ∧
     ((s many).job? 3).map (fun j => ((List.range 16).filter fun m => j.strands.all (·.num != m)).length) = some 0 ∧
     ((s []).strandTiles 3 0).length = 1 ∧ (((s []).job? 3).map fun j => ((s []).strandTiles 3 0).all (·.drained j)) = some true) ∧
    (let ck : Checkpoint := {
       num := 1, node := 0, at_ := 50, complete := false, digest := [], flagWord := 0, jcbs := [], strands := [], dram := [], vault := []
       tiles := [] }
     let j : Job := { jobW with saving := true, ckNum := 1, checkpoints := [ck] }
     ({ stW id with jobs := [j] } : State).job? 3 = some j ∧ j.twin = none ∧ j.plan = [] ∧ (j.checkpoints.head?.any (·.spoiled)) = false ∧
     ({ j with migrate := true } : Job).migrate = true) := by decide +kernel

/-- CommitsAndGrids: a beacon in flight that names a partition on both quads; a copy of the map beyond repair; a hot module. -/
theorem wit_grid2 :
    (let s : State := { quadsS [(5, { latchC := [(3, 2)] })] with arrivals := [(5, 0)], beaconSlots := [(quadBeyond 5 0, [3])] }
     (5, 0) ∈ s.arrivals ∧ 3 ∈ s.named (quadBeyond 5 0) ∧ (s.quad 5).latchOf 3 ≠ (s.quad (quadBeyond 5 0)).latchOf 3) ∧
    (let s := quadsS [(5, { copyErr := [(5, [1, 2, 3])] })]
     s.beaconDone = false ∧ s.mapTurn = 5 ∧ (s.quad 5).copyErr.find? (·.1 == 5) = some (5, [1, 2, 3]) ∧ eccCorrects [1, 2, 3] = false ∧ (s.quad 5).state = 0) ∧
    (({ stW id with power := { hot := true } } : State).power.hot = true) := by decide +kernel

/-- QueriesAnswer, ImagesAndRecordsAreTaken and JobCommandsAct: parameters of each refusal, a slot that a job names, an ended job that RESTORE
takes in either mode and with DUAL, jobs to cancel in each state, a quad to retire, and a pod in which the time is not set. -/
theorem wit_commands2 :
    (let c (ps : List Word) := cmdW (.queue 2) ps []
     onQueue (ownS jobW) (c []) ∧ 16 ≤ parN (c [16]) 0 ∧ parN (c [0, 0, 0]) 2 = 0 ∧ 2 ^ 31 < parN (c [0, 0, 2 ^ 31 + 64]) 2 ∧ parN (c [0, 0, 5]) 2 % 64 ≠ 0 ∧
     (ownS jobW).jobs = [jobW] ∧ jobW.state ≠ .ended ∧ jobW.imageNo = 0 ∧ parN (c [0, 0, 64]) 0 = 0 ∧
     (digest256 [1] ≠ wordBytes (((c [0, 1, 2, 3, 4]).params.drop 1).take 4)) ∧ parN (c [BitVec.ofNat 64 (2 ^ 15 + 5 * 7 + 3)]) 0 = 2 ^ 15 + 5 * 7 + 3) ∧
    (let ck : Checkpoint := {
       num := 1, node := 0, at_ := 50, complete := true, digest := [], flagWord := 0, jcbs := [], strands := [], dram := [], vault := []
       tiles := [] }
     let j : Job := { jobW with state := .ended, checkpoints := [ck] }
     let c (m : Word) := cmdW (.queue 2) ([7] ++ jobW.record ++ [0, 0, 0, 9, 0, m]) []
     let new (m : Word) : Job := { jobid := par (c m) 7, record := (List.range 8).map fun i => par (c m) (1 + i) }
     (ownS j).jobOf (par (c 0) 0) = some j ∧ j.p2m = (new 0).p2m ∧ j.p2g = (new 0).p2g ∧ j.imageNo = (new 1).imageNo ∧ j.width = (new 1).width ∧
     j.height = (new 1).height ∧ j.checkpoints = [ck] ∧ ck.complete = true ∧ parN (c 0) 9 = 0 ∧ parN (c 1) 9 = 1 ∧ 1 < parN (c 2) 9 ∧
     (new 0).dual = false ∧ ({ new 0 with record := [BitVec.ofNat 64 (2 ^ 2)] } : Job).dual = true) ∧
    (let p (j : Job) (c : Word) : Bool := (ownS j).jobOf c == some j
     p { jobW with state := .preempted } 7 = true ∧ p { jobW with state := .held } 7 = true ∧ p { jobW with state := .ended } 7 = true ∧
     p (waitingW 5) 7 = true ∧ jobW.twin = none ∧ jobW.plan = [] ∧ (throttledW 1 0).cls ≤ ((ownS jobW).hilum.ring (.queue 2)).cls) ∧
    (1 < ({ ownS jobW with pod := podW } : State).pod.members.length) := by
  unfold onQueue; decide +kernel

/-- A job of the pod with this stream entry, and the module that holds it. -/
def podJobW (e : List Word) (f : Job → Job) : Job := f { jobW with plan := 7 :: e, refs := threeOf 2048 }

/-- The module in the pod with that job. -/
def podS (j : Job) (f : Pod → Pod) : State := { stW id with jobs := [j], pod := f podW, hilum := hilumW }

/-- ThePodRunsItsJobs: a member whose loss ends a running, a loaded, a held and a waiting job; a port that carries no stream, one whose
stream has an alternate that works and one whose stream has none; a count that sends a beacon; a checkpoint that is newer than the common
one. -/
theorem wit_pod2 :
    (let j (st : JobState) := podJobW [] fun j => { j with state := st, jobid := 7 }
     ([JobState.running, .loaded, .held, .waiting].all fun st => bit ((j st).plan.getD 0 0).toNat 2 &&
       (podS (j st) id).podJobs.filter (fun j => bit (j.plan.getD 0 0).toNat 2) == [j st]) = true ∧ (j .running).place = 0 ∧ (2 : Nat) ≠ podW.id ∧
     2 ∈ podW.members ∧ (j .waiting).replacing = false ∧ ((podS (j .waiting) id).hilum.ring (j .waiting).ring).waiting.length < 1024) ∧
    (let e (v : Nat) : List Word := [BitVec.ofNat 64 (1 * 2 ^ 8 + 2 * 2 ^ 14 + 5 * 2 ^ 28 + 6 * 2 ^ 33 + v * 2 ^ 38), BitVec.ofNat 64 (1 + 2 ^ 32), 0, 0]
     let j (v : Nat) := podJobW (e v) id
     ([0, 1].all fun v => (podS (j v) id).podJobs == [j v] && (planStreams (j v).plan).filter (fun f => podW.carries 5 f ((j v).portOf f)) == [e v] &&
       (planStreams (j v).plan).filter (fun f => podW.carries 9 f ((j v).portOf f)) == []) = true ∧
     strmSpod (e 1) = podW.id ∧ (j 1).portOf (e 1) = 5 ∧ strmAltv (e 1) = true ∧ strmAlt (e 1) ≠ 5 ∧ podW.works (strmAlt (e 1)) = true ∧
     strmAltv (e 0) = false ∧ (j 0).rolling = none ∧ (j 0).ending = none ∧ (podS (j 1) id).delivers (j 1) = true ∧ (j 1).ref % 1024 = 0) ∧
    (let ck : Checkpoint := {
       num := 1, node := 0, at_ := 50, complete := true, digest := [], flagWord := 0, jcbs := [], strands := [], dram := [], vault := []
       tiles := [] }
     let j := podJobW [] fun j => { j with checkpoints := [ck], thrAsk := 3, thrAskAt := some 900 }
     (podS j id).jobs.find? (fun j => j.jobid == 7 && !j.plan.isEmpty && j.state != .ended) = some j ∧ j.podNum < 1 ∧ ck.num = 1 ∧ j.thrAsk ≤ 12 ∧
     j.preempting = false ∧ ({ podS j id with wcyc := 5000 } : State).wcyc % 1250 = 0 ∧ (podS j id).wcyc = 5000 ∧ ({ podS j id with wcyc := 5001 } : State).wcyc % 1250 ≠ 0) ∧
    (let e : List Word := [BitVec.ofNat 64 (2 * 2 ^ 8 + 1 * 2 ^ 14), BitVec.ofNat 64 (1 + 2 ^ 32), 0, 0]
     let j := podJobW e fun j => { j with podArmed := true }
     let s := podS j fun p => { p with ports := [(4, { peer := some (2, 0) })] }
     s.jobs.find? (fun k => k.jobid == 7 && k.state == .running && !k.plan.isEmpty) = some j ∧ j.lead = some 0 ∧ s.pod.id = 1 ∧
     s.pod.carries 4 e (j.portOf e) = true ∧ ({ s with pod := { s.pod with ports := [(4, { peer := some (0, 0) })] } } : State).pod.beyond 4 = some 0 ∧
     s.tile.ct.isOf j.pid = true) := by decide +kernel

/-! ### The manual's worked examples -/

/-- The state after the op of this word, issued alone with these extension bits. -/
def ranWord (w : OpWord) (x : Ext) (s : State) : Option State :=
  match decodeOp w x with
  | .ok i => match exec i s with
    | .next t => some t
    | _ => none
  | .error _ => none

/-- The result that the op put in flight: its cycle, its value and its flags. -/
def ranResult (w : OpWord) (x : Ext) (s : State) : Option (Nat × Nat × Nat) :=
  (ranWord w x s).bind fun t => t.tile.ct.inflight.getLast?.bind fun r => match r.src with
    | .val v => some (r.due, v.toNat, r.fl.toNat)
    | _ => none

/-- R87: 1.50 + 2.5, 1.50 × 2.5, and 1 / 3, which is inexact. -/
theorem test_decimalSums :
    dAdd 0 (dPack false 150 (-2)) (dPack false 25 (-1)) = ⟨dPack false 400 (-2), 0⟩ ∧
    dMul 0 (dPack false 150 (-2)) (dPack false 25 (-1)) = ⟨dPack false 3750 (-3), 0⟩ ∧
    dDiv 0 (dPack false 1 0) (dPack false 3 0) = ⟨dPack false 3333333333333333 (-16), 16⟩ := by decide +kernel

/-- R89: 10^17, a number of 17 digits, and binary64 0.75 and 0.1 in decimal64. -/
theorem test_decimalConversions :
    dConvert 0 0 3 12 (10 ^ 17) = ⟨dPack false (10 ^ 15) 2, 0⟩ ∧
    dConvert 0 0 3 12 12345678901234567 = ⟨dPack false 1234567890123457 1, 16⟩ ∧
    dConvert 0 0 11 12 0x3FE8000000000000 = ⟨dPack false 75 (-2), 0⟩ ∧
    dConvert 0 0 11 12 0x3FB999999999999A = ⟨dPack false (10 ^ 15) (-16), 16⟩ := by decide +kernel

/-- R123: 2.675 quantized to hundredths. -/
theorem test_decimalQuantize : dQuant 0 (dPack false 2675 (-3)) (dPack false 1 (-2)) = ⟨dPack false 268 (-2), 16⟩ := by
  decide +kernel

/-- R99: the sixteen values 3.0, -0.5, 0.2, 0.15 and twelve zeros in BQ5. -/
theorem test_blockFormation :
    let r := bqForm 4 ([0x40400000, 0xBF000000, 0x3E4CCCCD, 0x3E19999A] ++ List.replicate 12 0)
    r.1.bytes 4 = [0x60, 0x90, 0x14, 0x0C] ++ List.replicate 12 0x04 ∧ r.1.scale = 0xFE80 ∧ r.2 = 16 := by decide +kernel

/-- R96: the block's bytes in DRAM read back as the block. -/
theorem test_blockPacking :
    bqPacked 4 (ofBytes ([0x80, 0xFE, 0x4C, 0x8A] ++ List.replicate 8 0)) =
      (bqForm 4 ([0x40400000, 0xBF000000, 0x3E4CCCCD, 0x3E19999A] ++ List.replicate 12 0)).1 := by decide +kernel

/-- R103, R124: VRADD.f32 over 2^24, 1, 1 and 1 gives 2^24 + 2, with inexact. -/
theorem test_reductionTree :
    (ranResult (wordFor true (.vradd ⟨2, 1, 0, 10⟩ (some 0x48))) (some 0x48)
      (stW (onCx fun x => { x with
        v := x.v.set 1 (ofLanes 32 ([0x4B800000, 0x3F800000, 0x3F800000, 0x3F800000] ++ List.replicate 12 0x3F800000))
        k := x.k.set 1 15 }))).map (·.2) = some (0x4B800001, 16) := by decide +kernel

/-- R176: LIMM and, after a prefix, LINS put binary64 0.75 into s5. -/
theorem test_loadImmediate :
    ranResult 0x8FC50000 none (stW id) = some (1001, 0, 0) ∧
    ranResult 0x90053FE8 (some 3) (stW id) = some (1001, 0x3FE8000000000000, 0) := by decide +kernel

/-- The operands of the coupon: s3, s4, s5 and s6. -/
def couponW (den : Word) (t : Tile) : Tile := onCx (fun x => { x with trapen := den }) (sRegs [
  (3, 0x312000000041EEC0), (4, 0x318000000001E240), (5, 0x3160000000000023), (6, 0x3180000000000001)] t)

/-- R180: the coupon: a product after ten cycles, exact, and its rounding to hundredths after six, inexact. -/
theorem test_coupon :
    ranResult 0x94831050 none (stW (couponW 0)) = some (1010, 0x312000000041EEC0, 0) ∧
    ranResult 0x95470C60 none (stW (couponW 0)) = some (1006, 0x31800000000010E1, 16 * 256) := by decide +kernel

/-- R180, R93: with its trap enabled the DQUANT delivers nothing and charges cause 1C. -/
theorem test_couponTraps :
    (ranWord 0x95470C60 none (stW (couponW 0x1F00))).map (fun t =>
      (t.tile.ct.inflight.length, t.tile.dets.map fun d => (d.cause.code, d.tval))) = some (0, [(0x1C, 0x100000)]) := by decide +kernel

/-- R156: with ROTB 0 v24 is itself, with ROTB 7 v25 is v24, and with ROTB 5 v24 is v29. -/
theorem test_rotation :
    Ctx.phys { rotb := 0 } 24 = 24 ∧ Ctx.phys { rotb := 7 } 25 = 24 ∧ Ctx.phys { rotb := 5 } 24 = 29 := by decide +kernel

/-- R200: address 0x1000 lies in bank 128. -/
theorem test_bank : spBank 0x1000 = 128 := by decide

/-- The record of three overlapping rows (R222). -/
def overlapW : Vec := ofLanes 64 [0x0000040A00001000, 0x0000000300000010, 0, 0x0000002000000004, 0, 0, 0, 0]

/-- R222: its groups begin at 0x1000, 0x1020 and 0x1040, and there are 48 elements. -/
theorem test_overlappingRows :
    (List.range 3).map (fun g => (recAddr overlapW (16 * g), recAddr overlapW (16 * g + 15))) =
      [(0x1000, 0x103C), (0x1020, 0x105C), (0x1040, 0x107C)] ∧ recN overlapW = 48 ∧ recZ overlapW = 4 := by decide +kernel

/-- R221: the naming of a3 before it is valid, and beyond its end. -/
theorem test_streamFaults :
    let run (valid : Bool) (pos : Nat) := (ranWord 0xA8028C4A none (stW (onCx fun x => { x with
      a := x.a.set 3 { valid := valid, record := overlapW, pos := pos } }))).map fun t => t.tile.dets.map fun d => (d.cause, d.tval)
    (run false 0).map (·.map (·.1)) = some [.shapeFault] ∧ run true 48 = some [(.streamExhausted, 0x0000003000000003)] ∧
    run true 16 = some [] := by decide +kernel

/-- R267, R318: the tree delay of 16 × 8 quads; R101: σ of λ = 0xEC is 215 × 2^-9. -/
theorem test_delays : treeDelay 16 8 = 48 ∧ sigmaTable.getD (0xEC % 16) 0 = 215 := by decide

end Sys2Proof.Tests
end

section
/-!
The passing of a cycle: what it leaves of DQCAP, what a pulse reaches, and what it does on a tile, to a job and to the module.
-/
namespace Sys2Proof.Machine
open Sys2Proof.Safety

/-! ### DQCAP (R129) -/

/-- DQCAP holds each field as given: CAP and HEAD where they fit, COUNT and HELD where both do. -/
theorem dqMake_fields {cap head : Nat} (hcap : cap < 2 ^ 14) (hhead : head < 2 ^ 14) (wide : Bool) (count held : Nat) :
    let r := (dqMake cap wide head count held).toNat
    r % 2 ^ 14 = cap ∧ r / 2 ^ 16 % 2 = wide.toNat ∧ r / 2 ^ 20 % 2 ^ 14 = head ∧
    (count < 2 ^ 14 → held < 2 ^ 14 → r / 2 ^ 34 % 2 ^ 14 = count ∧ r / 2 ^ 48 % 2 ^ 14 = held) := by
  simp only [dqMake, BitVec.toNat_ofNat]
  cases wide <;> simp only [Bool.toNat_true, Bool.toNat_false, if_true, Bool.false_eq_true, if_false] <;> omega

/-- HEAD moves on modulo CAP and stays inside its field (R133). -/
theorem dqUpdate_head_lt (x pull : Nat) : (if dqCap x = 0 then dqHead x else (dqHead x + pull) % dqCap x) < 2 ^ 14 := by
  have hcap : dqCap x < 2 ^ 14 := Nat.mod_lt _ (by decide)
  split
  · exact Nat.mod_lt _ (by decide)
  · next h => exact (Nat.mod_lt _ (by omega)).trans hcap

/-- The update of VDEFER and VDRAIN moves the queue as R132 and R133 say. -/
theorem queueMoved_dqUpdate (w : Word) (push pull : Nat) : queueMoved w.toNat (dqUpdate w push pull).toNat push pull := by
  obtain ⟨hcap, hwide, hhead, hrest⟩ := dqMake_fields (cap := dqCap w.toNat) (Nat.mod_lt _ (by decide))
    (dqUpdate_head_lt w.toNat pull) (dqWide w.toNat) (dqCount w.toNat + push - pull) (dqHeld w.toNat + pull)
  refine ⟨hcap.trans (by simp [dqCap, bits]), hwide.trans ?_, fun pos => hhead.trans ?_, fun hle hlt hheld => ?_⟩
  · simp only [dqWide, bit]
    rcases Nat.mod_two_eq_zero_or_one (w.toNat / 2 ^ 16) with h | h <;> rw [h] <;> rfl
  · have ne : dqCap w.toNat ≠ 0 := by simp only [dqCap, bits]; omega
    rw [if_neg ne]; simp [dqCap, dqHead, bits]
  · have hc : dqCount w.toNat = w.toNat / 2 ^ 34 % 2 ^ 14 := rfl
    have hh : dqHeld w.toNat = w.toNat / 2 ^ 48 % 2 ^ 14 := rfl
    obtain ⟨count, held⟩ := hrest (by omega) (by omega)
    exact ⟨by rw [dqUpdate, count]; omega, by rw [dqUpdate, held, hh]⟩

/-! ### What a pulse reaches (R303, R306, R315) -/

theorem reversed4_eq_rev4 (n : Nat) : reversed4 n = rev4 (n % 16) := by simp only [reversed4, rev4]; omega

theorem delivers_eq_pulsed (s : State) (j : Job) : s.delivers j = pulsed s j := by
  simp [State.delivers, State.pulses, pulsed, reversed4_eq_rev4]

theorem live_eq_reached (s : State) : s.live s.tile = reached s := by
  unfold State.live reached State.myJob
  cases s.job? s.tile.ct.pid <;> simp [Context.full, delivers_eq_pulsed]

/-! ### The passing of a cycle on a tile (R305, R306) -/

theorem startMove_frame (s : State) (t : Tile) : ∃ m, s.startMove t = { t with moveAt := m } := by
  unfold State.startMove
  split
  · split
    · exact ⟨_, rfl⟩
    · generalize sharesBeside _ _ = shares
      split <;> exact ⟨_, rfl⟩
  · exact ⟨_, rfl⟩

theorem noteCorrected_frame (t : Tile) (w : Nat) : ∃ n c, t.noteCorrected w = { t with corrSeen := n, corrAt := c } := by
  unfold Tile.noteCorrected
  split <;> exact ⟨_, _, rfl⟩

theorem switching_frame (s : State) (t : Tile) : ∃ n, s.switching t = { t with switchLeft := n } := by
  unfold State.switching
  split
  · dsimp only; split <;> exact ⟨_, rfl⟩
  · exact ⟨_, rfl⟩

/-- An access out of range is recorded in the context alone (R210, R211). -/
theorem outOfRange_frame (t : Tile) (vault : Bool) (a : Nat) :
    ∃ o g x, t.outOfRange vault a = { t with ct := { t.ct with oor := o, guard := g, cx := x } } := by
  cases ho : t.ct.oor <;> simp only [Tile.outOfRange, ho] <;> repeat' split
  all_goals exact ⟨_, _, _, rfl⟩

theorem engineRecord_frame (t : Tile) :
    ∃ e o g x, t.engineRecord = { t with engineOor := e, ct := { t.ct with oor := o, guard := g, cx := x } } := by
  unfold Tile.engineRecord
  split
  · next v a _ =>
    obtain ⟨o, g, x, h⟩ := outOfRange_frame t v a
    exact ⟨none, o, g, x, by rw [h]⟩
  · exact ⟨_, _, _, _, rfl⟩

theorem engineRecord_of_none {t : Tile} (h : t.engineOor = none) : t.engineRecord = t := by
  unfold Tile.engineRecord; rw [h]

theorem lateUpdates_frame (t : Tile) :
    ∃ x d m, t.lateUpdates = { t with ct := { t.ct with cx := x, dqLate := d, mincLate := m } } := by
  unfold Tile.lateUpdates
  rcases t.ct.dqLate with _ | ⟨c, push, pull⟩
  case' some => by_cases hc : c ≤ t.c <;> simp only [hc, if_true, if_false]
  case' none => dsimp only
  all_goals
    split
    · split <;> exact ⟨_, _, _, rfl⟩
    · exact ⟨_, _, _, rfl⟩

/-! #### The updates that a CSRW held for a cycle (R17) -/

section
variable {t : Tile}

theorem lateUpdates_of_none (hd : t.ct.dqLate = none) (hm : t.ct.mincLate = none) : t.lateUpdates = t := by
  simp [Tile.lateUpdates, hd, hm]

theorem lateUpdates_of_minc {c m : Nat} (hd : t.ct.dqLate = none) (hm : t.ct.mincLate = some (c, m)) (hc : c ≤ t.ct.now) :
    t.lateUpdates = { t with ct := { t.ct with
      mincLate := none, cx := { t.ct.cx with pipmemb := pipmembNext t.ct.cx.pipmemb m } } } := by
  simp [Tile.lateUpdates, hd, hm, Tile.c, hc]

theorem lateUpdates_of_dq_early {c push pull : Nat} (hm : t.ct.mincLate = none) (hd : t.ct.dqLate = some (c, push, pull))
    (hc : t.ct.now < c) : t.lateUpdates = t := by
  simp [Tile.lateUpdates, hd, hm, Tile.c, Nat.not_le.mpr hc]

theorem lateUpdates_of_dq {c push pull : Nat} (hm : t.ct.mincLate = none) (hd : t.ct.dqLate = some (c, push, pull))
    (hc : c ≤ t.ct.now) : t.lateUpdates = { t with ct := { t.ct with
      dqLate := none, cx := { t.ct.cx with dqcap := dqUpdate t.ct.cx.dqcap push pull } } } := by
  simp [Tile.lateUpdates, hd, hm, Tile.c, hc]

end

/-! #### A delivered cycle -/

theorem fenceCycle_frame (t : Tile) : ∃ seg, t.fenceCycle = { t with ct := { t.ct with sq := { t.ct.sq with seg := seg } } } := by
  unfold Tile.fenceCycle Tile.countSeg
  repeat' split
  all_goals exact ⟨_, rfl⟩

/-- After the records, the copies and the held updates a delivered cycle counts, and nothing else of the registers or the sequencer moves
but the count of an open segment. -/
theorem tickOver_eq (t : Tile) : ∃ util seg p b, t.tickOver =
    let r := t.engineRecord.readCopies.lateUpdates
    { r with issued := false, pend := p, banks := b
             ct := { r.ct with now := r.ct.now + 1, util := util, sq := { r.ct.sq with seg := seg } } } := by
  unfold Tile.tickOver
  generalize t.engineRecord.readCopies.lateUpdates = r
  obtain ⟨seg, h⟩ := fenceCycle_frame r.tallyCycle
  dsimp only
  rw [h]
  exact ⟨_, _, _, _, rfl⟩

/-- A delivered cycle leaves the memories and the detected causes, and every tile may issue again. -/
theorem tickOver_frame (t : Tile) : let r := t.tickOver
    r.sp = t.sp ∧ r.imem = t.imem ∧ r.acc = t.acc ∧ r.dets = t.dets ∧ r.issued = false := by
  obtain ⟨_, _, _, _, h⟩ := tickOver_eq t
  obtain ⟨_, _, _, h'⟩ := lateUpdates_frame t.engineRecord.readCopies
  obtain ⟨_, _, _, _, h''⟩ := engineRecord_frame t
  rw [h, h', h'']
  exact ⟨rfl, rfl, rfl, rfl, rfl⟩

/-- A delivered cycle counts in DCYC and reads the packet copies whose cycle it is (R141, R151, R158, R306). -/
theorem tickOver_context (t : Tile) : let k := t.ct; let n := t.tickOver.ct
    n.now = k.now + 1 ∧ n.run = k.run ∧ n.inflight = k.inflight ∧ n.y = k.y ∧ n.lag = k.lag ∧ n.sq.pc = k.sq.pc ∧
    n.sq.b = (t.readCopies).ct.sq.b ∧ n.sq.rets = (t.readCopies).ct.sq.rets ∧ n.sq.loops = (t.readCopies).ct.sq.loops := by
  obtain ⟨_, _, _, _, h⟩ := tickOver_eq t
  obtain ⟨_, _, _, h'⟩ := lateUpdates_frame t.engineRecord.readCopies
  obtain ⟨_, _, _, _, h''⟩ := engineRecord_frame t
  rw [h, h', h'']
  exact ⟨rfl, rfl, rfl, rfl, rfl, rfl, rfl, rfl, rfl⟩

/-- Where no engine access is to be recorded, the registers and the held updates change as the held updates say. -/
theorem tickOver_registers {t : Tile} (h : t.engineOor = none) : let r := t.readCopies.lateUpdates.ct; let n := t.tickOver.ct
    n.cx = r.cx ∧ n.dqLate = r.dqLate ∧ n.mincLate = r.mincLate := by
  obtain ⟨_, _, _, _, e⟩ := tickOver_eq t
  rw [e, engineRecord_of_none h]
  exact ⟨rfl, rfl, rfl⟩

/-! #### The cycle on the tile, and on the module -/

/-- The passing of a cycle before DCYC: a movement begins, a switch counts down, corrected errors are noted. -/
theorem pass1_eq (s : State) (t : Tile) : ∃ l n c m,
    let u := { t with switchLeft := l, corrSeen := n, corrAt := c, moveAt := m }
    let r := if s.live t then u.tickOver else u
    s.pass1 t = { r with ct := s.lagging r.ct, standby := r.standby.map s.lagging, streamed := r.streamed.map s.lagging
                         rollAsk := false } := by
  obtain ⟨l, hl⟩ := switching_frame s t
  obtain ⟨n, c, hn⟩ := noteCorrected_frame (s.switching t) s.wcyc
  obtain ⟨m, hm⟩ := startMove_frame s ((s.switching t).noteCorrected s.wcyc)
  refine ⟨l, n, c, m, ?_⟩
  unfold State.pass1
  rw [hm, hn, hl]

theorem passJob_eq {s : State} (h : ∀ u ∈ s.tiles, u.rollAsk = false) (j : Job) :
    s.passJob j = if pulsed s j = true then { j with refs := j.refs.map (· + 1) } else j := by
  have noAsk : s.tiles.any (fun t => t.rollAsk && t.ct.isOf j.pid) = false :=
    List.any_eq_false.mpr fun u hu => by simp [h u hu]
  simp [State.passJob, noAsk, delivers_eq_pulsed]

/-- Where no event is given or due and no tile is to issue, the cycle passes. -/
theorem step_eq_advance {s : State} (hi : s.inbox = []) (on : s.power.on = true) (hd : dueStep s = none) (hn : nextTile s = none) :
    step s = .next (advance s) := by
  simp [step, hi, on, hd, hn]

theorem lagging_eq (s : State) (k : Context) : s.lagging k =
    { k with lag := if k.run = .out ∧ (s.job? k.pid).any (pulsed s) = true then k.lag + 1 else k.lag } := by
  have e : s.delivers = pulsed s := funext (delivers_eq_pulsed s)
  simp only [State.lagging, e, Bool.and_eq_true, beq_iff_eq]
  split <;> rfl

/-- A SET_TIME that waits for the coming cycle is taken up (R399). -/
theorem advance_tick_of_set {s : State} {v w : Nat} (h : s.timeAt = some (v, w)) :
    (advance s).tick = if w ≤ s.wcyc + 1 then v else s.tick := by
  by_cases le : w ≤ s.wcyc + 1 <;> simp [advance, h, Option.filter, le]

theorem advance_tick_of_none {s : State} (h : s.timeAt = none) : (advance s).tick = s.tick := by simp [advance, h]

/-- The state in which a cycle that does not reach the tile leaves its context and memories. -/
theorem pass1_unreached {s : State} {t : Tile} (h : s.live t = false) : let r := s.pass1 t
    r.ct = s.lagging t.ct ∧ r.sp = t.sp ∧ r.imem = t.imem ∧ r.acc = t.acc ∧ r.dets = t.dets := by
  obtain ⟨_, _, _, _, e⟩ := pass1_eq s t
  simp only [h, Bool.false_eq_true, if_false] at e
  rw [e]
  exact ⟨rfl, rfl, rfl, rfl, rfl⟩

/-- A cycle that reaches the tile passes on it as `tickOver` says of the same context, memories and engine record. -/
theorem pass1_reached {s : State} {t : Tile} (h : s.live t = true) :
    ∃ u : Tile, (∃ l n c m, u = { t with switchLeft := l, corrSeen := n, corrAt := c, moveAt := m }) ∧
      let r := s.pass1 t
      r.ct = u.tickOver.ct ∧ r.sp = u.tickOver.sp ∧ r.imem = u.tickOver.imem ∧ r.acc = u.tickOver.acc ∧
      r.dets = u.tickOver.dets ∧ r.issued = u.tickOver.issued := by
  obtain ⟨l, n, c, m, e⟩ := pass1_eq s t
  simp only [h, if_true] at e
  refine ⟨_, ⟨l, n, c, m, rfl⟩, ?_⟩
  obtain ⟨-, hrun, -⟩ := tickOver_context { t with switchLeft := l, corrSeen := n, corrAt := c, moveAt := m }
  have here : t.ct.run ≠ .out := by
    simp only [State.live, Bool.and_eq_true, bne_iff_ne] at h
    obtain ⟨⟨⟨⟨-, ne⟩, -⟩, -⟩, -⟩ := h
    exact ne
  rw [e]
  refine ⟨?_, rfl, rfl, rfl, rfl, rfl⟩
  rw [lagging_eq, if_neg (fun h => here (hrun ▸ h.1))]

/-- Settles O16: with no event and no issue the step is `advance`; each tile passes its cycle by `pass1`, each job by `passJob`. -/
theorem aCyclePasses : Obligations.ACyclePasses := by
  unfold Obligations.ACyclePasses
  intro s hi on hd hn hroll
  refine ⟨advance s, step_eq_advance hi on hd hn, rfl, rfl, rfl, rfl, rfl, fun _ _ => advance_tick_of_set,
    advance_tick_of_none, List.map_congr_left fun j _ => passJob_eq hroll j, ?_⟩
  have same : (advance s).tile = s.pass1 s.tile := rfl
  rw [same, ← live_eq_reached]
  by_cases h : s.live s.tile = true
  case neg =>
    rw [Bool.not_eq_true] at h
    obtain ⟨hct, hsp, himem, hacc, hdets⟩ := pass1_unreached h
    exact ⟨hsp, himem, hacc, hdets, fun _ => hct.trans (lagging_eq s s.tile.ct), fun h' => absurd h' (by simp [h])⟩
  case pos =>
    obtain ⟨u, ⟨l, n, c, m, hu⟩, hct, hsp, himem, hacc, hdets, hissued⟩ := pass1_reached h
    obtain ⟨hsp', himem', hacc', hdets', hissued'⟩ := tickOver_frame u
    obtain ⟨hnow, hrun, hfly, hy, hlag, hpc, hb, hrets, hloops⟩ := tickOver_context u
    have registers := @tickOver_registers u
    rw [hct, hsp, himem, hacc, hdets, hissued]
    subst hu
    refine ⟨hsp', himem', hacc', hdets', fun h' => absurd h' (by simp [h]), fun _ =>
      ⟨hnow, hrun, hfly, hy, hlag, hissued', hpc, hb, hrets, hloops, fun noOor => ?_⟩⟩
    obtain ⟨hcx, hdq, hminc⟩ := registers noOor
    rw [hcx, hdq, hminc]
    refine ⟨fun hd hm => ?_, fun c m hd hm hc => ?_, fun c push pull hm hd => ⟨fun hc => ?_, fun hc => ?_⟩⟩
    · rw [lateUpdates_of_none (by exact hd) (by exact hm)]; rfl
    · rw [lateUpdates_of_minc (by exact hd) (by exact hm) (by exact hc)]; exact ⟨rfl, rfl⟩
    · rw [lateUpdates_of_dq_early (by exact hm) (by exact hd) (by exact hc)]; exact ⟨rfl, rfl⟩
    · rw [lateUpdates_of_dq (by exact hm) (by exact hd) (by exact hc)]; exact ⟨rfl, rfl, queueMoved_dqUpdate ..⟩

end Sys2Proof.Machine
end

section
/-!
CSRs: what CSRR reads and CSRW checks, and the commit of the changes of a bundle.
-/
namespace Sys2Proof.Machine
open Sys2Proof.Safety

/-! ### CSR reads and writes (R191, R192) -/

theorem ofNat_ofInt (z : Int) : BitVec.ofNat 64 (ofInt 64 z) = BitVec.ofInt 64 z := by
  apply BitVec.eq_of_toNat_eq
  simp only [ofInt, BitVec.toNat_ofNat, BitVec.toNat_ofInt]
  omega

/-- The model reads each CSR of the map as the map says. -/
theorem readCsr_of_mem (s : State) : ∀ e ∈ csrMap s, s.readCsr e.1 = some e.2 := by
  simp [csrMap, State.readCsr, State.dcycAt, State.wcycAt, State.tickAt, Tile.c, ofNat_ofInt]

/-- The numbers of the map do not depend on the state. -/
theorem csrMap_numbers (s : State) : (csrMap s).map (·.1) = (csrMap State.reset).map (·.1) := rfl

theorem csrMap_lt {s : State} {e : Nat × Word} (he : e ∈ csrMap s) : e.1 < 2 ^ 16 :=
  (by decide : ∀ n ∈ (csrMap State.reset).map (·.1), n < 2 ^ 16) e.1 (csrMap_numbers s ▸ List.mem_map_of_mem he)

theorem readCsr_of_notMem {s : State} {n : Nat} (h : ∀ e ∈ csrMap s, e.1 ≠ n) : s.readCsr n = none := by
  have free : n ∉ (csrMap State.reset).map (·.1) := by
    rw [← csrMap_numbers s, List.mem_map]
    exact fun ⟨e, he, hn⟩ => h e he hn
  unfold State.readCsr
  split
  case h_34 => rfl
  all_goals exact absurd (by decide) free

theorem csrWritable_of_notMem {n : Nat} (h : n ∉ csrWrites) : csrWritable n = none := by
  unfold csrWritable
  split
  case h_17 => rfl
  all_goals exact absurd (by decide) h

/-- A value sets a bit outside the low `k` exactly where it is 2^k or more. -/
theorem setsOutside_low {k v : Nat} (hv : v < 2 ^ 64) : setsOutside (2 ^ k - 1) v = decide (2 ^ k ≤ v) := by
  have masked (i : Nat) : (BitVec.ofNat 64 v &&& ~~~(BitVec.ofNat 64 (2 ^ k - 1))).getLsbD i =
      (decide (i < 64) && v.testBit i && !decide (i < k)) := by
    by_cases hi : i < 64 <;>
      simp only [hi, BitVec.getLsbD_and, BitVec.getLsbD_not, BitVec.getLsbD_ofNat, Nat.testBit_two_pow_sub_one, decide_true,
        decide_false, Bool.true_and, Bool.false_and]
  rw [setsOutside, Bool.eq_iff_iff, bne_iff_ne, decide_eq_true_iff]
  constructor
  · intro ne
    by_contra lt
    refine ne (BitVec.eq_of_getLsbD_eq fun i _ => ?_)
    rw [masked]
    by_cases hi : i < k
    · simp [hi]
    · have small : v < 2 ^ i := (Nat.lt_of_not_le lt).trans_le (Nat.pow_le_pow_right (by decide) (Nat.le_of_not_lt hi))
      simp [Nat.testBit_eq_false_of_lt small]
  · intro le z
    obtain ⟨i, hi, hb⟩ := Nat.exists_ge_and_testBit_of_ge_two_pow le
    have lt : i < 64 := Nat.lt_of_not_le fun g => by
      simp [Nat.testBit_eq_false_of_lt (hv.trans_le (Nat.pow_le_pow_right (by decide) g))] at hb
    have b := masked i
    rw [z] at b
    simp [lt, hb, Nat.not_lt.mpr hi] at b

theorem execCsrw_fault {o : I16} {s : State} {v : Nat} (h : s.tile.csrWriteFault o.imm.toNat (s.tile.s o.d).toNat = some v) :
    exec (.csrw o) s = .next (charged s .illegalOp (BitVec.ofNat 64 v) 0 s.tile.ct.now) := by
  show execCsrw o s = _
  simp only [execCsrw, h, trapOut_eq]

theorem execCsrw_ok {o : I16} {s : State} (h : s.tile.csrWriteFault o.imm.toNat (s.tile.s o.d).toNat = none) :
    exec (.csrw o) s = .next (withPost s (.csr (o.imm.setWidth 12) (s.tile.s o.d))) := by
  show execCsrw o s = _
  simp only [execCsrw, h]; rfl

/-- The check of a write whose CSR takes `k` low bits and has no other limit. -/
theorem csrWriteFault_low {t : Tile} {n k v : Nat} (hw : csrWritable n = some (2 ^ k - 1)) (ho : t.csrValueOk n v = true)
    (hv : v < 2 ^ 64) : t.csrWriteFault n v =
      if 2 ^ k ≤ v then some (t.csrTval n v (csrReserved n (2 ^ k - 1) v)) else none := by
  simp [Tile.csrWriteFault, hw, ho, setsOutside_low hv]

/-- CSRR and CSRW by their cases: the map, a number outside it, and the check of a written value. -/
theorem csr_access_map : csrAccessFollowsTheMap := by
  refine ⟨fun d s e he => ?_, fun o s h => ?_, fun o s h => ?_, fun o s h => execCsrw_ok h, fun d s => ?_⟩
  · have n : (BitVec.ofNat 16 e.1).toNat = e.1 := Nat.mod_eq_of_lt (csrMap_lt he)
    show execCsrr _ s = _
    simp only [execCsrr, n, readCsr_of_mem s e he, landS_eq]
  · show execCsrr _ s = _
    simp only [execCsrr, readCsr_of_notMem h, trapOut_eq, BitVec.ofNat_toNat]
  · rw [execCsrw_fault (by simp only [Tile.csrWriteFault, csrWritable_of_notMem h]; rfl), BitVec.ofNat_toNat]
  · have lt := (s.tile.s d).isLt
    have rotb : s.tile.csrWriteFault 0x081 (s.tile.s d).toNat = _ := csrWriteFault_low (k := 3) rfl rfl lt
    have fmode : s.tile.csrWriteFault 0x010 (s.tile.s d).toNat = _ := csrWriteFault_low (k := 2) rfl rfl lt
    have key : s.tile.csrWriteFault 0x060 (s.tile.s d).toNat = _ := csrWriteFault_low (k := 64) rfl rfl lt
    refine ⟨fun h => execCsrw_ok (rotb.trans (if_neg (by omega))), fun h => ?_,
      fun h => execCsrw_ok (fmode.trans (if_neg (by omega))), fun h => ?_, execCsrw_ok (key.trans (if_neg (by omega)))⟩
    · have reserved : csrReserved 0x081 (2 ^ 3 - 1) (s.tile.s d).toNat = true := by
        simp only [csrReserved, (show (0x081 : Nat) ≠ 0x021 by decide), if_false, setsOutside_low lt,
          decide_eq_true (show 2 ^ 3 ≤ _ from h), Bool.true_or]
      rw [reserved] at rotb
      exact execCsrw_fault (o := ⟨d, 0x081⟩) (rotb.trans (if_pos h))
    · refine (execCsrw_fault (o := ⟨d, 0x010⟩) (fmode.trans (if_pos h))).trans ?_
      simp [Tile.csrTval]

/-! ### The commit of a bundle's changes (R31, R111, R191) -/

/-- A bundle whose changes lie in the context leaves the tile as its context says. -/
theorem commitsTo_congr (t : Tile) {k k' : Context} (h : k = k') :
    ({ t with post := [], ct := k } : Tile) = { t with post := [], ct := k' } := h ▸ rfl

/-- No update waits, so a write puts none off (R17). -/
theorem putOff_of_none {k : Context} (hd : k.dqLate = none) (hm : k.mincLate = none) (dqw pmw : Bool) : k.putOff dqw pmw = k := by
  cases dqw <;> cases pmw <;> simp only [Context.putOff, hd, hm, Option.map_none, if_true, Bool.false_eq_true, if_false] <;>
    rw [← hd, ← hm]

/-- A write of DQCAP puts off the update that waits. -/
theorem putOff_dqcap {k : Context} {n : Nat} {e : Nat × Nat} (h : k.dqLate = some (n, e)) :
    k.putOff true false = { k with dqLate := some (k.now + 1, e) } := by
  simp only [Context.putOff, h]; rfl

/-- A write of PIPMEMB puts off the update that waits. -/
theorem putOff_pipmemb {k : Context} {n m : Nat} (h : k.mincLate = some (n, m)) :
    k.putOff false true = { k with mincLate := some (k.now + 1, m) } := by
  simp only [Context.putOff, h]; rfl

/-- An update of DQCAP beside its write waits a cycle. -/
theorem holdDq_of_none {k : Context} (h : k.dqLate = none) (push pull : Nat) :
    k.holdDq push pull = { k with dqLate := some (k.now + 1, push, pull) } := by
  simp only [Context.holdDq, h, Option.map_none, Option.getD_none, Nat.zero_add]

/-- An update of PIPMEMB beside its write waits a cycle. -/
theorem holdMinc_of_none {k : Context} (h : k.mincLate = none) : k.holdMinc = { k with mincLate := some (k.now + 1, 1) } := by
  simp only [Context.holdMinc, h, Option.map_none, Option.getD_none, Nat.zero_add]

/-- One change commits by itself, after it has put off what waits. -/
theorem commit_one (t : Tile) (p : Post) : Tile.commit { t with post := [p] } =
    Tile.commit1 (p.writes csrDqcap) (p.writes csrPipmemb)
      { t with post := [], ct := t.ct.putOff (p.writes csrDqcap) p.writesMemb } p := by
  cases h : p.isReset <;> simp [Tile.commit, h]

/-- Where no update waits, a single change meets the context as it stands. -/
theorem commit_one_of_none {t : Tile} (hd : t.ct.dqLate = none) (hm : t.ct.mincLate = none) (p : Post) :
    Tile.commit { t with post := [p] } =
      Tile.commit1 (p.writes csrDqcap) (p.writes csrPipmemb) { t with post := [] } p := by
  rw [commit_one, putOff_of_none hd hm]

/-- Where no update waits, two changes that reset no stream commit in order, each knowing what CSRs the bundle writes. -/
theorem commit_two_of_none {t : Tile} (hd : t.ct.dqLate = none) (hm : t.ct.mincLate = none) {p q : Post}
    (hp : p.isReset = false) (hq : q.isReset = false) : Tile.commit { t with post := [p, q] } =
      let c := Tile.commit1 (p.writes csrDqcap || q.writes csrDqcap) (p.writes csrPipmemb || q.writes csrPipmemb)
      c (c { t with post := [] } p) q := by
  simp only [Tile.commit, List.any_cons, List.any_nil, Bool.or_false, putOff_of_none hd hm, List.filter_cons, hp, hq]
  rfl

/-- A CSR with no rule of its own takes the value written. -/
theorem writeCsr_csrSet (t : Tile) (v : Word) : ∀ e ∈ csrSet t.ct.cx v,
    t.writeCsr e.1.toNat v = { t with ct := { t.ct with cx := e.2 } } := by
  simp only [csrSet, List.forall_mem_cons]
  exact ⟨rfl, rfl, rfl, rfl, rfl, rfl, rfl, rfl, rfl, rfl, rfl, rfl, rfl, nofun⟩

/-- Clearing flags leaves every other register, and the flags of this cycle (R92). -/
theorem clearFlags_spec (k : Context) (v : Word) : ∃ w : Word, k.clearFlags v = { k with cx := { k.cx with xflags := w } } ∧
    ∀ n, n < 64 → w.getLsbD n = (k.cx.xflags.getLsbD n && (!v.getLsbD n || (decide (k.flAt = k.now) && k.flSet.getLsbD n))) := by
  refine ⟨_, rfl, fun n hn => ?_⟩
  by_cases now : k.flAt = k.now <;>
    simp only [now, if_true, if_false, BitVec.getLsbD_and, BitVec.getLsbD_not, BitVec.getLsbD_setWidth, BitVec.ofNat_eq_ofNat,
      BitVec.getLsbD_zero, hn, decide_true, decide_false, Bool.true_and, Bool.false_and, Bool.not_and, Bool.not_not]

/-! #### OOBFLAG (R210) -/

theorem clearOob_of_clear {k : Context} {v : Word} (h : v.getLsbD 0 = false) : k.clearOob v = k := by
  simp only [Context.clearOob, h]; rfl

theorem clearOob_of_quiet {k : Context} {v : Word} (h : v.getLsbD 0 = true) (quiet : ∀ o, k.oor = some o → o.1 ≠ k.now) :
    k.clearOob v = { k with cx := { k.cx with oobflag := k.cx.oobflag &&& ~~~1 } } := by
  cases ho : k.oor with
  | none => simp only [Context.clearOob, h, ho]; rfl
  | some o =>
    have ne := quiet o ho
    simp only [Context.clearOob, h, ho, ne, decide_false, Bool.false_and]; rfl

theorem clearOob_of_now {k : Context} {v : Word} {vault : Bool} {a : Nat} (h : v.getLsbD 0 = true)
    (ho : k.oor = some (k.now, vault, a)) (hg : k.cx.guardMode = false) : k.clearOob v =
      { k with cx := { k.cx with oobaddr := BitVec.ofNat 64 (a % 2 ^ 48), oobflag := if vault then 3 else 1 } } := by
  simp only [Context.clearOob, h, ho, hg]; rfl

/-- PHASE counts in NUM, sets SCOPE and keeps BPH (R186, R195). -/
theorem phase_fields (x : Ctx) {sc : Nat} (hsc : sc < 8) :
    let w : Word := BitVec.ofNat 64 ((x.phaseNum + 1) % 4096 + sc * 2 ^ 12 + x.bph * 2 ^ 16)
    w.toNat % 4096 = (x.phase.toNat + 1) % 4096 ∧ w.toNat / 4096 % 8 = sc ∧
    w.toNat / 2 ^ 16 % 4096 = x.phase.toNat / 2 ^ 16 % 4096 := by
  simp only [Ctx.phaseNum, Ctx.bph, bits, BitVec.toNat_ofNat]
  omega

/-! #### The changes of one bundle -/

/-- A reset of a stream stands over the position that a naming of the bundle leaves (R225). -/
theorem commit_srst_last {t : Tile} (hd : t.ct.dqLate = none) (hm : t.ct.mincLate = none) (n : BitVec 4) (p : Nat) :
    Tile.commit { t with post := [.srst n, .stream n p] } = Tile.commit { t with post := [.srst n] } := by
  rw [commit_one_of_none hd hm]
  simp [Tile.commit, putOff_of_none hd hm, Post.isReset, Tile.commit1, Tile.onCx, Ctx.rdA]

/-- Each change by its rule: alone, beside another of its bundle, and while an update waits. -/
theorem commit_applies_writes : commitAppliesCsrWrites := by
  refine ⟨fun t v hd hm e he => ?_, fun t n p hd hm => ⟨?_, ?_, ?_, ?_⟩, fun t push pull v hd hm => ⟨?_, ?_, ?_, ?_, ?_, ?_⟩,
    fun t v n m hd hm p hp => ?_, fun t v hd hm => ⟨fun h => ?_, fun h => ⟨fun quiet => ?_, fun vault a ho hg => ?_⟩⟩,
    fun t v n e hd => ?_, fun t v => ?_, fun t sc hsc => ?_⟩
  -- RW CSRs
  · rw [commit_one_of_none hd hm]; exact writeCsr_csrSet { t with post := [] } v e he
  -- streams and ROTB
  · rw [commit_one_of_none hd hm]; rfl
  · rw [commit_one_of_none hd hm]; rfl
  · exact commit_srst_last hd hm n p
  · rw [commit_one_of_none hd hm]; rfl
  -- DQCAP and PIPMEMB: updated, written, and updated beside a write
  · rw [commit_one_of_none hd hm]; exact ⟨_, rfl, queueMoved_dqUpdate ..⟩
  · rw [commit_one_of_none hd hm]; exact ⟨_, rfl, queueMoved_dqUpdate ..⟩
  · rw [commit_two_of_none hd hm rfl rfl]
    exact commitsTo_congr t (holdDq_of_none (k := { t.ct with cx := { t.ct.cx with dqcap := v } }) hd push 0)
  · rw [commit_one_of_none hd hm]; rfl
  · rw [commit_one_of_none hd hm]; rfl
  · rw [commit_two_of_none hd hm rfl rfl]
    exact commitsTo_congr t (holdMinc_of_none (k := { t.ct with cx := { t.ct.cx with pipmemb := v } }) hm)
  -- PIPMEMB written while an update waits
  · simp only [List.mem_cons, List.not_mem_nil, or_false] at hp
    have waits := congrArg (fun k : Context => { k with cx := { k.cx with pipmemb := v } }) (putOff_pipmemb hm)
    rcases hp with rfl | rfl <;> rw [commit_one] <;> exact commitsTo_congr t waits
  -- OOBFLAG
  · rw [commit_one_of_none hd hm]
    exact commitsTo_congr t (clearOob_of_clear h)
  · rw [commit_one_of_none hd hm]
    exact commitsTo_congr t (clearOob_of_quiet h quiet)
  · rw [commit_one_of_none hd hm]
    exact commitsTo_congr t (clearOob_of_now h ho hg)
  -- DQCAP written while an update waits; XFLAGS; PHASE
  · rw [commit_one]
    exact commitsTo_congr t (congrArg (fun k : Context => { k with cx := { k.cx with dqcap := v } }) (putOff_dqcap hd))
  · obtain ⟨w, hw, kept⟩ := clearFlags_spec t.ct v
    refine ⟨w, ?_, kept⟩
    rw [commit_one]
    exact commitsTo_congr t hw
  · refine ⟨_, ?_, phase_fields t.ct.cx hsc⟩
    rw [commit_one]; rfl

/-- Settles O19: the access by the map and the check of a write, the commit by the rule of each change. -/
theorem csrOpsFollowTheMap : Obligations.CsrOpsFollowTheMap := ⟨csr_access_map, commit_applies_writes⟩

end Sys2Proof.Machine
end

section
/-!
Compares, and the ops on condition bits: what each writes into the q bits, and when a floating compare traps.
-/
namespace Sys2Proof.Machine
open Sys2Proof.Safety

/-! ### The first enabled exception of a result (R93) -/

theorem bit_bits (x : Nat) {h l i : Nat} (lt : i < h + 1 - l) : bit (bits x h l) i = bit x (i + l) := by
  simp [bit_eq_testBit, testBit_bits, lt]

theorem bit_and (x y n : Nat) : bit (x &&& y) n = (bit x n && bit y n) := by simp [bit_eq_testBit]

theorem ne_zero_of_bit {x n : Nat} (h : bit x n = true) : x ≠ 0 := by
  rintro rfl; simp [bit] at h

/-- The lowest of five flags is the one below which none is set. -/
theorem firstFlag_eq {x : Nat} (k : Fin 5) (h : bit x k = true) (low : ∀ m, m < k.val → bit x m = false) : firstFlag x = k := by
  have e (m : Nat) (hm : m < k.val) := low m hm
  fin_cases k <;> simp_all [firstFlag]

theorem firstFlag_of_bits {all te l : Nat} (k : Fin 5)
    (on : (bit all (k.val + l) && bit te (k.val + l)) = true)
    (low : ∀ m, m < k.val → (bit all (m + l) && bit te (m + l)) = false) :
    bits all (l + 4) l &&& bits te (l + 4) l ≠ 0 ∧ firstFlag (bits all (l + 4) l &&& bits te (l + 4) l) = k := by
  have at_ (m : Nat) (hm : m < 5) :
      bit (bits all (l + 4) l &&& bits te (l + 4) l) m = (bit all (m + l) && bit te (m + l)) := by
    rw [bit_and, bit_bits all (by omega), bit_bits te (by omega)]
  have set := (at_ k.val k.isLt).trans on
  exact ⟨ne_zero_of_bit set, firstFlag_eq k set fun m hm => (at_ m (by omega)).trans (low m hm)⟩

/-- A result whose first enabled exception is `n` traps with the cause of `n` and everything that it raised (R93). -/
theorem arithTrap_of_trapsFirst {s : State} {fl n : Nat} {c : Cause} (h : trapsFirst s fl n c) :
    arithTrap s.tile.trapen [fl] = some (c, fl % 32 * 2 ^ 8 + fl / 2 ^ 8 % 32 * 2 ^ 16) := by
  obtain ⟨⟨k, kind⟩, on, low⟩ := h
  have lane (m : Nat) : ((findIdx (fun f => bit f m) [fl]).map (·.1)).getD 0 = 0 := by
    cases e : bit fl m <;> simp [findIdx, List.zipIdx, e]
  rcases kind with ⟨rfl, rfl⟩ | ⟨rfl, rfl⟩
  · obtain ⟨ne, first⟩ := firstFlag_of_bits (l := 0) (all := fl) (te := s.tile.trapen) k on fun m hm => low m hm (.inl (by omega))
    simp only [Nat.zero_add] at ne first
    simp only [arithTrap, List.foldl, Nat.zero_or, lane, if_pos ne, first]
    simp [bits]
  · have none : bits fl 4 0 &&& bits s.tile.trapen 4 0 = 0 := by
      apply Nat.eq_of_testBit_eq
      intro i
      by_cases hi : i < 5
      · have e := low i (by omega) (.inl hi)
        rw [bit_eq_testBit, bit_eq_testBit] at e
        simpa [testBit_bits, hi, Tile.trapen] using e
      · simp [testBit_bits, hi]
    obtain ⟨ne, first⟩ := firstFlag_of_bits (l := 8) (all := fl) (te := s.tile.trapen) k (by rw [Nat.add_comm]; exact on)
      fun m hm => by rw [Nat.add_comm]; exact low (8 + m) (by omega) (.inr (by omega))
    simp only [arithTrap, List.foldl, Nat.zero_or, lane, none, ne_eq, not_true_eq_false, if_false]
    rw [if_pos ne, first]
    simp [bits]

/-- An op whose one lane raises an enabled exception traps when its result would land, and its result does not (R93). -/
theorem arith_traps {s : State} {fl n : Nat} {c : Cause} (h : trapsFirst s fl n c) (lat slot : Nat) (f : Tile → Nat → Tile) :
    withTile s (s.tile.arith [fl] lat slot f) = charged s c (raisedIn 0 fl) slot (s.tile.ct.now + lat) := by
  unfold Tile.arith
  rw [arithTrap_of_trapsFirst h]
  simp only [raisedIn, Nat.zero_add]
  rfl

/-! ### Compares (R149, R178, R181) -/

theorem intCond_eq_intHolds {code : Nat} (h : code < 8) (a b : Word) : intCond code a b = intHolds code a b := by
  have eq : (a == b) = decide (a.toNat = b.toNat) := by
    rw [Bool.eq_iff_iff]; simp [BitVec.toNat_inj]
  have ne : (a != b) = decide (a.toNat ≠ b.toNat) := by rw [bne, eq]; simp
  interval_cases code <;> simp [intCond, intHolds, eq, ne]

theorem immSigned_eq_signedOf {n imm : Nat} (h : imm < 2 ^ n) (pos : 0 < n) (x : Ext) : immSigned n imm x = signedOf n imm x := by
  cases x with
  | none =>
    have half : 2 ^ n = 2 * 2 ^ (n - 1) := by rw [← Nat.pow_succ']; congr 1; omega
    simp only [immSigned, signedOf, toSigned, Nat.mod_eq_of_lt h]
    by_cases low : imm < 2 ^ (n - 1)
    · rw [if_pos low, if_neg (by omega)]
    · rw [if_neg low, if_pos (by omega)]
  | some e =>
    have he := e.isLt
    have big : imm + e.toNat * 2 ^ n < 2 ^ (n + 7) := by
      have : e.toNat * 2 ^ n ≤ 127 * 2 ^ n := Nat.mul_le_mul_right _ (by omega)
      rw [Nat.pow_add]; omega
    have half : (2 : Nat) ^ (n + 7 - 1) = 64 * 2 ^ n := by
      rw [show n + 7 - 1 = 6 + n by omega, Nat.pow_add]
    simp only [immSigned, signedOf, toSigned, Nat.mod_eq_of_lt big, half]
    by_cases top : 64 ≤ e.toNat
    · have : 64 * 2 ^ n ≤ e.toNat * 2 ^ n := Nat.mul_le_mul_right _ top
      rw [if_neg (by omega), if_pos top]
    · have : e.toNat * 2 ^ n ≤ 63 * 2 ^ n := Nat.mul_le_mul_right _ (by omega)
      rw [if_pos (by omega), if_neg top]

theorem compare_writes_its_bit : comparesWriteOneConditionBit := by
  refine ⟨fun o s hm => ?_, fun o x s => ?_, fun o s => ⟨fun q => ?_, fun n c h => ?_⟩, fun o s => ⟨fun q => ?_, fun n c h => ?_⟩⟩
  · rw [← intCond_eq_intHolds hm]; rfl
  · rw [← intCond_eq_intHolds (by have := o.d.isLt; omega), ← immSigned_eq_signedOf o.imm.isLt (by decide)]; rfl
  · show Host.Outcome.next (withTile s (s.tile.arith [_] 1 0 _)) = _
    rw [bFlags, arith_quiet q]; rfl
  · exact congrArg Host.Outcome.next (arith_traps h 1 0 _)
  · show Host.Outcome.next (withTile s (s.tile.arith [_] 2 0 _)) = _
    rw [dFlags, arith_quiet q]; rfl
  · exact congrArg Host.Outcome.next (arith_traps h 2 0 _)

/-! ### Moves of q bits (R149) -/

theorem low3_toNat (n : BitVec 6) : (low3 n).toNat = n.toNat % 8 := by simp [low3]

theorem any_bit_iff_ne_zero (k : Word) : ((List.range 64).any fun i => k.getLsbD i) = (k != 0) := by
  rw [Bool.eq_iff_iff]
  simp only [List.any_eq_true, List.mem_range, bne_iff_ne, ne_eq]
  constructor
  · rintro ⟨i, -, hi⟩ rfl; simp at hi
  · intro ne
    by_contra none
    push Not at none
    exact ne (BitVec.eq_of_getLsbD_eq fun i hi => by simpa using none i hi)

theorem all_bits_iff_allOnes (k : Word) : ((List.range 64).all fun i => k.getLsbD i) = (k == BitVec.allOnes 64) := by
  rw [Bool.eq_iff_iff]
  simp only [List.all_eq_true, List.mem_range, beq_iff_eq]
  constructor
  · intro all
    exact BitVec.eq_of_getLsbD_eq fun i hi => by rw [all i hi, BitVec.getLsbD_allOnes, decide_eq_true hi]
  · rintro rfl i hi
    rw [BitVec.getLsbD_allOnes, decide_eq_true hi]

theorem condition_bits_move : conditionBitMoves := by
  refine ⟨fun o s => ?_, fun o s hm => ⟨s.tile.ct.cx.q.setWidth 64, ?_, fun i => ?_⟩,
    fun o s hm => ⟨(s.tile.s o.a).setWidth 512, ?_, fun i hi => ?_⟩, fun o s hm => ?_, fun o s hm => ?_⟩
  · show onTile (·.landQ (low3 o.d) _ 1) s = _
    rw [landQ_eq]
    simp only [Tile.q, low3_toNat]
    cases s.tile.ct.cx.q.getLsbD (o.a.toNat % 8) <;> cases s.tile.ct.cx.q.getLsbD (o.b.toNat % 8) <;> rfl
  · simp only [exec, execQmov, hm]; rfl
  · by_cases hi : i < 8
    · simp [hi, show i < 64 by omega]
    · simp [hi, BitVec.getLsbD_of_ge _ i (Nat.le_of_not_lt hi)]
  · simp only [exec, execQmov, hm]; rfl
  · simp [show i < 512 by omega]
  · rw [any_bit_iff_ne_zero]; simp only [exec, execQmov, hm]; rfl
  · rw [all_bits_iff_allOnes]; simp only [exec, execQmov, hm]; rfl

/-- Settles O12: the condition of each compare and the bits of each move; a floating compare lands by `arith_quiet` or traps by
`arith_traps`. -/
theorem conditionBitsAreWrittenAndMoved : Obligations.ConditionBitsAreWrittenAndMoved :=
  ⟨compare_writes_its_bit, condition_bits_move⟩

end Sys2Proof.Machine
end

section
/-!
What an arithmetic trap leaves beside its own cause: a lane op that reads a stream reads it through ECC, and a word beyond
correction charges a cause of its own.
-/
namespace Sys2Proof.Machine
open Sys2Proof.Safety

/-- A tile with invalid enabled whose stream a0 names 32 binary16 elements from address 0. Element 0 is a signalling NaN, and its word,
which the attempt has written, has two bits inverted since (R269). -/
def struckTile : Tile := {
  ct := {
    now := 1000, isize := 8, ssize := 16
    cx := {
      trapen := 1
      a := (Vector.replicate 16 {}).set 0 {
        valid := true, record := BitVec.ofNat 512 (8 * 2 ^ 32 + 32 * 2 ^ 64 + 2 * 2 ^ 192), pos := 0 } } }
  sp := { pub := [(1, 0x7D)], soft := [{ word := 0, bits := [0, 1] }] }
  marks := [0] }

/-- The module with that tile in focus. -/
def struckState : State := { tile := struckTile }

/-- How many causes a step leaves detected on the tile in focus. -/
def causesAfter (r : Out) : Nat :=
  match r with
  | .next t => t.tile.dets.length
  | _ => 0

/-- UE_REPLAY of the word read, and the arithmetic trap. -/
theorem struck_causes :
    causesAfter (exec (.vfadd ⟨1, 32, 0, 8⟩ none) struckState) = 2 ∧
    causesAfter (exec (.vfcmp ⟨0, 32, 0, 8⟩ none) struckState) = 2 ∧
    causesAfter (exec (.vradd ⟨1, 32, 0, 8⟩ none) struckState) = 2 := by decide +kernel

/-- No op leaves two causes there that leaves no more than one beside those that stood before. -/
theorem struck_absurd {i : Instr} {c : Cause} {v : Word} {slot det : Nat} (two : causesAfter (exec i struckState) = 2)
    (one : ∃ t, exec i struckState = .next t ∧ t.tile.ct.inflight = struckState.tile.ct.inflight ∧
      t.tile.dets = (charged struckState c v slot det).tile.dets) : False := by
  obtain ⟨t, ran, -, dets⟩ := one
  rw [ran] at two
  have single : t.tile.dets.length = 1 := by rw [dets]; rfl
  exact absurd (single.symm.trans two) (by decide)

theorem struck_trapsFirst {fl : Nat} (invalid : bit fl 0 = true) : trapsFirst struckState fl 0 (.binary 0) :=
  ⟨⟨0, .inl ⟨rfl, rfl⟩⟩, by rw [invalid]; decide +kernel, fun m hm => absurd hm m.not_lt_zero⟩

/-- Refutes O21: VFADD of a stream whose first word is beyond correction leaves UE_REPLAY beside its trap, where the statement has the
trap alone. -/
theorem not_floatingLaneOpsAndConversions : ¬ Obligations.FloatingLaneOpsAndConversions := by
  rintro ⟨lanes, -⟩
  obtain ⟨binary, -⟩ := lanes ⟨1, 32, 0, 8⟩ none struckState
  obtain ⟨traps, -⟩ := binary (by decide) (by decide) _ (.head _) (by unfold laneReady; decide +kernel)
  exact struck_absurd struck_causes.1 (traps 0 (.binary 0) 0 (struck_trapsFirst (by decide +kernel)) (by decide) rfl
    (by decide +kernel) fun j hj => absurd hj j.not_lt_zero)

/-- Refutes O22: VFCMP of that stream leaves UE_REPLAY beside its trap. -/
theorem not_laneComparesAndShadowCompare : ¬ Obligations.LaneComparesAndShadowCompare := by
  rintro ⟨compares, -⟩
  obtain ⟨-, binary, -⟩ := compares ⟨0, 32, 0, 8⟩ none struckState (by unfold laneReady; decide +kernel)
  obtain ⟨traps, -⟩ := binary (by decide) (by decide)
  exact struck_absurd struck_causes.2.1 (traps 0 (.binary 0) 0 (struck_trapsFirst (by decide +kernel)) (by decide) rfl
    (by decide +kernel) fun j hj => absurd hj j.not_lt_zero)

/-- Refutes O23: VRADD of that stream leaves UE_REPLAY beside its trap. -/
theorem not_reductionsMovesAndMaskOps : ¬ Obligations.ReductionsMovesAndMaskOps := by
  rintro ⟨reductions, -, -⟩
  obtain ⟨-, binary, -⟩ := reductions ⟨1, 32, 0, 8⟩ none struckState (by unfold laneReady; decide +kernel)
  obtain ⟨⟨traps, -⟩, -, -⟩ := binary (by decide) (by decide)
  exact struck_absurd struck_causes.2.2 (traps 0 (.binary 0) 0 (struck_trapsFirst (by decide +kernel))
    ⟨by decide +kernel, 0, by decide, by decide +kernel⟩ fun h hh => absurd hh h.not_lt_zero)

end Sys2Proof.Machine
end

section
/-!
What the engines do in their later cycles: whose collision a bank finds.
-/
namespace Sys2Proof.Machine
open Sys2Proof.Safety

/-- Group 0 of a plane load from the scratchpad, due now: its stream names one byte at address 0. -/
def loadOfTwin : Pend := {
  due := 1000, issue := 995, slot := 3
  kind := .planeRead false 0 1 0 { valid := true, record := BitVec.ofNat 512 (13 * 2 ^ 32 + 2 ^ 64), pos := 0 } 0 }

/-- Two tiles with LTID 0. The one in focus has that group due, and an earlier bundle of it reads another row of bank 0 in this cycle, so
that the bank charges the load with a collision (R201); a collision goes to every tile with the LTID of the op charged. -/
def twinState : State := {
  tile := {
    ct := { now := 1000, ssize := 16 }
    pend := [loadOfTwin]
    banks := [{ due := 1000, vault := false, bank := 0, word := 1, write := false, window := false, issue := 990, slot := 2, owner := 1 }] }
  others := [{}] }

/-- The causes that a step leaves detected on the tiles out of focus. -/
def causesElsewhere (r : Out) : List Nat :=
  match r with
  | .next t => t.others.map (·.dets.length)
  | _ => []

/-- Refutes O34: the collision of a load is charged to the second tile of the same LTID too, where the statement, which does not ask that
LTIDs be distinct, has the other tiles stand. -/
theorem not_enginesLandTheirEffects : ¬ Obligations.EnginesLandTheirEffects := by
  rintro ⟨reads, -⟩
  obtain ⟨u, ran, stand, -⟩ := reads twinState loadOfTwin { twinState.tile with pend := [] } _ _ _ _ _ _
    (by unfold soleDue; decide +kernel) rfl
  have charged : causesElsewhere (exec .engineStreamAccess twinState) = [2] := by decide +kernel
  rw [ran] at charged
  have none : u.others.map (·.dets.length) = [0] := by rw [stand rfl]; rfl
  exact absurd (none.symm.trans charged) (by decide)

end Sys2Proof.Machine
end

section
/-!
Rounding, for both families of formats: what rounding an exact magnitude to an integer does, and why a result that takes each of its
modes from it is the exact value rounded once.
-/
namespace Sys2Proof.Machine
open Sys2Proof.Safety

/-! ### Rounding a magnitude to an integer (R80, R91) -/

/-- `N` is the magnitude `ρ` rounded to an integer under mode `rm`, of a value with this sign: the integer below or above, as the mode asks. -/
structure RoundsTo (rm : Nat) (neg : Bool) (ρ : Rat) (N : Nat) : Prop where
  near : N = ⌊ρ⌋₊ ∨ N = ⌈ρ⌉₊
  nearest : rm = 0 → |(N : Rat) - ρ| ≤ |(⌊ρ⌋₊ : Rat) - ρ| ∧ |(N : Rat) - ρ| ≤ |(⌈ρ⌉₊ : Rat) - ρ|
  zero : rm = 1 → N = ⌊ρ⌋₊
  up : rm = 2 → N = if neg then ⌊ρ⌋₊ else ⌈ρ⌉₊
  down : rm = 3 → N = if neg then ⌈ρ⌉₊ else ⌊ρ⌋₊

/-- An integer rounds to itself under every mode. -/
theorem RoundsTo.of_nat (rm : Nat) (neg : Bool) (N : Nat) : RoundsTo rm neg N N := by
  constructor <;> simp

theorem RoundsTo.eq_of_nat {rm : Nat} {neg : Bool} {N k : Nat} (h : RoundsTo rm neg k N) : N = k := by simpa using h.near

theorem RoundsTo.floor_le {rm : Nat} {neg : Bool} {ρ : Rat} {N : Nat} (h : RoundsTo rm neg ρ N) : ⌊ρ⌋₊ ≤ N := by
  rcases h.near with rfl | rfl
  · exact le_rfl
  · exact Nat.floor_le_ceil ρ

theorem RoundsTo.le_ceil {rm : Nat} {neg : Bool} {ρ : Rat} {N : Nat} (h : RoundsTo rm neg ρ N) : N ≤ ⌈ρ⌉₊ := by
  rcases h.near with rfl | rfl
  · exact Nat.floor_le_ceil ρ
  · exact le_rfl

/-- Strictly between two integers, a magnitude rounds to the one that `roundsUp` picks, given how it lies against their midpoint. -/
theorem RoundsTo.of_between {ρ : Rat} {q : Nat} (lo : (q : Rat) < ρ) (hi : ρ < q + 1) {rm : Nat} (hrm : rm < 4) (neg odd : Bool)
    {cmp : Ordering} (lt : cmp = .lt → 2 * (ρ - q) < 1) (eq : cmp = .eq → 2 * (ρ - q) = 1) (gt : cmp = .gt → 1 < 2 * (ρ - q)) :
    RoundsTo rm neg ρ (if roundsUp rm neg odd cmp true then q + 1 else q) := by
  have fl : ⌊ρ⌋₊ = q := (Nat.floor_eq_iff (le_trans (by positivity) lo.le)).2 ⟨lo.le, hi⟩
  have ce : ⌈ρ⌉₊ = q + 1 := (Nat.ceil_eq_iff (by omega)).2 ⟨by simpa using lo, by simpa using hi.le⟩
  have below : |(q : Rat) - ρ| = ρ - q := by rw [abs_of_neg (by linarith)]; ring
  have above : |(q : Rat) + 1 - ρ| = 1 - (ρ - q) := by rw [abs_of_pos (by linarith)]; ring
  constructor
  · rw [fl, ce]; split <;> simp
  · rintro rfl
    rw [fl, ce]
    cases cmp with
    | lt => simp [roundsUp, below, above]; linarith [lt rfl]
    | eq => cases odd <;> simp [roundsUp, below, above] <;> linarith [eq rfl]
    | gt => simp [roundsUp, below, above]; linarith [gt rfl]
  · rintro rfl; simp [roundsUp, fl]
  · rintro rfl; cases neg <;> simp [roundsUp, fl, ce]
  · rintro rfl; cases neg <;> simp [roundsUp, fl, ce]

/-- `n / d`, with more below it when `sticky`, stands for the magnitude `ρ`. -/
structure QuotientOf (ρ : Rat) (n d : Nat) (sticky : Bool) : Prop where
  pos : 0 < d
  lo : (n : Rat) ≤ ρ * d
  hi : ρ * d < n + 1
  same : sticky = false ↔ ρ * d = n
  even : sticky = true → 2 ∣ d

/-- How the rest of a quotient compares with one half. -/
def restCmp (n d : Nat) (sticky : Bool) : Ordering :=
  if d = 1 then .lt else if 2 * (n % d) < d then .lt else if 2 * (n % d) = d && !sticky then .eq else .gt

theorem roundDiv_eq (rm : Nat) (neg : Bool) (n d : Nat) (sticky : Bool) : roundDiv rm neg n d sticky =
    (if roundsUp rm neg (n / d % 2 == 1) (restCmp n d sticky) (n % d != 0 || sticky) then n / d + 1 else n / d, n % d != 0 || sticky) := rfl

theorem roundsUp_lt_exact (rm : Nat) (neg odd : Bool) : roundsUp rm neg odd .lt false = false := by
  unfold roundsUp; split <;> simp

/-- A quotient without remainder is delivered as it is, under every mode. -/
theorem roundDiv_exact (rm : Nat) (neg : Bool) {n d : Nat} (hd : 0 < d) (h : n % d = 0) :
    roundDiv rm neg n d false = (n / d, false) := by
  have cmp : restCmp n d false = .lt := by simp [restCmp, h, hd]
  simp [roundDiv_eq, cmp, h, roundsUp_lt_exact]

section
variable {ρ : Rat} {n d : Nat} {sticky : Bool} (h : QuotientOf ρ n d sticky)
include h

theorem QuotientOf.pos_rat : (0 : Rat) < d := by exact_mod_cast h.pos

theorem QuotientOf.whole (rem : n % d = 0) (st : sticky = false) : ρ = (n / d : Nat) := by
  have parts : n = d * (n / d) := by have := Nat.div_add_mod n d; omega
  refine mul_right_cancel₀ h.pos_rat.ne' ?_
  rw [h.same.1 st]
  exact_mod_cast parts.trans (mul_comm _ _)

/-- The part of the magnitude above the whole quotient, times the divisor, is at least the remainder, more exactly when `sticky`. -/
theorem QuotientOf.rest : ((n % d : Nat) : Rat) ≤ (ρ - (n / d : Nat)) * d ∧ (ρ - (n / d : Nat)) * d < (n % d : Nat) + 1 ∧
    (sticky = true ↔ ((n % d : Nat) : Rat) < (ρ - (n / d : Nat)) * d) := by
  have parts : (n : Rat) = d * (n / d : Nat) + (n % d : Nat) := by exact_mod_cast (Nat.div_add_mod n d).symm
  have expand : (ρ - (n / d : Nat)) * d = ρ * d - d * (n / d : Nat) := by ring
  have lo := h.lo
  have hi := h.hi
  rw [expand]
  refine ⟨by linarith, by linarith, fun st => ?_, fun lt => ?_⟩
  · have ne : ρ * d ≠ n := fun e => by simp [h.same.2 e] at st
    linarith [lt_of_le_of_ne lo ne.symm]
  · by_contra st
    linarith [h.same.1 (Bool.eq_false_iff.2 st)]

theorem QuotientOf.between (part : ¬(n % d = 0 ∧ sticky = false)) : ((n / d : Nat) : Rat) < ρ ∧ ρ < (n / d : Nat) + 1 := by
  obtain ⟨lo, hi, st⟩ := h.rest
  have small : ((n % d : Nat) : Rat) + 1 ≤ d := by exact_mod_cast Nat.mod_lt n h.pos
  have up : (ρ - (n / d : Nat)) * d < 1 * d := by linarith
  have down : 0 < (ρ - (n / d : Nat)) * d := by
    by_cases rem : n % d = 0
    · have on : sticky = true := by cases sticky <;> simp_all
      have above := st.1 on
      rw [rem] at above
      simpa using above
    · have : (0 : Rat) < (n % d : Nat) := by exact_mod_cast Nat.pos_of_ne_zero rem
      linarith
  exact ⟨by linarith [pos_of_mul_pos_left down h.pos_rat.le], by linarith [lt_of_mul_lt_mul_right up h.pos_rat.le]⟩

/-- How the rest compares with one half is how the magnitude lies against the midpoint of its two integers. -/
theorem QuotientOf.restCmp_spec (part : ¬(n % d = 0 ∧ sticky = false)) :
    (restCmp n d sticky = .lt → 2 * (ρ - (n / d : Nat)) < 1) ∧ (restCmp n d sticky = .eq → 2 * (ρ - (n / d : Nat)) = 1) ∧
      (restCmp n d sticky = .gt → 1 < 2 * (ρ - (n / d : Nat))) := by
  obtain ⟨lo, hi, st⟩ := h.rest
  have d1 : d ≠ 1 := by
    rintro rfl
    have on : sticky = true := by cases sticky <;> simp_all [Nat.mod_one]
    exact absurd (h.even on) (by decide)
  simp only [restCmp, if_neg d1]
  by_cases low : 2 * (n % d) < d
  · simp only [if_pos low, forall_const, reduceCtorEq, false_imp_iff, and_true]
    refine lt_of_mul_lt_mul_right (a := (d : Rat)) ?_ h.pos_rat.le
    cases sticky with
    | false =>
      have e := le_antisymm lo (not_lt.1 fun c => by simpa using st.2 c)
      have : (2 : Rat) * (n % d : Nat) < d := by exact_mod_cast low
      linarith
    | true =>
      have two := h.even rfl
      have : (2 : Rat) * (n % d : Nat) + 2 ≤ d := by exact_mod_cast (show 2 * (n % d) + 2 ≤ d by omega)
      linarith
  · rw [if_neg low]
    by_cases half : (decide (2 * (n % d) = d) && !sticky) = true
    · simp only [if_pos half, forall_const, reduceCtorEq, false_imp_iff, and_true, true_and]
      simp only [Bool.and_eq_true, decide_eq_true_eq, Bool.not_eq_true'] at half
      have e := le_antisymm lo (not_lt.1 fun c => by simp [st.2 c] at half)
      have two : (2 : Rat) * (n % d : Nat) = d := by exact_mod_cast half.1
      refine mul_right_cancel₀ h.pos_rat.ne' ?_
      linarith
    · simp only [if_neg half, forall_const, reduceCtorEq, false_imp_iff, true_and]
      refine lt_of_mul_lt_mul_right (a := (d : Rat)) ?_ h.pos_rat.le
      have le : (d : Rat) ≤ 2 * (n % d : Nat) := by exact_mod_cast not_lt.1 low
      cases sticky with
      | true => linarith [st.1 rfl]
      | false =>
        have ne : 2 * (n % d) ≠ d := by simpa using half
        have : (d : Rat) < 2 * (n % d : Nat) := by exact_mod_cast lt_of_le_of_ne (not_lt.1 low) ne.symm
        linarith

/-- `roundDiv` rounds the magnitude that the quotient stands for, and tells whether that was inexact. -/
theorem roundDiv_spec {rm : Nat} (hrm : rm < 4) (neg : Bool) : RoundsTo rm neg ρ (roundDiv rm neg n d sticky).1 ∧
    ((roundDiv rm neg n d sticky).2 = true ↔ ((roundDiv rm neg n d sticky).1 : Rat) ≠ ρ) := by
  by_cases whole : n % d = 0 ∧ sticky = false
  · obtain ⟨rem, rfl⟩ := whole
    rw [roundDiv_exact rm neg h.pos rem, h.whole rem rfl]
    exact ⟨.of_nat .., by simp⟩
  · obtain ⟨lo, hi⟩ := h.between whole
    obtain ⟨lt, eq, gt⟩ := h.restCmp_spec whole
    have inexact : (n % d != 0 || sticky) = true := by cases sticky <;> simp_all
    rw [roundDiv_eq, inexact]
    refine ⟨.of_between lo hi hrm neg _ lt eq gt, iff_of_true rfl ?_⟩
    split
    · push_cast; exact hi.ne'
    · exact lo.ne

end

end Sys2Proof.Machine
end

section
/-!
A result that takes each of its modes from one rounded magnitude, held at a scale, is the exact value rounded once.
-/
namespace Sys2Proof.Machine
open Sys2Proof.Safety

/-! ### An exact value rounded once (R80, R81, R87) -/

/-- The sign of a value. -/
def signOf (neg : Bool) : Rat := if neg then -1 else 1

theorem apart_eq_abs (a b : Rat) : apart a b = |a - b| := by
  unfold apart
  split
  · next h => rw [abs_sub_comm, abs_of_nonneg (by linarith)]
  · next h => rw [abs_of_pos (by linarith)]

theorem abs_signOf_mul (neg : Bool) (x : Rat) : |signOf neg * x| = |x| := by
  cases neg <;> simp [signOf]

/-- An op that delivers its exact value in every mode, with no flag, rounds it once. -/
theorem roundsOnce_of_exact {value : Nat → Option Rat} {op : Nat → FRes} {z : Rat}
    (all : ∀ rm, rm < 4 → value (op rm).val = some z ∧ (op rm).fl = 0) (same : (op 0).val = (op 2).val ∨ (op 0).val = (op 3).val) :
    roundsOnce value op z := by
  have exact_ {rm : Nat} {v : Rat} (hrm : rm < 4) (h : value (op rm).val = some v) : v = z :=
    Option.some.inj (h.symm.trans (all rm hrm).1)
  refine ⟨fun _ _ => all, fun rm v hrm h => ?_, same, fun v up down h hu hd => ?_⟩
  · rw [exact_ hrm h, (all rm hrm).2]
    simp [bit]
  · rw [exact_ (by omega) h, exact_ (by omega) hu, exact_ (by omega) hd]
    exact ⟨le_rfl, le_rfl⟩

/-- How a family of formats holds a magnitude `ρ · S` of a sign: `enc N` is the word of `N · S`, which has that value up to the largest `lg`. -/
structure Scale where
  value : Nat → Option Rat
  neg : Bool
  S : Rat
  lg : Rat
  enc : Nat → Nat
  /-- the infinity and the largest finite word of the sign -/
  infinity : Nat
  largest : Nat

/-- The values of its words, of those that the magnitude `ρ · S` may round to. -/
structure Scale.Ok (k : Scale) (ρ : Rat) : Prop where
  pos : 0 < k.S
  lg : 0 ≤ k.lg
  enc : ∀ N : Nat, ⌊ρ⌋₊ ≤ N → N ≤ ⌈ρ⌉₊ → N * k.S ≤ k.lg → k.value (k.enc N) = some (signOf k.neg * (N * k.S))
  infinity : k.value k.infinity = none
  largest : k.value k.largest = some (signOf k.neg * k.lg)

/-- The word of a magnitude rounded to `N · S` under mode `rm`: beyond the largest an infinity or the largest, as the mode asks (R80). -/
def Scale.word (k : Scale) (rm N : Nat) : Nat :=
  if N * k.S ≤ k.lg then k.enc N else if overflowsToInf rm k.neg then k.infinity else k.largest

/-- The result of the magnitude `ρ · S` under mode `rm`: the word of what it rounds to, with inexact where that is not exact; beyond the
largest with inexact always. -/
def Scale.Delivers (k : Scale) (rm : Nat) (ρ : Rat) (r : FRes) : Prop :=
  ∃ N : Nat, RoundsTo rm k.neg ρ N ∧ r.val = k.word rm N ∧ (k.lg < N * k.S → bit r.fl 4 = true) ∧
    (N * k.S ≤ k.lg → (bit r.fl 4 = true ↔ (N : Rat) ≠ ρ) ∧ ((N : Rat) = ρ → r.fl = 0))

/-- A mode that gives the largest value where another gives infinity rounds toward zero. -/
theorem RoundsTo.le_of_capped {rm : Nat} (hrm : rm < 4) {neg : Bool} {ρ : Rat} {N : Nat} (rounds : RoundsTo rm neg ρ N)
    (capped : overflowsToInf rm neg = false) : N = ⌊ρ⌋₊ := by
  interval_cases rm
  · simp [overflowsToInf] at capped
  · exact rounds.zero rfl
  · cases neg <;> simp_all [overflowsToInf, rounds.up rfl]
  · cases neg <;> simp_all [overflowsToInf, rounds.down rfl]

theorem RoundsTo.directed {rm : Nat} {neg : Bool} {ρ : Rat} {N : Nat} (h : RoundsTo rm neg ρ N) (nonneg : 0 ≤ ρ) :
    (rm = 1 → (N : Rat) ≤ ρ) ∧ (rm = 2 → signOf neg * ρ ≤ signOf neg * N) ∧ (rm = 3 → signOf neg * N ≤ signOf neg * ρ) := by
  have lo := Nat.floor_le nonneg
  have hi := Nat.le_ceil ρ
  refine ⟨fun e => h.zero e ▸ lo, fun e => ?_, fun e => ?_⟩
  · rw [h.up e]; cases neg <;> simpa [signOf]
  · rw [h.down e]; cases neg <;> simpa [signOf]

section
variable {k : Scale} {ρ : Rat} (ok : k.Ok ρ)
include ok

/-- A finite word is the value rounded to, or the largest under a mode that rounds toward zero. -/
theorem Scale.word_value {rm N : Nat} (rounds : RoundsTo rm k.neg ρ N) {v : Rat} (h : k.value (k.word rm N) = some v) :
    N * k.S ≤ k.lg ∧ v = signOf k.neg * (N * k.S) ∨ k.lg < N * k.S ∧ overflowsToInf rm k.neg = false ∧ v = signOf k.neg * k.lg := by
  unfold Scale.word at h
  by_cases le : N * k.S ≤ k.lg
  · rw [if_pos le, ok.enc N rounds.floor_le rounds.le_ceil le] at h
    exact .inl ⟨le, (Option.some.inj h).symm⟩
  · rw [if_neg le] at h
    cases capped : overflowsToInf rm k.neg with
    | true => simp [capped, ok.infinity] at h
    | false =>
      simp only [capped, Bool.false_eq_true, if_false, ok.largest, Option.some.injEq] at h
      exact .inr ⟨not_le.1 le, rfl, h.symm⟩

variable {op : Nat → FRes} (all : ∀ rm, rm < 4 → k.Delivers rm ρ (op rm))
include all

/-- A magnitude that is an integer multiple of the scale, and no larger than the largest, is delivered in every mode. -/
theorem Scale.delivers_exact {N : Nat} (whole : ρ = N) (small : ρ * k.S ≤ k.lg) {rm : Nat} (hrm : rm < 4) :
    k.value (op rm).val = some (signOf k.neg * (ρ * k.S)) ∧ (op rm).fl = 0 := by
  subst whole
  obtain ⟨M, rounds, val, -, fl⟩ := all rm hrm
  obtain rfl := rounds.eq_of_nat
  exact ⟨by rw [val, Scale.word, if_pos small, ok.enc _ (by simp) (by simp) small], (fl small).2 rfl⟩

/-- A finite result is the value below or above, as its mode asks, with inexact where it differs from the exact one. -/
theorem Scale.delivers_directed (nonneg : 0 ≤ ρ) {rm : Nat} (hrm : rm < 4) {v : Rat} (h : k.value (op rm).val = some v) :
    bit (op rm).fl 4 = decide (v ≠ signOf k.neg * (ρ * k.S)) ∧ ∃ x : Rat, v = signOf k.neg * x ∧ 0 ≤ x ∧
      (rm = 1 → x ≤ ρ * k.S) ∧ (rm = 2 → signOf k.neg * (ρ * k.S) ≤ v) ∧ (rm = 3 → v ≤ signOf k.neg * (ρ * k.S)) := by
  obtain ⟨N, rounds, val, beyond, fl⟩ := all rm hrm
  obtain ⟨toZero, up, down⟩ := rounds.directed nonneg
  have sign : signOf k.neg ≠ 0 := by cases k.neg <;> simp [signOf]
  rw [val] at h
  rcases Scale.word_value ok rounds h with ⟨le, rfl⟩ | ⟨gt, capped, rfl⟩
  · refine ⟨?_, N * k.S, rfl, mul_nonneg N.cast_nonneg ok.pos.le, fun e => ?_, fun e => ?_, fun e => ?_⟩
    · rw [Bool.eq_iff_iff, (fl le).1, decide_eq_true_eq, ne_eq, ne_eq, mul_right_inj' sign, mul_left_inj' ok.pos.ne']
    · exact mul_le_mul_of_nonneg_right (toZero e) ok.pos.le
    · simpa only [mul_assoc] using mul_le_mul_of_nonneg_right (up e) ok.pos.le
    · simpa only [mul_assoc] using mul_le_mul_of_nonneg_right (down e) ok.pos.le
  · have floor := rounds.le_of_capped hrm capped
    have lt : k.lg < ρ * k.S := gt.trans_le (mul_le_mul_of_nonneg_right (floor ▸ Nat.floor_le nonneg) ok.pos.le)
    refine ⟨?_, k.lg, rfl, ok.lg, fun _ => lt.le, fun e => ?_, fun e => ?_⟩
    · rw [beyond gt, eq_comm, decide_eq_true_eq, ne_eq, mul_right_inj' sign]
      exact lt.ne
    · subst e
      cases neg : k.neg with
      | false => simp [neg, overflowsToInf] at capped
      | true => simpa [signOf] using lt.le
    · subst e
      cases neg : k.neg with
      | true => simp [neg, overflowsToInf] at capped
      | false => simpa [signOf] using lt.le

/-- Rounding to nearest gives the result of rounding up or of rounding down. -/
theorem Scale.delivers_one_side : (op 0).val = (op 2).val ∨ (op 0).val = (op 3).val := by
  obtain ⟨n, near, val, -⟩ := all 0 (by omega)
  obtain ⟨u, up, uval, -⟩ := all 2 (by omega)
  obtain ⟨d, down, dval, -⟩ := all 3 (by omega)
  rw [val, uval, dval]
  -- the modes away from zero and toward it, whose integers are the one above and the one below
  have sides : (∃ rm N, (rm = 2 ∧ N = u ∨ rm = 3 ∧ N = d) ∧ N = ⌈ρ⌉₊ ∧ overflowsToInf rm k.neg = true) ∧
      ∃ rm N, (rm = 2 ∧ N = u ∨ rm = 3 ∧ N = d) ∧ N = ⌊ρ⌋₊ := by
    have hu := up.up rfl
    have hd := down.down rfl
    cases neg : k.neg <;> rw [neg] at hu hd
    · exact ⟨⟨2, u, .inl ⟨rfl, rfl⟩, hu, rfl⟩, 3, d, .inr ⟨rfl, rfl⟩, hd⟩
    · exact ⟨⟨3, d, .inr ⟨rfl, rfl⟩, hd, rfl⟩, 2, u, .inl ⟨rfl, rfl⟩, hu⟩
  obtain ⟨⟨away, N, pick, above, infinite⟩, toward, M, pick', below⟩ := sides
  have done (rm N : Nat) (pick : rm = 2 ∧ N = u ∨ rm = 3 ∧ N = d) (e : k.word 0 n = k.word rm N) :
      k.word 0 n = k.word 2 u ∨ k.word 0 n = k.word 3 d := by
    rcases pick with ⟨rfl, rfl⟩ | ⟨rfl, rfl⟩
    · exact .inl e
    · exact .inr e
  by_cases le : n * k.S ≤ k.lg
  · rcases near.near with e | e
    · exact done _ _ pick' (by rw [← e] at below; subst below; simp [Scale.word, le])
    · exact done _ _ pick (by rw [← e] at above; subst above; simp [Scale.word, le])
  · have more : (n : Rat) ≤ N := by exact_mod_cast above ▸ near.le_ceil
    have gt : ¬N * k.S ≤ k.lg := fun h => le ((mul_le_mul_of_nonneg_right more ok.pos.le).trans h)
    have zero : overflowsToInf 0 k.neg = true := rfl
    exact done _ _ pick (by simp [Scale.word, le, gt, infinite, zero])

/-- No finite result lies nearer than that of rounding to nearest. -/
theorem Scale.delivers_nearest {v w : Rat} (h : k.value (op 0).val = some v) {rm : Nat} (hrm : rm < 4)
    (hw : k.value (op rm).val = some w) :
    apart v (signOf k.neg * (ρ * k.S)) ≤ apart w (signOf k.neg * (ρ * k.S)) := by
  obtain ⟨n, near, val, -⟩ := all 0 (by omega)
  obtain ⟨m, other, wval, -⟩ := all rm hrm
  have far (N : Nat) : apart (signOf k.neg * (N * k.S)) (signOf k.neg * (ρ * k.S)) = |(N : Rat) - ρ| * k.S := by
    rw [apart_eq_abs, ← mul_sub, ← sub_mul, abs_signOf_mul, abs_mul, abs_of_pos ok.pos]
  rw [val] at h
  rw [wval] at hw
  obtain ⟨le, rfl⟩ : n * k.S ≤ k.lg ∧ v = signOf k.neg * (n * k.S) := by
    rcases Scale.word_value ok near h with e | ⟨-, capped, -⟩
    · exact e
    · simp [overflowsToInf] at capped
  rcases Scale.word_value ok other hw with ⟨-, rfl⟩ | ⟨gt, capped, -⟩
  · rw [far, far]
    refine mul_le_mul_of_nonneg_right ?_ ok.pos.le
    rcases other.near with rfl | rfl
    · exact (near.nearest rfl).1
    · exact (near.nearest rfl).2
  · have less : (m : Rat) ≤ n := by exact_mod_cast other.le_of_capped hrm capped ▸ near.floor_le
    exact absurd ((mul_le_mul_of_nonneg_right less ok.pos.le).trans le) (not_le.2 gt)

/-- An op that delivers the magnitude `ρ · S` in every mode rounds its value once, given that a word that has it exactly has it as a
multiple of the scale. -/
theorem Scale.roundsOnce (nonneg : 0 ≤ ρ)
    (rep : ∀ x, k.value x = some (signOf k.neg * (ρ * k.S)) → (∃ N : Nat, ρ = N) ∧ ρ * k.S ≤ k.lg) :
    Safety.roundsOnce k.value op (signOf k.neg * (ρ * k.S)) := by
  refine ⟨fun x hx rm hrm => ?_, fun rm v hrm h => ?_, delivers_one_side ok all,
    fun v up down h hu hd => ⟨delivers_nearest ok all h (by omega) hu, delivers_nearest ok all h (by omega) hd⟩⟩
  · obtain ⟨⟨N, whole⟩, small⟩ := rep x hx
    exact delivers_exact ok all whole small hrm
  · obtain ⟨fl, x, rfl, pos, toZero, up, down⟩ := delivers_directed ok all nonneg hrm h
    have y := mul_nonneg nonneg ok.pos.le
    refine ⟨fl, up, down, fun e => ?_⟩
    have le := toZero e
    cases k.neg <;> simp only [signOf, Bool.false_eq_true, if_false, if_true]
    · exact ⟨fun _ => ⟨by linarith, by linarith⟩, fun _ => ⟨by linarith, by linarith⟩⟩
    · exact ⟨fun _ => ⟨by linarith, by linarith⟩, fun _ => ⟨by linarith, by linarith⟩⟩

end

end Sys2Proof.Machine
end

section
/-!
Formats with a given base, precision and range of exponents: a magnitude rounded to the precision, or to the last place of the least
exponent, is a word of the format rounded once. Binary formats have base 2 and decimal64 has base 10.
-/
namespace Sys2Proof.Machine
open Sys2Proof.Safety

/-! ### A magnitude at a last place -/

/-- `m · β^e`, with more below its last digit when `sticky`, stands for the magnitude `μ`. -/
structure Stands (β m : Nat) (e : Int) (sticky : Bool) (μ : Rat) : Prop where
  lo : m * (β : Rat) ^ e ≤ μ
  hi : μ < (m + 1) * (β : Rat) ^ e
  same : sticky = false ↔ μ = m * (β : Rat) ^ e

theorem Stands.exact {β : Nat} (pos : 0 < β) (m : Nat) (e : Int) : Stands β m e false (m * (β : Rat) ^ e) := by
  have : (0 : Rat) < (β : Rat) ^ e := zpow_pos (by exact_mod_cast pos) e
  exact ⟨le_rfl, by linarith, by simp⟩

theorem zpow_toNat {β : Nat} {i : Int} (h : 0 ≤ i) : ((β ^ i.toNat : Nat) : Rat) = (β : Rat) ^ i := by
  push_cast
  rw [← zpow_natCast, Int.toNat_of_nonneg h]

/-- `roundAt` in any base: a magnitude as an integer multiple of `β^q`. -/
def roundBase (β rm : Nat) (neg : Bool) (m : Nat) (e q : Int) (sticky : Bool) : Nat × Bool :=
  if q ≤ e then (m * β ^ (e - q).toNat, sticky) else roundDiv rm neg m (β ^ (q - e).toNat) sticky

theorem roundAt_eq_roundBase : roundAt = roundBase 2 := rfl

theorem roundBase_self (β rm : Nat) (neg : Bool) (m : Nat) (e : Int) (sticky : Bool) : roundBase β rm neg m e e sticky = (m, sticky) := by
  simp [roundBase]

theorem roundBase_spec {β rm : Nat} (hrm : rm < 4) (neg : Bool) {m : Nat} {e q : Int} {sticky : Bool} {μ : Rat} (pos : 0 < β) (even : 2 ∣ β)
    (h : Stands β m e sticky μ) (long : sticky = true → e < q) :
    RoundsTo rm neg (μ / (β : Rat) ^ q) (roundBase β rm neg m e q sticky).1 ∧
      ((roundBase β rm neg m e q sticky).2 = true ↔ ((roundBase β rm neg m e q sticky).1 : Rat) ≠ μ / (β : Rat) ^ q) := by
  have base : (0 : Rat) < β := by exact_mod_cast pos
  unfold roundBase
  by_cases le : q ≤ e
  · have st : sticky = false := Bool.eq_false_iff.2 fun on => absurd (long on) (not_lt.2 le)
    have whole : μ / (β : Rat) ^ q = (m * β ^ (e - q).toNat : Nat) := by
      rw [h.same.1 st, Nat.cast_mul, zpow_toNat (by omega), mul_div_assoc, ← zpow_sub₀ base.ne']
    rw [if_pos le, whole]
    exact ⟨.of_nat .., by simp [st]⟩
  · rw [if_neg le]
    have scale : μ / (β : Rat) ^ q * (β ^ (q - e).toNat : Nat) = μ / (β : Rat) ^ e := by
      rw [zpow_toNat (by omega), zpow_sub₀ base.ne']
      field_simp
    have unit : (0 : Rat) < (β : Rat) ^ e := zpow_pos base e
    refine roundDiv_spec ⟨by positivity, ?_, ?_, ?_, fun _ => even.trans (dvd_pow_self β (by omega))⟩ hrm neg
    · rw [scale, le_div_iff₀ unit]; exact h.lo
    · rw [scale, div_lt_iff₀ unit]; exact h.hi
    · rw [scale, div_eq_iff unit.ne']; exact h.same

/-! ### Formats by base, precision and range -/

/-- A format: base, digits of precision, least and greatest exponent of the last place, what its words denote, and its words. -/
structure Format where
  β : Nat
  p : Nat
  qmin : Int
  qmax : Int
  value : Nat → Option Rat
  pack : Bool → Nat → Int → Nat
  infinity : Bool → Nat
  largest : Bool → Nat

/-- The largest finite magnitude. -/
def Format.lg (F : Format) : Rat := ((F.β ^ F.p - 1 : Nat) : Rat) * (F.β : Rat) ^ F.qmax

/-- Its words denote what they should, and no others are finite. -/
structure Format.Ok (F : Format) : Prop where
  two : 2 ≤ F.β
  even : 2 ∣ F.β
  digit : 1 ≤ F.p
  range : F.qmin ≤ F.qmax
  pack : ∀ neg v q, v < F.β ^ F.p → F.qmin ≤ q → q ≤ F.qmax → (v < F.β ^ (F.p - 1) → q = F.qmin) →
    F.value (F.pack neg v q) = some (signOf neg * (v * (F.β : Rat) ^ q))
  infinity : ∀ neg, F.value (F.infinity neg) = none
  largest : ∀ neg, F.value (F.largest neg) = some (signOf neg * F.lg)
  finite : ∀ x z, F.value x = some z → ∃ (neg : Bool) (m : Nat) (e : Int), z = signOf neg * (m * (F.β : Rat) ^ e) ∧ m < F.β ^ F.p ∧ F.qmin ≤ e ∧ e ≤ F.qmax

/-- An integer at a last place with its carry out of the precision taken. -/
def Format.carry (F : Format) (N : Nat) (q : Int) : Nat × Int := if N = F.β ^ F.p then (F.β ^ (F.p - 1), q + 1) else (N, q)

/-- The last place at which a magnitude of `d` digits is rounded. -/
def Format.place (F : Format) (e : Int) (d : Nat) : Int := max (e + d - F.p) F.qmin

/-- `r` is the result of rounding `m · β^e`, of `d` digits, at its place, with inexact as it is, and overflow beyond the range. -/
def Format.Rounded (F : Format) (rm : Nat) (neg : Bool) (m : Nat) (e : Int) (sticky : Bool) (d : Nat) (r : FRes) : Prop :=
  let n := roundBase F.β rm neg m e (F.place e d) sticky
  let c := F.carry n.1 (F.place e d)
  if F.qmax < c.2 then r = ⟨if overflowsToInf rm neg then F.infinity neg else F.largest neg, flOverflow + flInexact⟩
  else r.val = F.pack neg c.1 c.2 ∧ bit r.fl 4 = n.2 ∧ (n.2 = false → r.fl = 0)

section
variable {F : Format} (ok : F.Ok)
include ok

theorem Format.Ok.base_pos : (0 : Rat) < F.β := by exact_mod_cast (show 0 < F.β by have := ok.two; omega)

theorem Format.Ok.one_lt : (1 : Rat) < F.β := by exact_mod_cast (show 1 < F.β by have := ok.two; omega)

theorem Format.Ok.top : F.β * F.β ^ (F.p - 1) = F.β ^ F.p := by
  rw [← Nat.pow_succ']
  congr 1
  have := ok.digit
  omega

theorem Format.Ok.power_pos (n : Nat) : 0 < F.β ^ n := Nat.pow_pos (by have := ok.two; omega)

theorem Format.lg_lt : F.lg < (F.β : Rat) ^ (F.p + F.qmax) := by
  have := ok.power_pos F.p
  have less : ((F.β ^ F.p - 1 : Nat) : Rat) < (F.β : Rat) ^ (F.p : Int) := by
    rw [zpow_natCast]
    exact_mod_cast (show F.β ^ F.p - 1 < F.β ^ F.p by omega)
  rw [Format.lg, zpow_add₀ ok.base_pos.ne']
  exact mul_lt_mul_of_pos_right less (zpow_pos ok.base_pos _)

/-- A number of `p` digits at a place of the range is no larger than the largest. -/
theorem Format.le_lg {v : Nat} {q : Int} (hv : v < F.β ^ F.p) (hq : q ≤ F.qmax) : v * (F.β : Rat) ^ q ≤ F.lg := by
  refine mul_le_mul ?_ (zpow_le_zpow_right₀ ok.one_lt.le hq) (zpow_pos ok.base_pos _).le (Nat.cast_nonneg _)
  exact_mod_cast (show v ≤ F.β ^ F.p - 1 by omega)

/-- A carry changes no value, keeps the precision, and the result lies in the range exactly where it is not beyond the largest. -/
theorem Format.carry_spec {N : Nat} {q : Int} (le : N ≤ F.β ^ F.p) (low : F.qmin ≤ q) (full : F.qmin < q → F.β ^ (F.p - 1) ≤ N) :
    let c := F.carry N q
    c.1 * (F.β : Rat) ^ c.2 = N * (F.β : Rat) ^ q ∧ c.1 < F.β ^ F.p ∧ F.qmin ≤ c.2 ∧ (c.1 < F.β ^ (F.p - 1) → c.2 = F.qmin) ∧
      (N * (F.β : Rat) ^ q ≤ F.lg ↔ c.2 ≤ F.qmax) := by
  have top := ok.top
  have two := ok.two
  have pos := ok.power_pos (F.p - 1)
  have less : F.β ^ (F.p - 1) < F.β ^ F.p := by rw [← top]; exact lt_mul_of_one_lt_left pos (by omega)
  -- a full number beyond the range is beyond the largest
  have beyond (v : Nat) (q : Int) (hv : F.β ^ (F.p - 1) ≤ v) (hq : F.qmax < q) : ¬v * (F.β : Rat) ^ q ≤ F.lg := by
    have big : (F.β : Rat) ^ ((F.p - 1 : Nat) : Int) ≤ v := by rw [zpow_natCast]; exact_mod_cast hv
    have digit := ok.digit
    rw [not_le]
    calc F.lg < (F.β : Rat) ^ (F.p + F.qmax) := F.lg_lt ok
      _ ≤ (F.β : Rat) ^ (((F.p - 1 : Nat) : Int) + q) := zpow_le_zpow_right₀ ok.one_lt.le (by omega)
      _ = (F.β : Rat) ^ ((F.p - 1 : Nat) : Int) * (F.β : Rat) ^ q := zpow_add₀ ok.base_pos.ne' _ _
      _ ≤ v * (F.β : Rat) ^ q := mul_le_mul_of_nonneg_right big (zpow_pos ok.base_pos _).le
  unfold Format.carry
  by_cases carried : N = F.β ^ F.p
  · have same : ((F.β ^ (F.p - 1) : Nat) : Rat) * (F.β : Rat) ^ (q + 1) = N * (F.β : Rat) ^ q := by
      rw [carried, ← top, zpow_add₀ ok.base_pos.ne', zpow_one]
      push_cast; ring
    rw [if_pos carried]
    refine ⟨same, less, by omega, fun h => absurd h (lt_irrefl _), fun h => ?_, fun h => ?_⟩
    · rw [← same] at h
      exact not_lt.1 fun out => beyond _ _ le_rfl out h
    · rw [← same]; exact F.le_lg ok less h
  · rw [if_neg carried]
    have small : N < F.β ^ F.p := by omega
    refine ⟨rfl, small, low, fun h => ?_, fun h => ?_, fun h => F.le_lg ok small h⟩
    · by_contra ne
      exact absurd (full (by omega)) (not_le.2 h)
    · have range := ok.range
      exact not_lt.1 fun out => beyond _ _ (full (by omega)) out h

variable {m : Nat} {e : Int} {sticky : Bool} {μ : Rat} {d : Nat} (h : Stands F.β m e sticky μ)
  (lo : F.β ^ (d - 1) ≤ m) (hi : m < F.β ^ d) (pos : 0 < d)
include h lo hi pos

/-- At its place a magnitude has no more digits than the precision, and as many unless the place is the least. -/
theorem Format.place_spec : μ / (F.β : Rat) ^ F.place e d < (F.β ^ F.p : Nat) ∧
    (F.qmin ≤ e + d - F.p → ((F.β ^ (F.p - 1) : Nat) : Rat) ≤ μ / (F.β : Rat) ^ F.place e d) := by
  have unit := zpow_pos ok.base_pos (F.place e d)
  have digit := ok.digit
  rw [div_lt_iff₀ unit, le_div_iff₀ unit]
  constructor
  · have le : ((m : Rat) + 1) ≤ (F.β : Rat) ^ (d : Int) := by rw [zpow_natCast]; exact_mod_cast hi
    calc μ < (m + 1) * (F.β : Rat) ^ e := h.hi
      _ ≤ (F.β : Rat) ^ (d : Int) * (F.β : Rat) ^ e := mul_le_mul_of_nonneg_right le (zpow_pos ok.base_pos _).le
      _ = (F.β : Rat) ^ (d + e) := (zpow_add₀ ok.base_pos.ne' _ _).symm
      _ ≤ (F.β : Rat) ^ (F.p + F.place e d) := zpow_le_zpow_right₀ ok.one_lt.le (by unfold Format.place; omega)
      _ = _ := by rw [zpow_add₀ ok.base_pos.ne', zpow_natCast]; push_cast; rfl
  · intro least
    have ge : (F.β : Rat) ^ ((d - 1 : Nat) : Int) ≤ m := by rw [zpow_natCast]; exact_mod_cast lo
    calc ((F.β ^ (F.p - 1) : Nat) : Rat) * (F.β : Rat) ^ F.place e d
        = (F.β : Rat) ^ (((F.p - 1 : Nat) : Int) + F.place e d) := by rw [zpow_add₀ ok.base_pos.ne', zpow_natCast]; push_cast; rfl
      _ = (F.β : Rat) ^ (((d - 1 : Nat) : Int) + e) := by congr 1; unfold Format.place; omega
      _ = (F.β : Rat) ^ ((d - 1 : Nat) : Int) * (F.β : Rat) ^ e := zpow_add₀ ok.base_pos.ne' _ _
      _ ≤ m * (F.β : Rat) ^ e := mul_le_mul_of_nonneg_right ge (zpow_pos ok.base_pos _).le
      _ ≤ μ := h.lo

/-- A magnitude that a word of the format has is an integer multiple of its place. -/
theorem Format.finite_whole {x : Nat} {neg : Bool} (fin : F.value x = some (signOf neg * μ)) :
    (∃ N : Nat, μ / (F.β : Rat) ^ F.place e d = N) ∧ μ ≤ F.lg := by
  obtain ⟨neg', M, q, eq, hM, hmin, hmax⟩ := ok.finite x _ fin
  have nonneg : 0 ≤ μ := (mul_nonneg m.cast_nonneg (zpow_pos ok.base_pos e).le).trans h.lo
  have mag : μ = M * (F.β : Rat) ^ q := by
    have abs := congrArg abs eq
    rwa [abs_signOf_mul, abs_signOf_mul, abs_of_nonneg nonneg,
      abs_of_nonneg (mul_nonneg M.cast_nonneg (zpow_pos ok.base_pos q).le)] at abs
  refine ⟨?_, mag ▸ F.le_lg ok hM hmax⟩
  have ratio : μ / (F.β : Rat) ^ F.place e d = M * (F.β : Rat) ^ (q - F.place e d) := by
    rw [mag, mul_div_assoc, ← zpow_sub₀ ok.base_pos.ne']
  by_cases le : F.place e d ≤ q
  · exact ⟨M * F.β ^ (q - F.place e d).toNat, by rw [ratio, Nat.cast_mul, zpow_toNat (by omega)]⟩
  · -- a shorter place would leave the magnitude fewer digits than it has
    exfalso
    have least : F.qmin ≤ e + d - F.p := by unfold Format.place at le; omega
    have ge := (F.place_spec ok h lo hi pos).2 least
    have shrink : (F.β : Rat) ^ (q - F.place e d) ≤ (F.β : Rat) ^ (-1 : Int) := zpow_le_zpow_right₀ ok.one_lt.le (by omega)
    have less : (M : Rat) < (F.β : Rat) * ((F.β ^ (F.p - 1) : Nat) : Rat) := by exact_mod_cast ok.top ▸ hM
    have : M * (F.β : Rat) ^ (q - F.place e d) < ((F.β ^ (F.p - 1) : Nat) : Rat) :=
      calc M * (F.β : Rat) ^ (q - F.place e d) ≤ M * (F.β : Rat) ^ (-1 : Int) := mul_le_mul_of_nonneg_left shrink M.cast_nonneg
        _ = M / F.β := by rw [zpow_neg_one, div_eq_mul_inv]
        _ < _ := by rw [div_lt_iff₀ ok.base_pos, mul_comm]; exact less
    linarith [ratio]

/-- The words of its magnitudes at a last place. -/
def Format.scale (F : Format) (neg : Bool) (q : Int) : Scale := {
  value := F.value, neg := neg, S := (F.β : Rat) ^ q, lg := F.lg
  enc := fun N => F.pack neg (F.carry N q).1 (F.carry N q).2
  infinity := F.infinity neg, largest := F.largest neg }

/-- What a magnitude may round to at its place has no more digits than the precision, and as many unless the place is the least. -/
theorem Format.rounded_range {N : Nat} (floor : ⌊μ / (F.β : Rat) ^ F.place e d⌋₊ ≤ N) (ceil : N ≤ ⌈μ / (F.β : Rat) ^ F.place e d⌉₊) :
    N ≤ F.β ^ F.p ∧ (F.qmin < F.place e d → F.β ^ (F.p - 1) ≤ N) := by
  obtain ⟨lt, full⟩ := F.place_spec ok h lo hi pos
  refine ⟨ceil.trans (Nat.ceil_le.2 lt.le), fun above => (Nat.le_floor (full ?_)).trans floor⟩
  unfold Format.place at above
  omega

theorem Format.scale_ok (neg : Bool) : (F.scale neg (F.place e d)).Ok (μ / (F.β : Rat) ^ F.place e d) := by
  refine ⟨zpow_pos ok.base_pos _, mul_nonneg (Nat.cast_nonneg _) (zpow_pos ok.base_pos _).le, fun N floor ceil le => ?_, ok.infinity neg,
    ok.largest neg⟩
  obtain ⟨le', full⟩ := F.rounded_range ok h lo hi pos floor ceil
  obtain ⟨same, small, low, least, range⟩ := F.carry_spec ok le' (le_max_right ..) full
  exact (ok.pack neg _ _ small low (range.1 le) least).trans (by rw [same]; rfl)

/-- A rounded magnitude, its carry taken, is full unless its place is the least. -/
theorem Format.rounded_full {rm : Nat} (hrm : rm < 4) (neg : Bool) (long : sticky = true → e < F.place e d) :
    let c := F.carry (roundBase F.β rm neg m e (F.place e d) sticky).1 (F.place e d)
    c.1 < F.β ^ (F.p - 1) → c.2 = F.qmin := by
  obtain ⟨rounds, -⟩ := roundBase_spec hrm neg (by have := ok.two; omega) ok.even h long
  obtain ⟨le, full⟩ := F.rounded_range ok h lo hi pos rounds.floor_le rounds.le_ceil
  exact (F.carry_spec ok le (le_max_right ..) full).2.2.2.1

/-- A format's result of rounding a magnitude at its place is the value rounded once. -/
theorem Format.roundsOnce {neg : Bool} {op : Nat → FRes} (long : sticky = true → e < F.place e d)
    (all : ∀ rm, rm < 4 → F.Rounded rm neg m e sticky d (op rm)) : Safety.roundsOnce F.value op (signOf neg * μ) := by
  have unit := zpow_pos ok.base_pos (F.place e d)
  have nonneg : 0 ≤ μ := (mul_nonneg m.cast_nonneg (zpow_pos ok.base_pos e).le).trans h.lo
  have back : μ / (F.β : Rat) ^ F.place e d * (F.β : Rat) ^ F.place e d = μ := div_mul_cancel₀ μ unit.ne'
  have delivers (rm : Nat) (hrm : rm < 4) : (F.scale neg (F.place e d)).Delivers rm (μ / (F.β : Rat) ^ F.place e d) (op rm) := by
    obtain ⟨rounds, inexact⟩ := roundBase_spec hrm neg (by have := ok.two; omega) ok.even h long
    obtain ⟨le, full⟩ := F.rounded_range ok h lo hi pos rounds.floor_le rounds.le_ceil
    obtain ⟨-, -, -, -, range⟩ := F.carry_spec ok le (le_max_right ..) full
    have result := all rm hrm
    refine ⟨_, rounds, ?_⟩
    unfold Format.Rounded at result
    by_cases out : F.qmax < (F.carry (roundBase F.β rm neg m e (F.place e d) sticky).1 (F.place e d)).2
    · have beyond := fun c => not_lt.2 (range.1 c) out
      simp only [if_pos out] at result
      rw [result]
      exact ⟨(if_neg beyond).symm, fun _ => by simp [bit, flOverflow, flInexact], fun c => absurd c beyond⟩
    · have inside := range.2 (not_lt.1 out)
      simp only [if_neg out] at result
      obtain ⟨val, fl, none⟩ := result
      refine ⟨val.trans (if_pos inside).symm, fun c => absurd inside (not_le.2 c), fun _ => ⟨fl ▸ inexact, fun same => none ?_⟩⟩
      exact Bool.eq_false_iff.2 fun on => inexact.1 on same
  have once := (F.scale neg (F.place e d)).roundsOnce (F.scale_ok ok h lo hi pos neg) delivers (div_nonneg nonneg unit.le) fun x hx => by
    rw [show (F.scale neg (F.place e d)).S = (F.β : Rat) ^ F.place e d from rfl, back] at hx ⊢
    exact F.finite_whole ok h lo hi pos hx
  rwa [show (F.scale neg (F.place e d)).S = (F.β : Rat) ^ F.place e d from rfl, back] at once

end

end Sys2Proof.Machine
end

section
/-!
The binary formats: their words, and their arithmetic as exact values rounded once.
-/
namespace Sys2Proof.Machine
open Sys2Proof.Safety

/-! ### Words of a binary format (R79) -/

/-- The fields of a binary format are wide enough to hold a finite, an infinite and a quiet value. -/
structure BFmt.Ok (b : BFmt) : Prop where
  exponent : 2 ≤ b.ew
  fraction : 1 ≤ b.f

theorem bfmt_ok (code : Nat) : (bfmt code).Ok := by
  unfold bfmt; split <;> exact ⟨by decide, by decide⟩

/-- The value that a sign, an integer and an exponent give. -/
def finValue (β : Nat) (neg : Bool) (m : Nat) (e : Int) : Rat := signOf neg * (m * (β : Rat) ^ e)

theorem binaryValue_eq_some {b : BFmt} {x : Nat} {z : Rat} :
    binaryValue b x = some z ↔ ∃ neg m e, b.read x = .fin neg m e ∧ z = finValue 2 neg m e := by
  unfold binaryValue
  cases b.read x with
  | nan s => simp
  | inf n => simp
  | fin n m e => simp [finValue, signOf, eq_comm]

theorem binaryValue_of_fin {b : BFmt} {x : Nat} {neg : Bool} {m : Nat} {e : Int} (h : b.read x = .fin neg m e) :
    binaryValue b x = some (finValue 2 neg m e) := binaryValue_eq_some.2 ⟨_, _, _, h, rfl⟩

section
variable {b : BFmt} (ok : b.Ok)
include ok

theorem BFmt.Ok.two_le_emax : 2 ≤ b.emax := by
  have : 2 ^ 2 ≤ 2 ^ b.ew := Nat.pow_le_pow_right (by omega) ok.exponent
  unfold BFmt.emax; omega

/-- The fields of a word, read back. -/
theorem BFmt.fields (neg : Bool) {E fr : Nat} (hE : E < 2 ^ b.ew) (hfr : fr < 2 ^ b.f) :
    let x := b.signBit neg + E * 2 ^ b.f + fr
    bit x (b.ew + b.f) = neg ∧ bits x (b.ew + b.f - 1) b.f = E ∧ x % 2 ^ b.f = fr := by
  have unit : 0 < 2 ^ b.f := Nat.two_pow_pos _
  have split_ : b.signBit neg + E * 2 ^ b.f + fr = (neg.toNat * 2 ^ b.ew + E) * 2 ^ b.f + fr := by
    cases neg <;> simp [BFmt.signBit, Nat.pow_add, Nat.add_mul]
  have high : ((neg.toNat * 2 ^ b.ew + E) * 2 ^ b.f + fr) / 2 ^ b.f = neg.toNat * 2 ^ b.ew + E := by
    rw [Nat.add_comm, Nat.add_mul_div_right _ _ unit, Nat.div_eq_of_lt hfr, Nat.zero_add]
  have sign : (neg.toNat * 2 ^ b.ew + E) / 2 ^ b.ew = neg.toNat := by
    rw [Nat.add_comm, Nat.add_mul_div_right _ _ (Nat.two_pow_pos _), Nat.div_eq_of_lt hE, Nat.zero_add]
  have e := ok.exponent
  simp only [split_]
  refine ⟨?_, ?_, ?_⟩
  · rw [bit, Nat.add_comm b.ew, Nat.pow_add, ← Nat.div_div_eq_div_mul, high, sign]
    cases neg <;> rfl
  · rw [bits, high, show b.ew + b.f - 1 + 1 - b.f = b.ew by omega, Nat.mul_comm, Nat.mul_add_mod, Nat.mod_eq_of_lt hE]
  · rw [Nat.mul_comm, Nat.mul_add_mod, Nat.mod_eq_of_lt hfr]

theorem BFmt.read_subnormal (neg : Bool) {fr : Nat} (hfr : fr < 2 ^ b.f) : b.read (b.signBit neg + fr) = .fin neg fr b.emin := by
  obtain ⟨hs, hE, hf⟩ := b.fields ok neg (E := 0) (Nat.two_pow_pos _) hfr
  rw [Nat.zero_mul, Nat.add_zero] at hs hE hf
  have := ok.two_le_emax
  simp only [BFmt.read, hs, hE, hf]
  rw [if_neg (by omega), if_pos trivial]

theorem BFmt.read_normal (neg : Bool) {E fr : Nat} (pos : 0 < E) (hE : E < b.emax) (hfr : fr < 2 ^ b.f) :
    b.read (b.signBit neg + E * 2 ^ b.f + fr) = .fin neg (fr + 2 ^ b.f) (b.emin + (E - 1 : Nat)) := by
  obtain ⟨hs, he, hf⟩ := b.fields ok neg (E := E) (by unfold BFmt.emax at hE; omega) hfr
  simp only [BFmt.read, hs, he, hf]
  rw [if_neg (by omega), if_neg (by omega)]

theorem BFmt.read_infinity (neg : Bool) : b.read (b.infinity neg) = .inf neg := by
  have := ok.two_le_emax
  obtain ⟨hs, he, hf⟩ := b.fields ok neg (E := b.emax) (by unfold BFmt.emax at *; omega) (Nat.two_pow_pos _)
  rw [Nat.add_zero] at hs he hf
  simp only [BFmt.read, BFmt.infinity, hs, he, hf, if_true]

/-- A magnitude that fits the precision, laid out, is read back. -/
theorem BFmt.read_pack (neg : Bool) {v : Nat} {q : Int} (hv : v < 2 ^ (b.f + 1)) (least : b.emin ≤ q) (most : q ≤ b.emin + b.emax - 2)
    (full : v < 2 ^ b.f → q = b.emin) : b.read (b.pack neg v q) = .fin neg v q := by
  have := ok.two_le_emax
  have two : 2 ^ (b.f + 1) = 2 * 2 ^ b.f := Nat.pow_succ'
  unfold BFmt.pack
  by_cases low : v < 2 ^ b.f
  · rw [if_pos low, b.read_subnormal ok neg low, full low]
  · have word : b.signBit neg + (q - b.emin).toNat * 2 ^ b.f + v = b.signBit neg + ((q - b.emin).toNat + 1) * 2 ^ b.f + (v - 2 ^ b.f) := by
      rw [Nat.add_mul]; omega
    rw [if_neg low, word, b.read_normal ok neg (by omega) (by omega) (by omega)]
    congr 1 <;> omega

theorem BFmt.exponent_le (x : Nat) : bits x (b.ew + b.f - 1) b.f ≤ b.emax := by
  have e := ok.exponent
  have lt : bits x (b.ew + b.f - 1) b.f < 2 ^ (b.ew + b.f - 1 + 1 - b.f) := Nat.mod_lt _ (Nat.two_pow_pos _)
  rw [show b.ew + b.f - 1 + 1 - b.f = b.ew by omega] at lt
  unfold BFmt.emax; omega

/-- What a finite word denotes, by its fields. -/
theorem BFmt.read_eq_fin {x : Nat} {neg : Bool} {m : Nat} {e : Int} (h : b.read x = .fin neg m e) :
    neg = bit x (b.ew + b.f) ∧ (bits x (b.ew + b.f - 1) b.f = 0 ∧ m = x % 2 ^ b.f ∧ e = b.emin ∨
      0 < bits x (b.ew + b.f - 1) b.f ∧ bits x (b.ew + b.f - 1) b.f < b.emax ∧ m = x % 2 ^ b.f + 2 ^ b.f ∧
        e = b.emin + (bits x (b.ew + b.f - 1) b.f - 1 : Nat)) := by
  have le := b.exponent_le ok x
  unfold BFmt.read at h
  dsimp only at h
  split at h
  · split at h <;> cases h
  · split at h
    · next zero => cases h; exact ⟨rfl, .inl ⟨zero, rfl, rfl⟩⟩
    · cases h; exact ⟨rfl, .inr ⟨by omega, by omega, rfl, rfl⟩⟩

/-- A finite word denotes an integer of the precision at a place of the range. -/
theorem BFmt.read_fin_range {x : Nat} {neg : Bool} {m : Nat} {e : Int} (h : b.read x = .fin neg m e) :
    m < 2 ^ (b.f + 1) ∧ b.emin ≤ e ∧ e ≤ b.emin + b.emax - 2 ∧ (m < 2 ^ b.f → e = b.emin) := by
  have two : 2 ^ (b.f + 1) = 2 * 2 ^ b.f := Nat.pow_succ'
  have fr := Nat.mod_lt x (Nat.two_pow_pos b.f)
  have := ok.two_le_emax
  obtain ⟨-, ⟨-, rfl, rfl⟩ | ⟨pos, lt, rfl, rfl⟩⟩ := b.read_eq_fin ok h
  · exact ⟨by omega, le_rfl, by omega, fun _ => rfl⟩
  · exact ⟨by omega, by omega, by omega, fun c => by omega⟩

/-- A finite word of the format is the layout of what it denotes. -/
theorem BFmt.pack_read {x : Nat} (hx : x < 2 ^ b.width) {neg : Bool} {m : Nat} {e : Int} (h : b.read x = .fin neg m e) :
    b.pack neg m e = x := by
  have ew := ok.exponent
  have fr := Nat.mod_lt x (Nat.two_pow_pos b.f)
  have field : bits x (b.ew + b.f - 1) b.f = x / 2 ^ b.f % 2 ^ b.ew := by
    rw [bits, show b.ew + b.f - 1 + 1 - b.f = b.ew by omega]
  have sign : bit x (b.ew + b.f) = (x / 2 ^ b.f / 2 ^ b.ew % 2 == 1) := by
    rw [bit, Nat.add_comm b.ew, Nat.pow_add, Nat.div_div_eq_div_mul]
  have high : x / 2 ^ b.f / 2 ^ b.ew < 2 := by
    rw [Nat.div_div_eq_div_mul, ← Nat.pow_add]
    refine Nat.div_lt_of_lt_mul ?_
    rw [BFmt.width] at hx
    rw [← Nat.pow_succ]
    convert hx using 2
    omega
  -- the word by its fields
  have word : x = b.signBit neg + bits x (b.ew + b.f - 1) b.f * 2 ^ b.f + x % 2 ^ b.f := by
    have signed : b.signBit neg = x / 2 ^ b.f / 2 ^ b.ew * 2 ^ b.ew * 2 ^ b.f := by
      rw [(b.read_eq_fin ok h).1, sign, BFmt.signBit]
      rcases Nat.le_one_iff_eq_zero_or_eq_one.1 (Nat.le_of_lt_succ high) with c | c <;> simp [c, Nat.pow_add]
    rw [signed, field, ← Nat.add_mul, Nat.div_add_mod', Nat.div_add_mod']
  obtain ⟨-, ⟨zero, rfl, rfl⟩ | ⟨pos, lt, rfl, rfl⟩⟩ := b.read_eq_fin ok h
  · rw [zero] at word
    rw [BFmt.pack, if_pos fr]
    omega
  · have place : (b.emin + ((bits x (b.ew + b.f - 1) b.f - 1 : Nat) : Int) - b.emin).toNat = bits x (b.ew + b.f - 1) b.f - 1 := by omega
    rw [BFmt.pack, if_neg (by omega), place, Nat.sub_mul]
    have : 2 ^ b.f ≤ bits x (b.ew + b.f - 1) b.f * 2 ^ b.f := Nat.le_mul_of_pos_left _ pos
    omega

end

/-- A binary format by base, precision and range. -/
def BFmt.format (b : BFmt) : Format := {
  β := 2, p := b.f + 1, qmin := b.emin, qmax := b.emin + b.emax - 2
  value := binaryValue b, pack := b.pack, infinity := b.infinity, largest := b.largest }

theorem BFmt.largest_eq_pack {b : BFmt} (ok : b.Ok) (neg : Bool) : b.largest neg = b.pack neg (2 ^ (b.f + 1) - 1) (b.emin + b.emax - 2) := by
  have := ok.two_le_emax
  have two : 2 ^ (b.f + 1) = 2 * 2 ^ b.f := Nat.pow_succ'
  have pos := Nat.two_pow_pos b.f
  have place : (b.emin + (b.emax : Int) - 2 - b.emin).toNat = b.emax - 2 := by omega
  have step : (b.emax - 1) * 2 ^ b.f = (b.emax - 2) * 2 ^ b.f + 2 ^ b.f := by
    rw [show b.emax - 1 = b.emax - 2 + 1 by omega, Nat.add_mul, Nat.one_mul]
  rw [BFmt.largest, BFmt.pack, if_neg (by omega), place]
  omega

theorem BFmt.format_ok {b : BFmt} (ok : b.Ok) : b.format.Ok := by
  have emax := ok.two_le_emax
  refine ⟨le_rfl, dvd_rfl, by simp [BFmt.format], by simp only [BFmt.format]; omega, fun neg v q hv least most full => ?_, fun neg => ?_,
    fun neg => ?_, fun x z hx => ?_⟩
  · exact binaryValue_of_fin (b.read_pack ok neg hv least most full)
  · simp only [BFmt.format, binaryValue, b.read_infinity ok]
  · simp only [BFmt.format, b.largest_eq_pack ok]
    have pos := Nat.two_pow_pos b.f
    have two : 2 ^ (b.f + 1) = 2 * 2 ^ b.f := Nat.pow_succ'
    exact binaryValue_of_fin (b.read_pack ok neg (by omega) (by omega) le_rfl fun c => by omega)
  · obtain ⟨neg, m, e, read, rfl⟩ := binaryValue_eq_some.1 hx
    obtain ⟨fits, least, most, -⟩ := b.read_fin_range ok read
    exact ⟨neg, m, e, rfl, fits, least, most⟩

/-! ### Rounding to a binary format (R80, R81) -/

theorem bitLen_bounds {m : Nat} (h : m ≠ 0) : 2 ^ (bitLen m - 1) ≤ m ∧ m < 2 ^ bitLen m ∧ 0 < bitLen m := by
  rw [bitLen, if_neg h]
  exact ⟨Nat.log2_self_le h, Nat.lt_log2_self, by omega⟩

/-- A carry as the model takes it. -/
theorem Format.carry_eq {F : Format} (pos : 0 < F.β) (digit : 1 ≤ F.p) (N : Nat) (q : Int) :
    F.carry N q = (if N == F.β ^ F.p then N / F.β else N, if N == F.β ^ F.p then q + 1 else q) := by
  have top : F.β ^ F.p / F.β = F.β ^ (F.p - 1) := by rw [← Nat.pow_sub_one pos.ne' (by omega)]
  unfold Format.carry
  by_cases carried : N = F.β ^ F.p <;> simp [carried, top]

/-- The result of `round`, by what its magnitude is at its place and with its carry taken. -/
theorem BFmt.round_eq (b : BFmt) (rm : Nat) (neg : Bool) (m : Nat) (e : Int) (sticky : Bool) :
    let n := roundBase 2 rm neg m e (b.format.place e (bitLen m)) sticky
    let c := b.format.carry n.1 (b.format.place e (bitLen m))
    ∃ tiny : Bool, b.round rm neg m e sticky =
      if 2 ^ b.f ≤ c.1 ∧ b.emax ≤ c.2 - b.emin + 1 then
        ⟨if overflowsToInf rm neg then b.infinity neg else b.largest neg, flOverflow + flInexact⟩
      else ⟨b.pack neg c.1 c.2, (if n.2 then flInexact else 0) + (if tiny && n.2 then flUnderflow else 0)⟩ := by
  refine ⟨e + bitLen m ≤ b.emin + b.f &&
    (roundAt rm neg m e (e + bitLen m - (b.f + 1 : Nat)) sticky).1 < 2 ^ (b.emin + b.f - (e + bitLen m - (b.f + 1 : Nat))).toNat, ?_⟩
  rw [b.format.carry_eq (show 0 < 2 by omega) (Nat.le_add_left ..), ← roundAt_eq_roundBase]
  simp only [BFmt.round, Bool.and_eq_true, decide_eq_true_eq]
  rfl

/-- Inexact is read from the flags of a rounded result, tiny or not. -/
theorem bit_inexact : ∀ inexact tiny : Bool,
    bit ((if inexact then flInexact else 0) + (if tiny && inexact then flUnderflow else 0)) 4 = inexact := by
  decide

/-- The result of `round` is the format's result of rounding its magnitude at its place. -/
theorem BFmt.round_rounded {b : BFmt} (ok : b.Ok) {rm : Nat} (hrm : rm < 4) (neg : Bool) {m : Nat} {e : Int} {sticky : Bool} {μ : Rat} (nz : m ≠ 0)
    (h : Stands 2 m e sticky μ) (long : sticky = true → e < b.format.place e (bitLen m)) :
    b.format.Rounded rm neg m e sticky (bitLen m) (b.round rm neg m e sticky) := by
  obtain ⟨lo, hi, pos⟩ := bitLen_bounds nz
  have full : (b.format.carry (roundBase 2 rm neg m e (b.format.place e (bitLen m)) sticky).1 (b.format.place e (bitLen m))).1 < 2 ^ b.f →
      (b.format.carry (roundBase 2 rm neg m e (b.format.place e (bitLen m)) sticky).1 (b.format.place e (bitLen m))).2 = b.emin :=
    b.format.rounded_full (b.format_ok ok) h lo hi pos hrm neg long
  have emax := ok.two_le_emax
  obtain ⟨tiny, eq⟩ := b.round_eq rm neg m e sticky
  rw [eq, Format.Rounded, show b.format.β = 2 from rfl]
  generalize b.format.place e (bitLen m) = q at full ⊢
  generalize roundBase 2 rm neg m e q sticky = n at full ⊢
  generalize b.format.carry n.1 q = c at full ⊢
  have out : (2 ^ b.f ≤ c.1 ∧ b.emax ≤ c.2 - b.emin + 1) ↔ b.format.qmax < c.2 := by
    show _ ↔ b.emin + b.emax - 2 < c.2
    omega
  by_cases beyond : b.format.qmax < c.2
  · rw [if_pos (out.2 beyond), if_pos beyond]
    rfl
  · rw [if_neg (mt out.1 beyond), if_neg beyond]
    exact ⟨rfl, bit_inexact n.2 tiny, fun none => by simp [none]⟩

/-! ### Exact results -/

theorem BFmt.value_signBit {b : BFmt} (ok : b.Ok) (neg : Bool) : binaryValue b (b.signBit neg) = some 0 := by
  have := binaryValue_of_fin (b.read_subnormal ok neg (Nat.two_pow_pos b.f))
  simpa [finValue] using this

/-- A nonzero magnitude is rounded once. -/
theorem BFmt.round_roundsOnce {b : BFmt} (ok : b.Ok) (neg : Bool) {m : Nat} {e : Int} {sticky : Bool} {μ : Rat} (nz : m ≠ 0)
    (h : Stands 2 m e sticky μ) (long : sticky = true → e < b.format.place e (bitLen m)) :
    roundsOnce (binaryValue b) (b.round · neg m e sticky) (signOf neg * μ) := by
  obtain ⟨lo, hi, pos⟩ := bitLen_bounds nz
  exact b.format.roundsOnce (b.format_ok ok) h lo hi pos long fun rm hrm => b.round_rounded ok hrm neg nz h long

theorem BFmt.round_exact_roundsOnce {b : BFmt} (ok : b.Ok) (neg : Bool) {m : Nat} (e : Int) (nz : m ≠ 0) :
    roundsOnce (binaryValue b) (b.round · neg m e false) (finValue 2 neg m e) :=
  b.round_roundsOnce ok neg nz (Stands.exact (by omega) m e) (by simp)

/-- An exact magnitude, zero included, is rounded once. -/
theorem BFmt.make_roundsOnce {b : BFmt} (ok : b.Ok) (neg : Bool) (m : Nat) (e : Int) :
    roundsOnce (binaryValue b) (b.make · neg m e false) (finValue 2 neg m e) := by
  by_cases zero : m = 0
  · subst zero
    refine roundsOnce_of_exact (fun rm _ => ?_) (.inl rfl)
    simpa [BFmt.make, finValue] using b.value_signBit ok neg
  · simpa [BFmt.make, zero] using b.round_exact_roundsOnce ok neg e zero

/-- A finite word's own place is the place at which its magnitude is rounded. -/
theorem BFmt.place_of_read {b : BFmt} (ok : b.Ok) {x : Nat} {neg : Bool} {m : Nat} {e : Int} (nz : m ≠ 0) (h : b.read x = .fin neg m e) :
    b.format.place e (bitLen m) = e := by
  obtain ⟨lo, hi, pos⟩ := bitLen_bounds nz
  obtain ⟨fits, least, -, full⟩ := b.read_fin_range ok h
  have le : bitLen m - 1 < b.f + 1 := (Nat.pow_lt_pow_iff_right (by omega)).1 (lo.trans_lt fits)
  show max (e + bitLen m - (b.f + 1 : Nat)) b.emin = e
  by_cases low : m < 2 ^ b.f
  · have := full low; omega
  · have : b.f < bitLen m := (Nat.pow_lt_pow_iff_right (by omega)).1 ((not_lt.1 low).trans_lt hi)
    omega

theorem representable_round_to_themselves : representableBinaryValuesRoundToThemselves := by
  intro code rm x neg m e _ _ _ nz hx read
  have ok := bfmt_ok code
  obtain ⟨fits, least, most, full⟩ := (bfmt code).read_fin_range ok read
  have carry : (bfmt code).format.carry m e = (m, e) := if_neg fits.ne
  obtain ⟨tiny, eq⟩ := (bfmt code).round_eq rm neg m e false
  rw [(bfmt code).place_of_read ok nz read, roundBase_self, carry] at eq
  simp only [BFmt.make, nz, decide_false, Bool.false_and, Bool.false_eq_true, if_false]
  rw [eq, if_neg (by omega), (bfmt code).pack_read ok hx read]
  simp

end Sys2Proof.Machine
end

section
/-!
The arithmetic of the binary formats, and the exact sums and quotients of both families.
-/
namespace Sys2Proof.Machine
open Sys2Proof.Safety

/-! ### Exact sums and quotients in any base -/

theorem finValue_flip (β : Nat) (neg : Bool) (m : Nat) (e : Int) : finValue β (!neg) m e = -finValue β neg m e := by
  cases neg <;> simp [finValue, signOf]

/-- A product of two values. -/
theorem finValue_mul {β : Nat} (pos : 0 < β) (n1 : Bool) (m1 : Nat) (e1 : Int) (n2 : Bool) (m2 : Nat) (e2 : Int) :
    finValue β n1 m1 e1 * finValue β n2 m2 e2 = finValue β (n1 != n2) (m1 * m2) (e1 + e2) := by
  have base : (β : Rat) ≠ 0 := by exact_mod_cast pos.ne'
  have sign : signOf n1 * signOf n2 = signOf (n1 != n2) := by cases n1 <;> cases n2 <;> simp [signOf]
  simp only [finValue, ← sign, zpow_add₀ base, Nat.cast_mul]
  ring

/-- A quotient of two values. -/
theorem finValue_div (β : Nat) (n1 : Bool) (m1 : Nat) (e1 : Int) (n2 : Bool) (m2 : Nat) (e2 : Int) :
    finValue β n1 m1 e1 / finValue β n2 m2 e2 = signOf (n1 != n2) * (m1 * (β : Rat) ^ e1 / (m2 * (β : Rat) ^ e2)) := by
  have sign : signOf n1 / signOf n2 = signOf (n1 != n2) := by cases n1 <;> cases n2 <;> simp [signOf]
  rw [finValue, finValue, mul_div_mul_comm, sign]

/-- The exact signed sum of two values over the smaller exponent, in any base. -/
def sumBase (β : Nat) (n1 : Bool) (m1 : Nat) (e1 : Int) (n2 : Bool) (m2 : Nat) (e2 : Int) : Int × Int :=
  let e := min e1 e2
  let a : Int := (m1 * β ^ (e1 - e).toNat : Nat)
  let c : Int := (m2 * β ^ (e2 - e).toNat : Nat)
  ((if n1 then -a else a) + (if n2 then -c else c), e)

theorem sumFin_eq_sumBase : sumFin = sumBase 2 := rfl

theorem dSumFin_eq_sumBase : dSumFin = sumBase 10 := rfl

/-- A value over a smaller exponent. -/
theorem finValue_shift {β : Nat} (pos : 0 < β) (neg : Bool) (m : Nat) {e g : Int} (le : g ≤ e) :
    ((if neg then -((m * β ^ (e - g).toNat : Nat) : Int) else ((m * β ^ (e - g).toNat : Nat) : Int) : Int) : Rat) * (β : Rat) ^ g =
      finValue β neg m e := by
  have base : (β : Rat) ≠ 0 := by exact_mod_cast pos.ne'
  have mag : ((m * β ^ (e - g).toNat : Nat) : Rat) * (β : Rat) ^ g = m * (β : Rat) ^ e := by
    rw [Nat.cast_mul, zpow_toNat (by omega), mul_assoc, ← zpow_add₀ base, sub_add_cancel]
  cases neg
  · simpa [finValue, signOf] using mag
  · simpa [finValue, signOf] using mag

theorem sumBase_value {β : Nat} (pos : 0 < β) (n1 : Bool) (m1 : Nat) (e1 : Int) (n2 : Bool) (m2 : Nat) (e2 : Int) :
    ((sumBase β n1 m1 e1 n2 m2 e2).1 : Rat) * (β : Rat) ^ (sumBase β n1 m1 e1 n2 m2 e2).2 = finValue β n1 m1 e1 + finValue β n2 m2 e2 := by
  rw [← finValue_shift pos n1 m1 (min_le_left e1 e2), ← finValue_shift pos n2 m2 (min_le_right e1 e2), ← add_mul, ← Int.cast_add]
  rfl

/-- A signed integer at an exponent, by its sign and its magnitude. -/
theorem finValue_natAbs (β : Nat) (z e : Int) : finValue β (z < 0) z.natAbs e = z * (β : Rat) ^ e := by
  rw [finValue, ← mul_assoc, signOf, Nat.cast_natAbs]
  congr 1
  by_cases neg : z < 0
  · simp [neg, abs_of_neg neg]
  · simp [neg, abs_of_nonneg (not_lt.1 neg)]

/-- The whole quotient of two magnitudes, `k` digits on, stands for their quotient. -/
theorem Stands.quotient {β : Nat} (pos : 0 < β) (m : Nat) {n : Nat} (hn : 0 < n) (k : Nat) (e g : Int) :
    Stands β (m * β ^ k / n) (e - g - k) (m * β ^ k % n != 0) (m * (β : Rat) ^ e / (n * (β : Rat) ^ g)) := by
  have base : (0 : Rat) < β := by exact_mod_cast pos
  have unit : (0 : Rat) < (β : Rat) ^ (e - g - k) := zpow_pos base _
  have div : (0 : Rat) < n := by exact_mod_cast hn
  have value : m * (β : Rat) ^ e / (n * (β : Rat) ^ g) = ((m * β ^ k : Nat) : Rat) / n * (β : Rat) ^ (e - g - k) := by
    rw [zpow_sub₀ base.ne', zpow_sub₀ base.ne', zpow_natCast]
    push_cast
    field_simp
  have parts : ((m * β ^ k : Nat) : Rat) = n * (m * β ^ k / n : Nat) + (m * β ^ k % n : Nat) := by exact_mod_cast (Nat.div_add_mod _ _).symm
  have less : ((m * β ^ k % n : Nat) : Rat) < n := by exact_mod_cast Nat.mod_lt _ hn
  have nonneg : (0 : Rat) ≤ (m * β ^ k % n : Nat) := Nat.cast_nonneg _
  rw [value]
  refine ⟨mul_le_mul_of_nonneg_right ?_ unit.le, mul_lt_mul_of_pos_right ?_ unit, ?_⟩
  · rw [le_div_iff₀ div, parts]; linarith
  · rw [div_lt_iff₀ div, parts]; linarith
  · rw [mul_left_inj' unit.ne', div_eq_iff div.ne', parts, bne_eq_false_iff_eq, mul_comm (n : Rat), add_eq_left, Nat.cast_eq_zero]

/-! ### Binary arithmetic -/

section
variable {b : BFmt} (ok : b.Ok)
include ok

theorem BFmt.sum_roundsOnce (n1 : Bool) (m1 : Nat) (e1 : Int) (n2 : Bool) (m2 : Nat) (e2 : Int) :
    roundsOnce (binaryValue b) (b.sum · (.fin n1 m1 e1) (.fin n2 m2 e2)) (finValue 2 n1 m1 e1 + finValue 2 n2 m2 e2) := by
  have value := sumBase_value (β := 2) (by omega) n1 m1 e1 n2 m2 e2
  rw [← sumFin_eq_sumBase] at value
  by_cases zero : (sumFin n1 m1 e1 n2 m2 e2).1 = 0
  · rw [← value, zero, Int.cast_zero, zero_mul]
    refine roundsOnce_of_exact (fun rm _ => ?_) (.inl ?_)
    · simpa [BFmt.sum, zero] using b.value_signBit ok _
    · simp [BFmt.sum, zero]
  · rw [← value, ← finValue_natAbs]
    simpa [BFmt.sum, zero] using b.round_exact_roundsOnce ok _ (sumFin n1 m1 e1 n2 m2 e2).2 (Int.natAbs_ne_zero.2 zero)

theorem BFmt.fDiv_roundsOnce {x y : Nat} {s t : Bool} {m n : Nat} {e g : Int} (hx : b.read x = .fin s m e) (hy : b.read y = .fin t n g)
    (nz : n ≠ 0) : roundsOnce (binaryValue b) (fDiv b · x y) (finValue 2 s m e / finValue 2 t n g) := by
  rw [finValue_div]
  by_cases zero : m = 0
  · subst zero
    simpa [fDiv, hx, hy, nz, finValue] using b.make_roundsOnce ok (s != t) 0 (e - g - (b.f + 4 + bitLen n : Nat))
  · obtain ⟨-, hn, -⟩ := bitLen_bounds nz
    have long : 2 ^ (b.f + 4) ≤ m * 2 ^ (b.f + 4 + bitLen n) / n := by
      rw [Nat.le_div_iff_mul_le (by omega), Nat.pow_add 2 (b.f + 4)]
      calc 2 ^ (b.f + 4) * n ≤ 2 ^ (b.f + 4) * 2 ^ bitLen n := Nat.mul_le_mul_left _ hn.le
        _ ≤ m * (2 ^ (b.f + 4) * 2 ^ bitLen n) := Nat.le_mul_of_pos_left _ (by omega)
    have some_ : m * 2 ^ (b.f + 4 + bitLen n) / n ≠ 0 := by have := Nat.two_pow_pos (b.f + 4); omega
    obtain ⟨-, hi, -⟩ := bitLen_bounds some_
    have digits : b.f + 4 < bitLen (m * 2 ^ (b.f + 4 + bitLen n) / n) := (Nat.pow_lt_pow_iff_right (by omega)).1 (long.trans_lt hi)
    have once := b.round_roundsOnce ok (s != t) some_ (Stands.quotient (β := 2) (by omega) m (by omega) (b.f + 4 + bitLen n) e g) fun _ =>
      lt_of_lt_of_le (by simp only [BFmt.format]; omega) (le_max_left ..)
    simpa only [fDiv, hx, hy, nz, if_false, BFmt.make, some_, decide_false, Bool.false_and, Bool.false_eq_true] using once

end

/-- Sums, differences, products, quotients and fused products of a binary format are exact values rounded once. -/
theorem binary_arithmetic_roundsOnce {b : BFmt} (ok : b.Ok) {x y z : Nat} {u v w : Rat} (hu : binaryValue b x = some u)
    (hv : binaryValue b y = some v) (hw : binaryValue b z = some w) :
    roundsOnce (binaryValue b) (fAdd b · x y) (u + v) ∧ roundsOnce (binaryValue b) (fSub b · x y) (u - v) ∧
    roundsOnce (binaryValue b) (fMul b · x y) (u * v) ∧ (v ≠ 0 → roundsOnce (binaryValue b) (fDiv b · x y) (u / v)) ∧
    roundsOnce (binaryValue b) (fMulAdd b · x y z) (u * v + w) := by
  obtain ⟨n1, m1, e1, hx, rfl⟩ := binaryValue_eq_some.1 hu
  obtain ⟨n2, m2, e2, hy, rfl⟩ := binaryValue_eq_some.1 hv
  obtain ⟨n3, m3, e3, hz, rfl⟩ := binaryValue_eq_some.1 hw
  refine ⟨?_, ?_, ?_, fun nz => b.fDiv_roundsOnce ok hx hy ?_, ?_⟩
  · simpa only [fAdd, hx, hy] using b.sum_roundsOnce ok n1 m1 e1 n2 m2 e2
  · rw [sub_eq_add_neg, ← finValue_flip]
    simpa only [fSub, hx, hy, BNum.flip] using b.sum_roundsOnce ok n1 m1 e1 (!n2) m2 e2
  · rw [finValue_mul (by omega)]
    simpa only [fMul, hx, hy, mulNum] using b.make_roundsOnce ok (n1 != n2) (m1 * m2) (e1 + e2)
  · rintro rfl
    simp [finValue] at nz
  · rw [finValue_mul (by omega)]
    simpa only [fMulAdd, hx, hy, hz, mulNum] using b.sum_roundsOnce ok (n1 != n2) (m1 * m2) (e1 + e2) n3 m3 e3

end Sys2Proof.Machine
end

section
/-!
Compares by value, and conversions between number formats.
-/
namespace Sys2Proof.Machine
open Sys2Proof.Safety

/-! ### Compares (R83) -/

/-- How two values lie. -/
def orderOf (u v : Rat) : Ordering := if u < v then .lt else if u = v then .eq else .gt

/-- The model's reading of a condition code is the specification's. -/
theorem condOrd_eq_floatHolds {c : Nat} (hc : c < 8) (o : Option Ordering) : condOrd c o = floatHolds c o := by
  rcases o with _ | _ | _ | _ <;> interval_cases c <;> rfl

/-- The sign of an exact difference orders two values. -/
theorem sumBase_order {β : Nat} (pos : 0 < β) (n1 : Bool) (m1 : Nat) (e1 : Int) (n2 : Bool) (m2 : Nat) (e2 : Int) :
    (let z := (sumBase β n1 m1 e1 (!n2) m2 e2).1
      if z < 0 then Ordering.lt else if z = 0 then .eq else .gt) = orderOf (finValue β n1 m1 e1) (finValue β n2 m2 e2) := by
  have unit : (0 : Rat) < (β : Rat) ^ (sumBase β n1 m1 e1 (!n2) m2 e2).2 := zpow_pos (by exact_mod_cast pos) _
  have value := sumBase_value pos n1 m1 e1 (!n2) m2 e2
  rw [finValue_flip, ← sub_eq_add_neg] at value
  have lt : (sumBase β n1 m1 e1 (!n2) m2 e2).1 < 0 ↔ finValue β n1 m1 e1 < finValue β n2 m2 e2 := by
    rw [← sub_neg (a := finValue β n1 m1 e1), ← value, mul_neg_iff]
    simp only [unit, unit.not_gt, and_false, and_true, false_or, Int.cast_lt_zero]
  have eq : (sumBase β n1 m1 e1 (!n2) m2 e2).1 = 0 ↔ finValue β n1 m1 e1 = finValue β n2 m2 e2 := by
    rw [← sub_eq_zero (a := finValue β n1 m1 e1), ← value, mul_eq_zero_iff_right unit.ne', Int.cast_eq_zero]
  simp only [orderOf, lt, eq]

theorem fCompare_finite {b : BFmt} {c x y : Nat} {u v : Rat} (hc : c < 8) (hu : binaryValue b x = some u) (hv : binaryValue b y = some v) :
    fCompare b c x y = (floatHolds c (some (orderOf u v)), 0) := by
  obtain ⟨n1, m1, e1, hx, rfl⟩ := binaryValue_eq_some.1 hu
  obtain ⟨n2, m2, e2, hy, rfl⟩ := binaryValue_eq_some.1 hv
  have order : cmpFin n1 m1 e1 n2 m2 e2 = orderOf _ _ := sumBase_order (β := 2) (by omega) n1 m1 e1 n2 m2 e2
  simp [fCompare, hx, hy, cmpNum, order, condOrd_eq_floatHolds hc, condInvalid, BNum.isNan, BNum.isSnan]

/-- A NaN is unordered with everything. -/
theorem cmpNum_nan {u v : BNum} {g : Bool} (h : u = .nan g ∨ v = .nan g) :
    cmpNum u v = none ∧ (u.isNan || v.isNan) = true ∧ (g = true → (u.isSnan || v.isSnan) = true) := by
  rcases h with rfl | rfl
  · exact ⟨rfl, rfl, by rintro rfl; rfl⟩
  · cases u <;> exact ⟨rfl, by simp [BNum.isNan], by rintro rfl; simp [BNum.isSnan]⟩

theorem fCompare_nan {b : BFmt} {c x y : Nat} (hc : c < 8) {g : Bool} (h : b.read x = .nan g ∨ b.read y = .nan g) :
    (fCompare b c x y).1 = floatHolds c none ∧ (g = true ∨ (2 ≤ c ∧ c ≤ 5) → (fCompare b c x y).2 = 1) := by
  obtain ⟨unordered, nan, snan⟩ := cmpNum_nan h
  refine ⟨by rw [fCompare, unordered, condOrd_eq_floatHolds hc], fun raises => ?_⟩
  have invalid : condInvalid c true ((b.read x).isSnan || (b.read y).isSnan) = true := by
    rcases raises with on | range
    · simp [condInvalid, snan on]
    · simp [condInvalid, range]
  simp [fCompare, nan, invalid, flInvalid]

/-! ### Conversions (R84) -/

/-- A quotient that is an integer of the range converts to it, under every mode. -/
theorem toIntType_exact (rm : Nat) {code : Nat} {neg : Bool} {n d : Nat} {k : Int} (hd : 0 < d) (value : signOf neg * ((n : Rat) / d) = k)
    (lo : intMin code ≤ k) (hi : k ≤ intMax code) : toIntType rm code neg n d = ⟨ofInt (intWidth code) k, 0⟩ := by
  have div : (d : Rat) ≠ 0 := by exact_mod_cast hd.ne'
  have scaled : (n : Int) = (if neg then -k else k) * d := by
    have : (n : Rat) = (if neg then -k else k : Int) * d := by
      cases neg <;> simp [signOf] at value ⊢ <;> rw [← value] <;> field_simp
    exact_mod_cast this
  have whole : n % d = 0 := by
    have : (n : Int) % d = 0 := by rw [scaled, Int.mul_emod_left]
    exact_mod_cast this
  have quotient : ((n / d : Nat) : Int) = if neg then -k else k := by
    rw [Int.natCast_div, scaled, Int.mul_ediv_cancel _ (by omega)]
  have back : (if neg then -((n / d : Nat) : Int) else ((n / d : Nat) : Int)) = k := by rw [quotient]; cases neg <;> simp
  simp only [toIntType, roundDiv_exact rm neg hd whole, back]
  rw [if_neg (by omega), if_neg (by omega)]
  rfl

/-- A finite binary value that is an integer of the range converts to it. -/
theorem numToInt_exact (rm : Nat) {code : Nat} {neg : Bool} {m : Nat} {e k : Int} (value : finValue 2 neg m e = k)
    (lo : intMin code ≤ k) (hi : k ≤ intMax code) : numToInt rm code (.fin neg m e) = ⟨ofInt (intWidth code) k, 0⟩ := by
  rw [finValue] at value
  by_cases le : 0 ≤ e
  · simp only [numToInt, if_pos le]
    refine toIntType_exact rm (by omega) ?_ lo hi
    rw [← value, Nat.cast_mul, zpow_toNat le, Nat.cast_one, div_one]
  · simp only [numToInt, if_neg le]
    refine toIntType_exact rm (Nat.two_pow_pos _) ?_ lo hi
    rw [← value, zpow_toNat (by omega), zpow_neg, div_inv_eq_mul]

theorem fConvert_roundsOnce {src dst x : Nat} {z : Rat} (hs : 8 ≤ src) (hd : 8 ≤ dst) (hz : binaryValue (bfmt src) x = some z) :
    roundsOnce (binaryValue (bfmt dst)) (fConvert · src dst x) z := by
  obtain ⟨neg, m, e, hx, rfl⟩ := binaryValue_eq_some.1 hz
  simpa only [fConvert, hs, hd, if_true, hx, BFmt.convert] using (bfmt dst).make_roundsOnce (bfmt_ok dst) neg m e

theorem fConvert_to_integer {src dst x : Nat} {k : Int} (rm : Nat) (hs : 8 ≤ src) (hd : dst < 8) (hz : binaryValue (bfmt src) x = some (k : Rat))
    (lo : intMin dst ≤ k) (hi : k ≤ intMax dst) : fConvert rm src dst x = ⟨(k % 2 ^ intWidth dst).toNat, 0⟩ := by
  obtain ⟨neg, m, e, hx, value⟩ := binaryValue_eq_some.1 hz
  simp only [fConvert, hs, not_le.2 hd, if_true, if_false, hx]
  exact numToInt_exact rm value.symm lo hi

/-- The value of the low bits of a word as an integer of a type. -/
def typedInt (code x : Nat) : Int := if code < 4 then toSigned (intWidth code) x else ((x % 2 ^ intWidth code : Nat) : Int)

theorem typedInt_cast (code x : Nat) : (typedInt code x : Rat) =
    if code < 4 ∧ 2 ^ intWidth code ≤ 2 * (x % 2 ^ intWidth code) then ((x % 2 ^ intWidth code : Nat) : Rat) - 2 ^ intWidth code
    else ((x % 2 ^ intWidth code : Nat) : Rat) := by
  have width : 0 < intWidth code := by have := Nat.two_pow_pos (code % 4); unfold intWidth; omega
  have half : 2 ^ intWidth code = 2 * 2 ^ (intWidth code - 1) := by rw [← Nat.pow_succ']; congr 1; omega
  unfold typedInt toSigned
  dsimp only
  generalize x % 2 ^ intWidth code = y
  by_cases signed : code < 4
  · by_cases low : y < 2 ^ (intWidth code - 1)
    · rw [if_pos signed, if_pos low, if_neg (by omega), Int.cast_natCast]
    · rw [if_pos signed, if_neg low, if_pos (by omega)]
      push_cast; rfl
  · rw [if_neg signed, if_neg (by omega), Int.cast_natCast]

theorem fConvert_from_integer {src : Nat} (dst x : Nat) (hs : src < 8) :
    roundsOnce (binaryValue (bfmt dst)) (fConvert · src dst x) (typedInt src x) := by
  have once := (bfmt dst).make_roundsOnce (bfmt_ok dst) (typedInt src x < 0) (typedInt src x).natAbs 0
  rw [finValue_natAbs, zpow_zero, mul_one] at once
  simp only [fConvert, not_le.2 hs, if_false]
  exact once

end Sys2Proof.Machine
end

section
/-!
decimal64: its words, and its arithmetic as exact values rounded once.
-/
namespace Sys2Proof.Machine
open Sys2Proof.Safety

/-! ### Words of decimal64 (R85, R86) -/

theorem decimalValue_eq_some {x : Nat} {z : Rat} :
    decimalValue x = some z ↔ ∃ neg c q, dRead x = .fin neg c q ∧ z = finValue 10 neg c q := by
  unfold decimalValue
  cases dRead x with
  | nan s => simp
  | inf n => simp
  | fin n c q => simp [finValue, signOf, eq_comm]

theorem decimalValue_of_fin {x : Nat} {neg : Bool} {c : Nat} {q : Int} (h : dRead x = .fin neg c q) :
    decimalValue x = some (finValue 10 neg c q) := decimalValue_eq_some.2 ⟨_, _, _, h, rfl⟩

theorem dSign_eq (neg : Bool) : dSign neg = neg.toNat * 2 ^ 63 := by cases neg <;> rfl

/-- The sign bit stands above all others. -/
theorem bit63_of_sign (neg : Bool) {y : Nat} (hy : y < 2 ^ 63) : bit (neg.toNat * 2 ^ 63 + y) 63 = neg := by
  have high : (neg.toNat * 2 ^ 63 + y) / 2 ^ 63 = neg.toNat := by omega
  rw [bit, high]
  cases neg <;> rfl

/-- A word whose coefficient has its leading bits in the word. -/
theorem dRead_short {x : Nat} (top : bits x 62 58 < 30) (two : bits x 62 61 ≠ 3) :
    dRead x = .fin (bit x 63) (bits x 52 0) ((bits x 62 53 : Nat) - 398) := by
  have fits : bits x 52 0 < 10 ^ 16 := by unfold bits; omega
  simp only [dRead]
  rw [if_neg (by omega), if_neg (by omega), beq_eq_false_iff_ne.2 two]
  simp only [Bool.false_eq_true, if_false, if_pos fits]

/-- A word whose coefficient has its leading bits implied. -/
theorem dRead_long {x : Nat} (top : bits x 62 58 < 30) (two : bits x 62 61 = 3) :
    dRead x = .fin (bit x 63) (if 2 ^ 53 + bits x 50 0 < 10 ^ 16 then 2 ^ 53 + bits x 50 0 else 0) ((bits x 60 51 : Nat) - 398) := by
  simp only [dRead]
  rw [if_neg (by omega), if_neg (by omega), beq_iff_eq.2 two]
  simp only [if_true]

/-- A coefficient and an exponent of the range, laid out, are read back. -/
theorem dRead_dPack (neg : Bool) {c : Nat} {q : Int} (hc : c < 10 ^ 16) (least : -398 ≤ q) (most : q ≤ 369) :
    dRead (dPack neg c q) = .fin neg c q := by
  obtain ⟨e, rfl⟩ : ∃ e : Nat, q = e - 398 := ⟨(q + 398).toNat, by omega⟩
  have he : e < 768 := by omega
  have field : ((e : Int) - 398 + 398).toNat = e := by omega
  have sign : neg.toNat ≤ 1 := Bool.toNat_le neg
  unfold dPack
  rw [dSign_eq, field]
  by_cases small : c < 2 ^ 53
  · have fields := bit63_of_sign neg (y := e * 2 ^ 53 + c) (by omega)
    rw [← Nat.add_assoc] at fields
    rw [if_pos small, dRead_short (by unfold bits; omega) (by unfold bits; omega), fields]
    congr 1 <;> unfold bits <;> omega
  · have fields := bit63_of_sign neg (y := 3 * 2 ^ 61 + e * 2 ^ 51 + (c - 2 ^ 53)) (by omega)
    rw [← Nat.add_assoc, ← Nat.add_assoc] at fields
    rw [if_neg small, dRead_long (by unfold bits; omega) (by unfold bits; omega), fields]
    congr 1
    · rw [if_pos] <;> unfold bits <;> omega
    · unfold bits; omega

/-- A finite word denotes a coefficient of 16 digits and an exponent of the range. -/
theorem dRead_fin_range {x : Nat} {neg : Bool} {c : Nat} {q : Int} (h : dRead x = .fin neg c q) : c < 10 ^ 16 ∧ -398 ≤ q ∧ q ≤ 369 := by
  have top : bits x 62 58 < 30 := by
    unfold dRead at h
    dsimp only at h
    split at h
    · cases h
    · split at h
      · cases h
      · unfold bits at *; omega
  by_cases two : bits x 62 61 = 3
  · rw [dRead_long top two] at h
    simp only [DNum.fin.injEq] at h
    obtain ⟨-, rfl, rfl⟩ := h
    unfold bits at *
    refine ⟨?_, by omega, by omega⟩
    split <;> omega
  · rw [dRead_short top two] at h
    simp only [DNum.fin.injEq] at h
    obtain ⟨-, rfl, rfl⟩ := h
    unfold bits at *
    exact ⟨by omega, by omega, by omega⟩

theorem dRead_dInf (neg : Bool) : dRead (dInf neg) = .inf neg := by cases neg <;> decide

/-- decimal64 by base, precision and range. -/
def decimalFormat : Format := {
  β := 10, p := 16, qmin := -398, qmax := 369, value := decimalValue, pack := dPack, infinity := dInf, largest := dLargest }

theorem decimalFormat_power : decimalFormat.β ^ decimalFormat.p = 10 ^ 16 := rfl

theorem decimalFormat_value : decimalFormat.value = decimalValue := rfl

theorem decimalFormat_words : decimalFormat.pack = dPack ∧ decimalFormat.infinity = dInf ∧ decimalFormat.largest = dLargest := ⟨rfl, rfl, rfl⟩

theorem decimalValue_dLargest (neg : Bool) : decimalValue (dLargest neg) = some (signOf neg * decimalFormat.lg) := by
  rw [Format.lg, decimalFormat_power]
  exact decimalValue_of_fin (dRead_dPack neg (c := 10 ^ 16 - 1) (q := 369) (by omega) (by omega) le_rfl)

theorem decimalFormat_ok : decimalFormat.Ok := by
  obtain ⟨pack, infinity, largest⟩ := decimalFormat_words
  refine ⟨by decide, by decide, by decide, by decide, fun neg v q hv least most _ => ?_, fun neg => ?_, fun neg => ?_, fun x z hx => ?_⟩
  · rw [decimalFormat_power] at hv
    rw [decimalFormat_value, pack]
    exact decimalValue_of_fin (dRead_dPack neg hv least most)
  · rw [decimalFormat_value, infinity, decimalValue, dRead_dInf]
  · rw [decimalFormat_value, largest, decimalValue_dLargest]
  · rw [decimalFormat_value] at hx
    obtain ⟨neg, c, q, read, rfl⟩ := decimalValue_eq_some.1 hx
    obtain ⟨fits, least, most⟩ := dRead_fin_range read
    rw [decimalFormat_power]
    exact ⟨neg, c, q, rfl, fits, least, most⟩

/-! ### Rounding to decimal64 (R87) -/

theorem digitsFrom_bounds {k n : Nat} (hn : n < 2 ^ k) :
    n < 10 ^ digitsFrom k n ∧ 0 < digitsFrom k n ∧ (n ≠ 0 → 10 ^ (digitsFrom k n - 1) ≤ n) := by
  induction k generalizing n with
  | zero =>
    simp only [digitsFrom]
    omega
  | succ k ih =>
    unfold digitsFrom
    by_cases one : n < 10
    · rw [if_pos one]
      omega
    · obtain ⟨hi, pos, lo⟩ := ih (n := n / 10) (by omega)
      have low := lo (by omega)
      have step : 10 ^ digitsFrom k (n / 10) = 10 * 10 ^ (digitsFrom k (n / 10) - 1) := by rw [← Nat.pow_succ']; congr 1; omega
      rw [if_neg one, Nat.pow_succ', Nat.add_sub_cancel]
      omega

theorem digits_bounds {n : Nat} (nz : n ≠ 0) : 10 ^ (digits n - 1) ≤ n ∧ n < 10 ^ digits n ∧ 0 < digits n := by
  obtain ⟨hi, pos, lo⟩ := digitsFrom_bounds (bitLen_bounds nz).2.1
  exact ⟨lo nz, hi, pos⟩

/-- The result of step 3 of R87, by what its magnitude is at its place and with its carry taken. -/
theorem dRound_eq (rm : Nat) (neg : Bool) (m : Nat) (e : Int) (sticky : Bool) :
    let n := roundBase 10 rm neg m e (decimalFormat.place e (digits m)) sticky
    let c := decimalFormat.carry n.1 (decimalFormat.place e (digits m))
    ∃ tiny : Bool, dRound rm neg m e sticky =
      if 369 < c.2 then ⟨if overflowsToInf rm neg then dInf neg else dLargest neg, flOverflow + flInexact⟩
      else ⟨dPack neg c.1 c.2, (if n.2 then flInexact else 0) + (if tiny && n.2 then flUnderflow else 0)⟩ := by
  refine ⟨e + digits m - 16 ≤ -398 &&
    (roundBase 10 rm neg m e (e + digits m - 16) sticky).1 < 10 ^ (-383 - (e + digits m - 16)).toNat, ?_⟩
  rw [decimalFormat.carry_eq (show 0 < 10 by omega) (show 1 ≤ 16 by omega)]
  rfl

theorem dRound_rounded (rm : Nat) (neg : Bool) (m : Nat) (e : Int) (sticky : Bool) :
    decimalFormat.Rounded rm neg m e sticky (digits m) (dRound rm neg m e sticky) := by
  obtain ⟨tiny, eq⟩ := dRound_eq rm neg m e sticky
  rw [eq, Format.Rounded, show decimalFormat.β = 10 from rfl]
  rw [show decimalFormat.qmax = 369 from rfl]
  generalize decimalFormat.place e (digits m) = q
  generalize roundBase 10 rm neg m e q sticky = n
  generalize decimalFormat.carry n.1 q = c
  by_cases beyond : 369 < c.2
  · rw [if_pos beyond, if_pos beyond]
    rfl
  · rw [if_neg beyond, if_neg beyond]
    exact ⟨rfl, bit_inexact n.2 tiny, fun none => by simp [none]⟩

theorem stripZeros_value (k n z : Nat) : (stripZeros k n z).1 * 10 ^ (stripZeros k n z).2 = n * 10 ^ z := by
  induction k generalizing n z with
  | zero => rfl
  | succ k ih =>
    unfold stripZeros
    split
    · next zero =>
      rw [ih, Nat.pow_succ', ← Nat.mul_assoc]
      congr 1
      omega
    · rfl

theorem dClampExp_range (q : Int) : -398 ≤ dClampExp q ∧ dClampExp q ≤ 369 := by
  unfold dClampExp; omega

theorem decimalValue_zero (neg : Bool) (q : Int) : decimalValue (dPack neg 0 (dClampExp q)) = some 0 := by
  obtain ⟨least, most⟩ := dClampExp_range q
  have := decimalValue_of_fin (dRead_dPack neg (c := 0) (by decide) least most)
  simpa [finValue] using this

/-- The word that R87 chooses where a magnitude, stripped of its zeros, fits: any exponent between the bounds gives its value. -/
theorem decimalValue_chosen (neg : Bool) {s : Nat} (nz : s ≠ 0) {g q : Int} (few : digits s ≤ 16)
    (lo : max (-398) (g - (16 - digits s : Nat)) ≤ q) (hi : q ≤ min 369 g) :
    decimalValue (dPack neg (s * 10 ^ (g - q).toNat) q) = some (finValue 10 neg s g) := by
  obtain ⟨-, less, -⟩ := digits_bounds nz
  have fits : s * 10 ^ (g - q).toNat < 10 ^ 16 := by
    calc s * 10 ^ (g - q).toNat < 10 ^ digits s * 10 ^ (g - q).toNat := Nat.mul_lt_mul_of_pos_right less (Nat.pow_pos (by omega))
      _ = 10 ^ (digits s + (g - q).toNat) := (Nat.pow_add ..).symm
      _ ≤ 10 ^ 16 := Nat.pow_le_pow_right (by omega) (by omega)
  rw [decimalValue_of_fin (dRead_dPack neg fits (by omega) (by omega)), finValue, finValue, Nat.cast_mul, zpow_toNat (by omega), mul_assoc,
    ← zpow_add₀ (by norm_num), sub_add_cancel]

/-- A nonzero magnitude is rounded once. -/
theorem dMake_roundsOnce (neg : Bool) {m : Nat} {e : Int} {sticky : Bool} {μ : Rat} (pref : Int) (nz : m ≠ 0) (h : Stands 10 m e sticky μ)
    (long : sticky = true → e < decimalFormat.place e (digits m)) :
    roundsOnce decimalValue (dMake · neg m e sticky pref) (signOf neg * μ) := by
  have strip := stripZeros_value (digits m) m 0
  simp only [dMake, nz, decide_false, Bool.false_and, Bool.false_eq_true, if_false]
  generalize stripZeros (digits m) m 0 = s at strip ⊢
  by_cases rounds : (sticky || decide (16 < digits s.1) || decide (min 369 (e + s.2) < max (-398) (e + s.2 - (16 - digits s.1 : Nat)))) = true
  · simp only [rounds, if_true]
    obtain ⟨lo, hi, pos⟩ := digits_bounds nz
    exact decimalFormat.roundsOnce decimalFormat_ok h lo hi pos long fun rm _ => dRound_rounded rm neg m e sticky
  · simp only [Bool.not_eq_true, Bool.or_eq_false_iff, decide_eq_false_iff_not, not_lt] at rounds
    obtain ⟨⟨rfl, few⟩, order⟩ := rounds
    have value : signOf neg * μ = finValue 10 neg s.1 (e + s.2) := by
      have mag : (s.1 : Rat) * 10 ^ s.2 = m := by exact_mod_cast (strip.trans (Nat.mul_one m))
      rw [finValue, h.same.1 rfl, ← mag, add_comm, zpow_add₀ (by norm_num), zpow_natCast, mul_assoc]
      rfl
    have some_ : s.1 ≠ 0 := by
      intro zero
      rw [zero, Nat.zero_mul] at strip
      omega
    rw [value]
    simp only [not_lt.2 few, not_lt.2 order, decide_false, Bool.or_false, Bool.false_eq_true, if_false]
    refine roundsOnce_of_exact (fun rm _ => ?_) (.inl rfl)
    exact ⟨decimalValue_chosen neg some_ few (le_max_left ..) (by omega), rfl⟩

/-- An exact magnitude, zero included, is rounded once. -/
theorem dMake_exact_roundsOnce (neg : Bool) (m : Nat) (e pref : Int) :
    roundsOnce decimalValue (dMake · neg m e false pref) (finValue 10 neg m e) := by
  by_cases zero : m = 0
  · subst zero
    simp only [dMake, decide_true, Bool.not_false, Bool.and_self, if_true]
    refine roundsOnce_of_exact (fun rm _ => ?_) (.inl rfl)
    simpa [finValue] using decimalValue_zero neg pref
  · exact dMake_roundsOnce neg pref zero (Stands.exact (by omega) m e) (by simp)

/-! ### Decimal arithmetic -/

theorem dSum_roundsOnce (n1 : Bool) (c1 : Nat) (q1 : Int) (n2 : Bool) (c2 : Nat) (q2 : Int) :
    roundsOnce decimalValue (dSum · (.fin n1 c1 q1) (.fin n2 c2 q2)) (finValue 10 n1 c1 q1 + finValue 10 n2 c2 q2) := by
  have value := sumBase_value (β := 10) (by omega) n1 c1 q1 n2 c2 q2
  rw [← dSumFin_eq_sumBase] at value
  by_cases zero : (dSumFin n1 c1 q1 n2 c2 q2).1 = 0
  · rw [← value, zero, Int.cast_zero, zero_mul]
    refine roundsOnce_of_exact (fun rm _ => ?_) (.inl ?_)
    · simpa [dSum, zero] using decimalValue_zero _ _
    · simp [dSum, zero]
  · rw [← value, ← finValue_natAbs]
    simpa [dSum, zero] using dMake_exact_roundsOnce (decide ((dSumFin n1 c1 q1 n2 c2 q2).1 < 0)) (dSumFin n1 c1 q1 n2 c2 q2).1.natAbs
      (dSumFin n1 c1 q1 n2 c2 q2).2 (min q1 q2)

theorem dDiv_roundsOnce {x y : Nat} {s t : Bool} {c d : Nat} {q r : Int} (hx : dRead x = .fin s c q) (hy : dRead y = .fin t d r)
    (nz : d ≠ 0) : roundsOnce decimalValue (dDiv · x y) (finValue 10 s c q / finValue 10 t d r) := by
  rw [finValue_div]
  by_cases zero : c = 0
  · subst zero
    simpa [dDiv, hx, hy, nz, finValue] using dMake_exact_roundsOnce (s != t) 0 (q - r - 40) (q - r)
  · obtain ⟨hd, -⟩ := dRead_fin_range hy
    have long : 10 ^ 24 ≤ c * 10 ^ 40 / d := by
      rw [Nat.le_div_iff_mul_le (by omega)]
      omega
    have some_ : c * 10 ^ 40 / d ≠ 0 := by omega
    obtain ⟨-, hi, -⟩ := digits_bounds some_
    have many : 24 < digits (c * 10 ^ 40 / d) := (Nat.pow_lt_pow_iff_right (by omega)).1 (long.trans_lt hi)
    have once := dMake_roundsOnce (s != t) (q - r) some_ (Stands.quotient (β := 10) (by omega) c (by omega) 40 q r) fun _ =>
      lt_of_lt_of_le (by simp only [decimalFormat]; omega) (le_max_left ..)
    simp only [dDiv, hx, hy, nz, if_false]
    exact once

/-- Sums, differences, products, quotients and fused products of decimal64 are exact values rounded once. -/
theorem decimal_arithmetic_roundsOnce {x y z : Nat} {u v w : Rat} (hu : decimalValue x = some u) (hv : decimalValue y = some v)
    (hw : decimalValue z = some w) :
    roundsOnce decimalValue (dAdd · x y) (u + v) ∧ roundsOnce decimalValue (dSub · x y) (u - v) ∧
    roundsOnce decimalValue (dMul · x y) (u * v) ∧ (v ≠ 0 → roundsOnce decimalValue (dDiv · x y) (u / v)) ∧
    roundsOnce decimalValue (dMulAdd · x y z) (u * v + w) := by
  obtain ⟨n1, m1, e1, hx, rfl⟩ := decimalValue_eq_some.1 hu
  obtain ⟨n2, m2, e2, hy, rfl⟩ := decimalValue_eq_some.1 hv
  obtain ⟨n3, m3, e3, hz, rfl⟩ := decimalValue_eq_some.1 hw
  refine ⟨?_, ?_, ?_, fun nz => dDiv_roundsOnce hx hy ?_, ?_⟩
  · simpa only [dAdd, hx, hy] using dSum_roundsOnce n1 m1 e1 n2 m2 e2
  · rw [sub_eq_add_neg, ← finValue_flip]
    simpa only [dSub, hx, hy, DNum.flip] using dSum_roundsOnce n1 m1 e1 (!n2) m2 e2
  · rw [finValue_mul (by omega)]
    simpa only [dMul, hx, hy, dMulNum] using dMake_exact_roundsOnce (n1 != n2) (m1 * m2) (e1 + e2) (e1 + e2)
  · rintro rfl
    simp [finValue] at nz
  · rw [finValue_mul (by omega)]
    simpa only [dMulAdd, hx, hy, hz, dMulNum] using dSum_roundsOnce (n1 != n2) (m1 * m2) (e1 + e2) n3 m3 e3

theorem dCompare_finite {c x y : Nat} {u v : Rat} (hc : c < 8) (hu : decimalValue x = some u) (hv : decimalValue y = some v) :
    dCompare c x y = (floatHolds c (some (orderOf u v)), 0) := by
  obtain ⟨n1, m1, e1, hx, rfl⟩ := decimalValue_eq_some.1 hu
  obtain ⟨n2, m2, e2, hy, rfl⟩ := decimalValue_eq_some.1 hv
  have order : dCmpNum (.fin n1 m1 e1) (.fin n2 m2 e2) = some (orderOf _ _) :=
    congrArg some (sumBase_order (β := 10) (by omega) n1 m1 e1 n2 m2 e2)
  simp [dCompare, hx, hy, order, condOrd_eq_floatHolds hc, condInvalid, DNum.isNan, DNum.isSnan]

/-- Settles O10: a format's rounding takes a magnitude at its last place to the integer below or above, and its words hold that. -/
theorem binaryAndDecimalArithmeticRoundsOnce : Obligations.BinaryAndDecimalArithmeticRoundsOnce := by
  refine ⟨representable_round_to_themselves, ⟨?_, ?_⟩, ?_, ?_, ?_⟩
  · exact fun code a b c u v w _ _ hu hv hw => binary_arithmetic_roundsOnce (bfmt_ok code) hu hv hw
  · exact fun a b c u v w hu hv hw => decimal_arithmetic_roundsOnce hu hv hw
  · exact fun code c a b u v _ _ hc => ⟨fCompare_finite hc, dCompare_finite hc, fun g => fCompare_nan hc⟩
  · rintro src dst x z hs - hz
    refine ⟨fun hd _ => fConvert_roundsOnce hs hd hz, ?_⟩
    rintro k rm hd - rfl lo hi
    exact fConvert_to_integer rm hs hd hz lo hi
  · intro src dst x hs _ _
    rw [← typedInt_cast]
    exact fConvert_from_integer dst x hs

end Sys2Proof.Machine
end

section
/-!
Lanes: what a lane reads after its vector is built, and the integer functions of the lane ops on lanes of any width.
-/
namespace Sys2Proof.Machine
open Sys2Proof.Safety

/-! ### Lanes (R75) -/

theorem lane_lt (w i : Nat) (v : Vec) : lane w i v < 2 ^ w := Nat.mod_lt _ (Nat.two_pow_pos w)

theorem joinNat_digit (w : Nat) (l : List Nat) (i : Nat) : joinNat w l / 2 ^ (w * i) % 2 ^ w = l.getD i 0 % 2 ^ w := by
  induction l generalizing i with
  | nil => simp [joinNat]
  | cons x xs ih =>
    cases i with
    | zero => simp [joinNat]
    | succ i =>
      have low : (x % 2 ^ w + 2 ^ w * joinNat w xs) / 2 ^ w = joinNat w xs := by
        rw [Nat.add_mul_div_left _ _ (Nat.two_pow_pos w), Nat.div_eq_of_lt (Nat.mod_lt _ (Nat.two_pow_pos w)), Nat.zero_add]
      rw [joinNat, Nat.mul_succ, Nat.add_comm (w * i), Nat.pow_add, ← Nat.div_div_eq_div_mul, low, ih, List.getD_cons_succ]

theorem lane_ofNat {w i : Nat} (fits : w * i + w ≤ 512) (x : Nat) : lane w i (BitVec.ofNat 512 x) = x / 2 ^ (w * i) % 2 ^ w := by
  apply Nat.eq_of_testBit_eq
  intro j
  simp only [lane, BitVec.toNat_ofNat, Nat.testBit_mod_two_pow, Nat.testBit_div_two_pow]
  by_cases lt : j < w
  · simp [lt, show j + w * i < 512 by omega]
  · simp [lt]

/-- A vector built from lanes holds them. -/
theorem lane_ofLanes {w i : Nat} (fits : w * i + w ≤ 512) (l : List Nat) : lane w i (ofLanes w l) = l.getD i 0 % 2 ^ w := by
  rw [ofLanes, lane_ofNat fits, joinNat_digit]

theorem lane_fits {w i : Nat} (h : i < 512 / w) : w * i + w ≤ 512 :=
  calc w * i + w = w * (i + 1) := rfl
    _ ≤ w * (512 / w) := Nat.mul_le_mul_left w h
    _ ≤ 512 := Nat.mul_div_le 512 w

/-- Lane `i` of a vector built lane by lane from two. -/
theorem lane_zipLanes {w i : Nat} (h : i < 512 / w) (f : Nat → Nat → Nat) (a b : Vec) :
    lane w i (ofLanes w ((lanes w a).zipWith f (lanes w b))) = f (lane w i a) (lane w i b) % 2 ^ w := by
  rw [lane_ofLanes (lane_fits h)]
  simp [lanes, List.getD_eq_getElem?_getD, h]

/-- Lane `i` of a vector built lane by lane from one. -/
theorem lane_mapLanes {w i : Nat} (h : i < 512 / w) (f : Nat → Nat) (a : Vec) :
    lane w i (ofLanes w ((lanes w a).map f)) = f (lane w i a) % 2 ^ w := by
  rw [lane_ofLanes (lane_fits h)]
  simp [lanes, List.getD_eq_getElem?_getD, h]

/-- The byte enables of lanes of `z` bytes are those of the active lanes. -/
theorem laneBytes_getLsbD (z : Nat) (act : Nat → Bool) {i : Nat} (h : i < 64) : (laneBytes z act).getLsbD i = act (i / z) := by
  have digit := joinNat_digit 1 ((List.range 64).map fun i => if act (i / z) then 1 else 0) i
  simp only [laneBytes, BitVec.getLsbD_ofNat, h, decide_true, Bool.true_and, ← bit_eq_testBit, bit]
  simp only [Nat.one_mul, pow_one] at digit
  rw [digit]
  cases e : act (i / z) <;> simp [List.getD_eq_getElem?_getD, h, e]

/-! ### Typed lanes (R77, R115) -/

theorem half_pow {w : Nat} (pos : 0 < w) : 2 ^ w = 2 * 2 ^ (w - 1) := by rw [← Nat.pow_succ']; congr 1; omega

theorem laneInt_eq_typed {w x : Nat} (pos : 0 < w) (m : Nat) (hx : x < 2 ^ w) : laneInt m w x = typed m w x := by
  have half := half_pow pos
  by_cases signed : m < 4
  · simp only [laneInt, typed, toSigned, signed, if_true, true_and, Nat.mod_eq_of_lt hx]
    by_cases low : x < 2 ^ (w - 1)
    · rw [if_pos low, if_neg (by omega)]
    · rw [if_neg low, if_pos (by omega)]
  · simp [laneInt, typed, signed]

theorem toSigned_eq_typed {w x : Nat} (pos : 0 < w) (hx : x < 2 ^ w) : toSigned w x = typed 0 w x :=
  laneInt_eq_typed pos 0 hx

/-- The range of an integer type of `w` bits. -/
def inType (m w : Nat) (z : Int) : Prop := if m < 4 then -2 ^ (w - 1) ≤ z ∧ z < 2 ^ (w - 1) else 0 ≤ z ∧ z < 2 ^ w

theorem ofInt_cast (w : Nat) (z : Int) : (ofInt w z : Int) = z % 2 ^ w :=
  Int.toNat_of_nonneg (Int.emod_nonneg z (by positivity))

theorem ofInt_lt (w : Nat) (z : Int) : ofInt w z < 2 ^ w := by
  have := Int.emod_lt_of_pos z (show (0 : Int) < 2 ^ w by positivity)
  rw [← ofInt_cast] at this
  exact_mod_cast this

theorem typed_inType {m w x : Nat} (pos : 0 < w) (hx : x < 2 ^ w) : inType m w (typed m w x) := by
  have half : (2 : Int) ^ w = 2 * 2 ^ (w - 1) := by exact_mod_cast half_pow pos
  have top : (x : Int) < 2 ^ w := by exact_mod_cast hx
  by_cases signed : m < 4
  · by_cases neg : 2 ^ w ≤ 2 * x
    · have low : (2 : Int) ^ w ≤ 2 * x := by exact_mod_cast neg
      simp only [inType, typed, signed, neg, and_self, if_true]; omega
    · have low : 2 * (x : Int) < 2 ^ w := by exact_mod_cast not_le.1 neg
      simp only [inType, typed, signed, neg, and_false, if_true, if_false]; omega
  · simp only [inType, typed, signed, false_and, if_false]; omega

/-- A value of a type is read back from its low bits. -/
theorem typed_ofInt {m w : Nat} {z : Int} (pos : 0 < w) (h : inType m w z) : typed m w (ofInt w z) = z := by
  have half : (2 : Int) ^ w = 2 * 2 ^ (w - 1) := by exact_mod_cast half_pow pos
  have cast := ofInt_cast w z
  have reads : (2 ^ w ≤ 2 * ofInt w z) ↔ (2 : Int) ^ w ≤ 2 * (ofInt w z : Int) := by exact_mod_cast Iff.rfl
  by_cases signed : m < 4
  · simp only [inType, signed, if_true] at h
    simp only [typed, signed, reads, true_and]
    by_cases neg : z < 0
    · have wraps : z % 2 ^ w = z + 2 ^ w := by rw [← Int.add_emod_right, Int.emod_eq_of_lt (by omega) (by omega)]
      rw [if_pos (by omega)]; omega
    · have stays : z % 2 ^ w = z := Int.emod_eq_of_lt (by omega) (by omega)
      rw [if_neg (by omega)]; omega
  · simp only [inType, signed, if_false] at h
    simp only [typed, signed, false_and, if_false]
    rw [cast, Int.emod_eq_of_lt h.1 h.2]

/-! ### The integer functions of a lane (R115-R117) -/

section
variable {w a b : Nat}

theorem sub_lane (ha : a < 2 ^ w) (hb : b < 2 ^ w) : ((a + 2 ^ w - b) % 2 ^ w % 2 ^ w + b) % 2 ^ w = a := by
  rw [Nat.mod_mod, Nat.mod_add_mod, Nat.sub_add_cancel (by omega), Nat.add_mod_right, Nat.mod_eq_of_lt ha]

theorem mulh_lane (pos : 0 < w) (m : Nat) (ha : a < 2 ^ w) (hb : b < 2 ^ w) :
    ((ofInt w (laneInt m w a * laneInt m w b / 2 ^ w) % 2 ^ w : Nat) : Int) = typed m w a * typed m w b / 2 ^ w % 2 ^ w := by
  rw [Nat.mod_eq_of_lt (ofInt_lt ..), ofInt_cast, laneInt_eq_typed pos m ha, laneInt_eq_typed pos m hb]

theorem and_lane (hb : b < 2 ^ w) (j : Nat) : ((a &&& b) % 2 ^ w).testBit j = (a.testBit j && b.testBit j) := by
  rw [Nat.mod_eq_of_lt (Nat.and_lt_two_pow _ hb), Nat.testBit_and]

theorem or_lane (ha : a < 2 ^ w) (hb : b < 2 ^ w) (j : Nat) : ((a ||| b) % 2 ^ w).testBit j = (a.testBit j || b.testBit j) := by
  rw [Nat.mod_eq_of_lt (Nat.or_lt_two_pow ha hb), Nat.testBit_or]

theorem xor_lane (ha : a < 2 ^ w) (hb : b < 2 ^ w) (j : Nat) : ((a ^^^ b) % 2 ^ w).testBit j = (a.testBit j != b.testBit j) := by
  rw [Nat.mod_eq_of_lt (Nat.xor_lt_two_pow ha hb), Nat.testBit_xor]

theorem andn_lane (ha : a < 2 ^ w) (j : Nat) :
    ((a &&& (b ^^^ (2 ^ w - 1))) % 2 ^ w).testBit j = (a.testBit j && !b.testBit j) := by
  rw [Nat.mod_eq_of_lt (Nat.and_le_left.trans_lt ha)]
  by_cases lt : j < w
  · simp [Nat.testBit_two_pow_sub_one, lt]
  · have off : a.testBit j = false := Nat.testBit_lt_two_pow (ha.trans_le (Nat.pow_le_pow_right (by omega) (by omega)))
    simp [off]

theorem min_lane (pos : 0 < w) (m : Nat) (ha : a < 2 ^ w) (hb : b < 2 ^ w) :
    let r := (if laneInt m w b < laneInt m w a then b else a) % 2 ^ w
    (r = a ∨ r = b) ∧ typed m w r ≤ typed m w a ∧ typed m w r ≤ typed m w b := by
  rw [laneInt_eq_typed pos m ha, laneInt_eq_typed pos m hb]
  split
  · next lt => rw [Nat.mod_eq_of_lt hb]; exact ⟨.inr rfl, lt.le, le_rfl⟩
  · next le => rw [Nat.mod_eq_of_lt ha]; exact ⟨.inl rfl, le_rfl, not_lt.1 le⟩

theorem max_lane (pos : 0 < w) (m : Nat) (ha : a < 2 ^ w) (hb : b < 2 ^ w) :
    let r := (if laneInt m w a < laneInt m w b then b else a) % 2 ^ w
    (r = a ∨ r = b) ∧ typed m w a ≤ typed m w r ∧ typed m w b ≤ typed m w r := by
  rw [laneInt_eq_typed pos m ha, laneInt_eq_typed pos m hb]
  split
  · next lt => rw [Nat.mod_eq_of_lt hb]; exact ⟨.inr rfl, lt.le, le_rfl⟩
  · next le => rw [Nat.mod_eq_of_lt ha]; exact ⟨.inl rfl, le_rfl, not_lt.1 le⟩

theorem clampTo_eq (w m : Nat) (z : Int) : clampTo m w z = ofInt w (clamped m w z) ∧ inType m w (clamped m w z) := by
  have bound : (0 : Int) < 2 ^ w := by positivity
  have halfBound : (0 : Int) < 2 ^ (w - 1) := by positivity
  by_cases signed : m < 4
  · simp only [clampTo, clampTo.intLo, clampTo.intHi, clamped, inType, signed, if_true, true_and]; omega
  · simp only [clampTo, clampTo.intLo, clampTo.intHi, clamped, inType, signed, if_false, true_and]; omega

theorem clampTo_lane (pos : 0 < w) (m : Nat) (z : Int) : typed m w (clampTo m w z % 2 ^ w) = clamped m w z := by
  obtain ⟨low, into⟩ := clampTo_eq w m z
  rw [low, Nat.mod_eq_of_lt (ofInt_lt ..), typed_ofInt pos into]

theorem adds_lane (pos : 0 < w) (m : Nat) (ha : a < 2 ^ w) (hb : b < 2 ^ w) :
    typed m w (clampTo m w (laneInt m w a + laneInt m w b) % 2 ^ w) = clamped m w (typed m w a + typed m w b) := by
  rw [clampTo_lane pos, laneInt_eq_typed pos m ha, laneInt_eq_typed pos m hb]

theorem subs_lane (pos : 0 < w) (m : Nat) (ha : a < 2 ^ w) (hb : b < 2 ^ w) :
    typed m w (clampTo m w (laneInt m w a - laneInt m w b) % 2 ^ w) = clamped m w (typed m w a - typed m w b) := by
  rw [clampTo_lane pos, laneInt_eq_typed pos m ha, laneInt_eq_typed pos m hb]

theorem shl_lane (k : Nat) : shlLane w a k % 2 ^ w = if w ≤ k then 0 else a * 2 ^ k % 2 ^ w := by
  rw [shlLane]; split <;> simp only [Nat.zero_mod, Nat.mod_mod]

theorem shr_lane (ha : a < 2 ^ w) (k : Nat) : shrLane w a k % 2 ^ w = if w ≤ k then 0 else a / 2 ^ k := by
  rw [shrLane]
  split
  · exact Nat.zero_mod _
  · exact Nat.mod_eq_of_lt ((Nat.div_le_self ..).trans_lt ha)

theorem div_inType {m : Nat} {z : Int} (h : inType m w z) (k : Nat) : inType m w (z / 2 ^ k) := by
  have one : (1 : Int) ≤ 2 ^ k := by exact_mod_cast Nat.one_le_two_pow
  have keeps (lo hi : Int) (_ : lo ≤ 0) (_ : 0 ≤ hi) (h : lo ≤ z ∧ z < hi) : lo ≤ z / 2 ^ k ∧ z / 2 ^ k < hi :=
    ⟨Int.le_ediv_of_mul_le (by omega) (by nlinarith), Int.ediv_lt_of_lt_mul (by omega) (by nlinarith)⟩
  unfold inType at h ⊢
  split
  · next signed => rw [if_pos signed] at h; exact keeps _ _ (by simp) (by positivity) h
  · next signed => rw [if_neg signed] at h; exact keeps _ _ le_rfl (by positivity) h

theorem sra_lane (pos : 0 < w) (ha : a < 2 ^ w) (k : Nat) : typed 0 w (sraLane w a k % 2 ^ w) = typed 0 w a / 2 ^ min k w := by
  rw [sraLane, Nat.mod_eq_of_lt (ofInt_lt ..), toSigned_eq_typed pos ha, typed_ofInt pos (div_inType (typed_inType pos ha) _)]

theorem abs_lane (pos : 0 < w) (ha : a < 2 ^ w) : (toSigned w a).natAbs % 2 ^ w % 2 ^ w = (typed 0 w a).natAbs := by
  have range := typed_inType (m := 0) pos ha
  have half : (2 : Int) ^ w = 2 * 2 ^ (w - 1) := by exact_mod_cast half_pow pos
  have halfBound : (0 : Int) < 2 ^ (w - 1) := by positivity
  simp only [inType, show 0 < 4 by omega, if_true] at range
  have small : ((typed 0 w a).natAbs : Int) < 2 ^ w := by omega
  rw [Nat.mod_mod, toSigned_eq_typed pos ha, Nat.mod_eq_of_lt (by exact_mod_cast small)]

theorem popCount_eq_countP (w x : Nat) : popCount w x = (List.range w).countP fun j => x.testBit j := by
  simp only [popCount, bit_eq_testBit, List.countP_eq_length_filter]

theorem count_narrowed {n : Nat} (h : n ≤ w) : n % 2 ^ w = n := Nat.mod_eq_of_lt (h.trans_lt Nat.lt_two_pow_self)

theorem popCount_le (w x : Nat) : popCount w x ≤ w := (List.length_filter_le _ _).trans_eq List.length_range

theorem leadZeros_zero (w : Nat) : leadZeros w 0 = w := by
  induction w with
  | zero => rfl
  | succ w ih => simp [leadZeros, bit, ih]

theorem leadZeros_spec {x : Nat} (nz : x ≠ 0) (hx : x < 2 ^ w) :
    leadZeros w x < w ∧ 2 ^ (w - 1 - leadZeros w x) ≤ x ∧ x < 2 ^ (w - leadZeros w x) := by
  induction w with
  | zero => omega
  | succ w ih =>
    by_cases le : 2 ^ w ≤ x
    · have top : bit x w = true := by rw [bit_eq_testBit]; exact Nat.testBit_of_two_pow_le_and_two_pow_add_one_gt le hx
      simpa [leadZeros, top, le] using hx
    · have top : bit x w = false := by rw [bit_eq_testBit]; exact Nat.testBit_lt_two_pow (not_le.1 le)
      obtain ⟨lt, lo, hi⟩ := ih (not_le.1 le)
      simp only [leadZeros, top, Bool.false_eq_true, if_false]
      exact ⟨by omega, by rwa [show w + 1 - 1 - (leadZeros w x + 1) = w - 1 - leadZeros w x by omega],
        by rwa [show w + 1 - (leadZeros w x + 1) = w - leadZeros w x by omega]⟩

theorem leadZeros_le (w x : Nat) : leadZeros w x ≤ w := by
  induction w with
  | zero => exact le_rfl
  | succ w ih => rw [leadZeros]; split <;> omega

theorem popc_lane (x : Nat) : popCount w x % 2 ^ w = (List.range w).countP fun j => x.testBit j := by
  rw [count_narrowed (popCount_le ..), popCount_eq_countP]

theorem clz_lane {x : Nat} (hx : x < 2 ^ w) : let r := leadZeros w x % 2 ^ w
    if x = 0 then r = w else r < w ∧ 2 ^ (w - 1 - r) ≤ x ∧ x < 2 ^ (w - r) := by
  rw [count_narrowed (leadZeros_le ..)]
  split
  · next zero => rw [zero, leadZeros_zero]
  · next nz => exact leadZeros_spec nz hx

theorem parity_add (p : Bool) (c : Nat) : (p ^^ (c % 2 == 1)) = ((c + if p then 1 else 0) % 2 == 1) := by
  rcases Nat.mod_two_eq_zero_or_one c with e | e <;> cases p <;> simp [Nat.add_mod, e]

/-- Bit `j` of a carry-less product: the parity of its terms (R117). -/
theorem clMul_testBit (n a b j : Nat) : (clMul n a b).testBit j =
    ((List.range n).countP (fun k => decide (k ≤ j) && a.testBit (j - k) && b.testBit k) % 2 == 1) := by
  induction n with
  | zero => simp [clMul]
  | succ n ih =>
    have term : (if bit b n then a <<< n else 0).testBit j = (decide (n ≤ j) && a.testBit (j - n) && b.testBit n) := by
      rw [bit_eq_testBit]
      cases b.testBit n <;> simp [Nat.testBit_shiftLeft]
    rw [clMul, Nat.testBit_xor, term, ih, List.range_succ, List.countP_append, List.countP_singleton, parity_add]

end

end Sys2Proof.Machine
end

section
/-!
The integer lane ops: the shape of all of them, and the lane function of each.
-/
namespace Sys2Proof.Machine
open Sys2Proof.Safety

theorem typeWidth_pos (m : Nat) : 0 < typeWidth m := by unfold typeWidth; split <;> decide

/-- A two-source lane op completes where its operands raise no fault, and its lanes meet `e`'s relation (R115). -/
def DeliversTwo (o : RRR) (x : Ext) (s : State) (w : Nat) (e : Instr × Nat × (Nat → Nat → Nat → Prop)) : Prop :=
  ∃ r : Vec, exec e.1 s = .next (laneResult s [o.a, o.b] o.d w r (s.tile.active x) 0 e.2.1) ∧
    ∀ i, i < 512 / w → e.2.2 (lane w i (s.tile.vRead o.a (w / 8) (512 / w))) (lane w i (s.tile.vRead o.b (w / 8) (512 / w))) (lane w i r)

/-- A one-source lane op likewise. -/
def DeliversOne (o : RRR) (x : Ext) (s : State) (w : Nat) (e : Instr × (Nat → Nat → Prop)) : Prop :=
  ∃ r : Vec, exec e.1 s = .next (laneResult s [o.a] o.d w r (s.tile.active x) 0 2) ∧
    ∀ i, i < 512 / w → e.2 (lane w i (s.tile.vRead o.a (w / 8) (512 / w))) (lane w i r)

section
variable {o : RRR} {x : Ext} {s : State} {w : Nat}

/-- The shape of every two-source integer lane op: its function of each lane of its operands, narrowed to the lane. -/
theorem intLanes_delivers {e : Instr × Nat × (Nat → Nat → Nat → Prop)} {f : Nat → Nat → Nat → Nat} {g : Out}
    (hw : typeWidth o.m.toNat = w) (ready : laneReady s [o.a, o.b] (some o.d) (w / 8)) (ran : exec e.1 s = g)
    (means : g = intLanes e.2.1 o x f s) (meets : ∀ a b, a < 2 ^ w → b < 2 ^ w → e.2.2 a b (f w a b % 2 ^ w)) : DeliversTwo o x s w e := by
  subst hw
  refine ⟨_, (ran.trans means).trans (checked_ok ready 1 _), fun i hi => ?_⟩
  rw [Tile.lanesOf, Tile.lanesOf, lane_zipLanes hi]
  exact meets _ _ (lane_lt ..) (lane_lt ..)

/-- The shape of every one-source integer lane op. -/
theorem intLanes1_delivers {e : Instr × (Nat → Nat → Prop)} {f : Nat → Nat → Nat} {g : Out}
    (hw : typeWidth o.m.toNat = w) (ready : laneReady s [o.a] (some o.d) (w / 8)) (ran : exec e.1 s = g)
    (means : g = intLanes1 2 o x f s) (meets : ∀ a, a < 2 ^ w → e.2 a (f w a % 2 ^ w)) : DeliversOne o x s w e := by
  subst hw
  refine ⟨_, (ran.trans means).trans (checked_ok ready 1 _), fun i hi => ?_⟩
  rw [Tile.lanesOf, lane_mapLanes hi]
  exact meets _ (lane_lt ..)

end

theorem two_source_lanes (o : RRR) (x : Ext) (s : State) (ready : laneReady s [o.a, o.b] (some o.d) (typeWidth o.m.toNat / 8)) :
    ∀ e ∈ laneTable o x (typeWidth o.m.toNat), DeliversTwo o x s (typeWidth o.m.toNat) e := by
  have pos := typeWidth_pos o.m.toNat
  generalize hw : typeWidth o.m.toNat = w at ready pos ⊢
  simp only [laneTable, List.forall_mem_cons, List.not_mem_nil, false_implies, implies_true, and_true]
  refine ⟨?add, ?sub, ?mul, ?mulh, ?and, ?or, ?xor, ?andn, ?min, ?max, ?adds, ?subs, ?shl, ?shr, ?sra⟩
  case add => exact intLanes_delivers hw ready (g := execVadd o x s) rfl rfl fun a b _ _ => Nat.mod_mod ..
  case sub => exact intLanes_delivers hw ready (g := execVsub o x s) rfl rfl fun a b ha hb => sub_lane ha hb
  case mul => exact intLanes_delivers hw ready (g := execVmul o x s) rfl rfl fun a b _ _ => Nat.mod_mod ..
  case mulh => exact intLanes_delivers hw ready (g := execVmulh o x s) rfl rfl fun a b ha hb => mulh_lane pos _ ha hb
  case and => exact intLanes_delivers hw ready (g := execVand o x s) rfl rfl fun a b _ hb => and_lane hb
  case or => exact intLanes_delivers hw ready (g := execVor o x s) rfl rfl fun a b ha hb => or_lane ha hb
  case xor => exact intLanes_delivers hw ready (g := execVxor o x s) rfl rfl fun a b ha hb => xor_lane ha hb
  case andn => exact intLanes_delivers hw ready (g := execVandn o x s) rfl rfl fun a b ha _ => andn_lane ha
  case min => exact intLanes_delivers hw ready (g := execVmin o x s) rfl rfl fun a b ha hb => min_lane pos _ ha hb
  case max => exact intLanes_delivers hw ready (g := execVmax o x s) rfl rfl fun a b ha hb => max_lane pos _ ha hb
  case adds => exact intLanes_delivers hw ready (g := execVadds o x s) rfl rfl fun a b ha hb => adds_lane pos _ ha hb
  case subs => exact intLanes_delivers hw ready (g := execVsubs o x s) rfl rfl fun a b ha hb => subs_lane pos _ ha hb
  case shl => exact intLanes_delivers hw ready (g := execVshl o x s) rfl rfl fun a b _ _ => shl_lane b
  case shr => exact intLanes_delivers hw ready (g := execVshr o x s) rfl rfl fun a b ha _ => shr_lane ha b
  case sra => exact intLanes_delivers hw ready (g := execVsra o x s) rfl rfl fun a b ha _ => sra_lane pos ha b

theorem one_source_lanes (o : RRR) (x : Ext) (s : State) (ready : laneReady s [o.a] (some o.d) (typeWidth o.m.toNat / 8)) :
    ∀ e ∈ laneTable1 o x (typeWidth o.m.toNat), DeliversOne o x s (typeWidth o.m.toNat) e := by
  have pos := typeWidth_pos o.m.toNat
  generalize hw : typeWidth o.m.toNat = w at ready pos ⊢
  simp only [laneTable1, List.forall_mem_cons, List.not_mem_nil, false_implies, implies_true, and_true]
  refine ⟨?abs, ?popc, ?clz, ?shli, ?shri, ?srai⟩
  case abs => exact intLanes1_delivers hw ready (g := execVabs o x s) rfl rfl fun a ha => abs_lane pos ha
  case popc => exact intLanes1_delivers hw ready (g := execVpopc o x s) rfl rfl fun a _ => popc_lane a
  case clz => exact intLanes1_delivers hw ready (g := execVclz o x s) rfl rfl fun a ha => clz_lane ha
  case shli => exact intLanes1_delivers hw ready (g := execVshli o x s) rfl rfl fun a _ lt => (shl_lane _).trans (if_neg (not_le.2 lt))
  case shri => exact intLanes1_delivers hw ready (g := execVshri o x s) rfl rfl fun a ha lt => (shr_lane ha _).trans (if_neg (not_le.2 lt))
  case srai => exact intLanes1_delivers hw ready (g := execVsrai o x s) rfl rfl fun a ha lt =>
    (sra_lane pos ha _).trans (by rw [Nat.min_eq_left (le_of_lt lt)])

theorem carryless_width {m : BitVec 4} (hm : m = 3 ∨ m = 7) : typeWidth m.toNat = 64 := by
  rcases hm with rfl | rfl <;> rfl

theorem carryless_lanes (o : RRR) (x : Ext) (s : State) (ready : laneReady s [o.a, o.b] (some o.d) 8) (hm : o.m = 3 ∨ o.m = 7) :
    DeliversTwo o x s 64 (.vclmul o x, 2, fun a b r => ∀ j, j < 64 → r.testBit j =
      ((List.range 64).countP (fun k => decide (k ≤ j + (if o.m = 3 then 0 else 64)) &&
        a.testBit (j + (if o.m = 3 then 0 else 64) - k) && b.testBit k) % 2 == 1)) := by
  refine intLanes_delivers (carryless_width hm) ready (g := execVclmul o x s) rfl rfl fun a b ha hb j hj => ?_
  rw [← clMul_testBit, Nat.testBit_mod_two_pow]
  simp only [hj, decide_true, Bool.true_and]
  split
  · rw [Nat.testBit_mod_two_pow, decide_eq_true hj, Bool.true_and, Nat.add_zero]
  · rw [Nat.testBit_div_two_pow]

theorem integer_lanes_deliver : integerLaneOpsDeliverTheirFunction := by
  refine fun o x s _ => ⟨two_source_lanes o x s, one_source_lanes o x s, fun ready hm => ?_⟩
  obtain ⟨r, ran, lanes⟩ := carryless_lanes o x s ready hm
  refine ⟨r, ran, fun i j hi => ?_⟩
  rw [carryless_width hm]
  exact lanes i hi j

end Sys2Proof.Machine
end

section
/-!
Lane operands: what the read of a register or of a stream's group does, and what the write of a result does.
-/
namespace Sys2Proof.Machine
open Sys2Proof.Safety

/-! ### Registers and streams (R34) -/

theorem streamOf_register {f : BitVec 6} (h : f.toNat < 32) : streamOf f = none := by
  simp [streamOf, show ¬32 ≤ f.toNat by omega]

theorem streamOf_stream {f : BitVec 6} (lo : 32 ≤ f.toNat) (hi : f.toNat < 48) : streamOf f = some (f.setWidth 4) := by
  simp [streamOf, lo, hi]

theorem vWrite_register {f : BitVec 6} (h : f.toNat < 32) (t : Tile) (z n : Nat) (r : Vec) (act : Nat → Bool) (fl lat slot : Nat) :
    t.vWrite f z n r act fl lat slot = t.land (.v (t.ct.cx.phys (f.setWidth 5))) r (laneBytes z act) fl lat slot := by
  rw [Tile.vWrite, streamOf_register h]

theorem useAll_one (t : Tile) (f : BitVec 6) (z : Nat) : t.useAll [f] z = t.vReadUse f z (64 / z) 1 := rfl

/-! ### What the accesses of a stream leave of the bundle's changes -/

/-- A fold of updates that each keep a part of the tile keeps it. -/
theorem foldl_keeps {α β γ : Type} {f : α → β → α} (g : α → γ) (keeps : ∀ a b, g (f a b) = g a) (l : List β) (a : α) :
    g (l.foldl f a) = g a := by
  induction l generalizing a with
  | nil => rfl
  | cons b l ih => rw [List.foldl_cons, ih, keeps]

theorem spNote_post (t : Tile) (as : List Nat) (n : Nat) : (t.spNote as n).post = t.post := by
  unfold Tile.spNote
  split
  · rfl
  · next a _ =>
    obtain ⟨_, _, _, h⟩ := outOfRange_frame t false a
    rw [h]

/-- Where every access is in range nothing is recorded. -/
theorem spNote_of_inRange {t : Tile} {as : List Nat} {n : Nat} (h : ∀ a ∈ as, t.ct.spOutRange a n = false) : t.spNote as n = t := by
  have none : as.find? (fun a => t.ct.spOutRange a n) = none := by simpa using h
  rw [Tile.spNote, none]

theorem spRaceMark_post (t : Tile) (as : List Nat) (phase : Nat) (write : Bool) : (t.spRaceMark as phase write).post = t.post := by
  unfold Tile.spRaceMark
  split
  · rfl
  · refine foldl_keeps (·.post) (fun t w => ?_) _ t
    dsimp only
    split <;> rfl

theorem spCheckWord_post (t : Tile) (p slot issue addr : Nat) : (t.spCheckWord p slot issue addr).post = t.post := by
  unfold Tile.spCheckWord
  repeat' split
  all_goals rfl

theorem spCheck_post (t : Tile) (as : List Nat) (slot issue addr : Nat) : (t.spCheck as slot issue addr).post = t.post := by
  unfold Tile.spCheck
  split
  · rfl
  · exact foldl_keeps (·.post) (fun t w => spCheckWord_post t _ slot issue addr) _ t

theorem spUseNow_post (t : Tile) (as : List Nat) (n slot : Nat) : (t.spUseNow as n slot).post = t.post := by
  unfold Tile.spUseNow
  rw [spCheck_post, spRaceMark_post]
  exact spNote_post t as n

theorem spStore_post (t : Tile) (els : List (Nat × Nat)) (n lat slot : Nat) : (t.spStore els n lat slot).post = t.post := by
  unfold Tile.spStore
  dsimp only
  split
  · exact spNote_post ..
  · exact spNote_post ..

/-- A store whose elements are all in range is one pending write of their bytes (R202). -/
theorem spStore_pend {t : Tile} {els : List (Nat × Nat)} {n : Nat} (some_ : els ≠ []) (h : ∀ e ∈ els, t.ct.spOutRange e.1 n = false)
    (lat slot : Nat) : (t.spStore els n lat slot).pend = t.pend ++ [{
      due := t.ct.now + lat, kind := .spWrite (els.flatMap fun e => cellsAt e.1 (bytesOf n e.2)), issue := t.ct.now, slot := slot
      addr := t.ct.sq.pc, phase := t.ct.cx.phaseNum }] := by
  have all : els.filter (fun e => !t.ct.spOutRange e.1 n) = els := List.filter_eq_self.2 fun e he => by rw [h e he]; rfl
  have quiet : t.spNote (els.map (·.1)) n = t := spNote_of_inRange (by simpa using fun a b hab => h (a, b) hab)
  unfold Tile.spStore
  dsimp only
  rw [all, quiet, if_neg (by simpa using some_)]
  rfl

/-! ### The elements that a write stream stores (R111, R221) -/

/-- The elements of a group that are active and that the walk still has, with their addresses. -/
def storedLanes (st : Stream) (n : Nat) (act : Nat → Bool) : List Nat :=
  (List.range n).filter fun i => act i && decide (st.pos + i < recN st.record)

/-- What the lanes stored of `r` are stored as. -/
def storedElement (st : Stream) (z : Nat) (r : Vec) (i : Nat) : Nat × Nat := (recAddr st.record (st.pos + i), lane (8 * z) i r)

theorem zipIdx_map_range {α : Type} (g : Nat → α) (n : Nat) : ((List.range n).map g).zipIdx = (List.range n).map fun i => (g i, i) := by
  apply List.ext_getElem <;> simp

/-- A result written to a stream stores the active lanes that the walk has an element for, and the position moves past the group (R111). -/
theorem vWrite_stream {t : Tile} {f : BitVec 6} {st : Stream} (lo : 32 ≤ f.toNat) (hi : f.toNat < 48)
    (hst : t.ct.cx.rdA (f.setWidth 4) = st) (z n : Nat) (r : Vec) (act : Nat → Bool) (lat slot : Nat) :
    t.vWrite f z n r act 0 lat slot =
      (t.spStore ((storedLanes st n act).map (storedElement st z r)) z lat slot).later (.stream (f.setWidth 4) (streamNext st n)) := by
  rw [Tile.vWrite, streamOf_stream lo hi, storedLanes, ← List.filterMap_eq_map, List.filterMap_filter]
  dsimp only [streamGroup]
  rw [hst, zipIdx_map_range, List.filterMap_map]
  refine congrArg (fun els => (t.spStore els z lat slot).later _) (List.filterMap_congr fun i _ => ?_)
  by_cases inside : st.pos + i < recN st.record <;> cases on : act i <;> simp [inside, on, storedElement]

theorem mem_storedLanes {st : Stream} {n : Nat} {act : Nat → Bool} {i : Nat} :
    i ∈ storedLanes st n act ↔ i < n ∧ act i = true ∧ st.pos + i < recN st.record := by
  simp [storedLanes]

/-- A register takes a result with the byte enables of the active lanes. -/
theorem register_write (s : State) {d : BitVec 6} (hd : d.toNat < 32) (z n : Nat) (r : Vec) (act : Nat → Bool) (fl lat : Nat) :
    ∃ be : Word, withTile s (s.tile.vWrite d z n r act fl lat 1) =
      gains s (.v (s.tile.ct.cx.phys (d.setWidth 5))) r be fl lat 1 ∧ ∀ i, i < 64 → be.getLsbD i = act (i / z) :=
  ⟨laneBytes z act, by rw [vWrite_register hd]; rfl, fun _ => laneBytes_getLsbD z act⟩

/-- A write stream whose group is in range takes its active elements in one pending write, landing with the op. -/
theorem stream_write_pend {t : Tile} {d : BitVec 6} {st : Stream} {z n : Nat} {act : Nat → Bool} (lo : 32 ≤ d.toNat) (hi : d.toNat < 48)
    (hst : t.ct.cx.rdA (d.setWidth 4) = st)
    (inRange : ∀ i, st.pos ≤ i → i < st.pos + n → i < recN st.record → t.ct.spOutRange (recAddr st.record i) z = false)
    (some_ : ∃ i, i < n ∧ act i = true ∧ st.pos + i < recN st.record) (r : Vec) (lat slot : Nat) :
    ∃ p, (t.vWrite d z n r act 0 lat slot).pend = t.pend ++ [p] ∧ p.due = t.ct.now + lat ∧
      p.kind = .spWrite ((storedLanes st n act).flatMap fun i =>
        cellsAt (recAddr st.record (st.pos + i)) (bytesOf z (lane (8 * z) i r))) := by
  obtain ⟨i, hi'⟩ := some_
  have stored : ∀ e ∈ (storedLanes st n act).map (storedElement st z r), t.ct.spOutRange e.1 z = false := by
    intro e he
    obtain ⟨j, hj, rfl⟩ := List.mem_map.1 he
    obtain ⟨lt, -, walk⟩ := mem_storedLanes.1 hj
    exact inRange _ (Nat.le_add_right ..) (by omega) walk
  rw [vWrite_stream lo hi hst, Tile.later_pend,
    spStore_pend (List.ne_nil_of_mem (List.mem_map_of_mem (mem_storedLanes.2 hi'))) stored, List.flatMap_map]
  exact ⟨_, rfl, rfl, rfl⟩

theorem lane_operands : laneOperandsAreRegistersOrStreams := by
  refine ⟨fun s d z n r act fl lat hd => register_write s hd z n r act fl lat,
    fun t d z n r act lat lo hi => ⟨?_, fun inRange some_ => stream_write_pend lo hi rfl inRange some_ r lat 1⟩,
    fun t f z hf => ?_, fun t f z lo hi => ?_⟩
  · rw [vWrite_stream lo hi rfl, Tile.later_post, spStore_post]; rfl
  · rw [useAll_one, Tile.vReadUse, streamOf_register hf]
  · rw [useAll_one, Tile.vReadUse, streamOf_stream lo hi, Tile.later_post, spUseNow_post]; rfl

/-- Settles O20: every integer lane op has the one shape of `intLanes_delivers`, and its own lane lemma; what operands do by their kind. -/
theorem integerLaneOpsFromRegistersAndStreams : Obligations.IntegerLaneOpsFromRegistersAndStreams :=
  ⟨integer_lanes_deliver, lane_operands⟩

end Sys2Proof.Machine
end

section
/-!
What an arithmetic trap of VBQPACK leaves beside its own cause: like every lane op it reads a stream through ECC.
-/
namespace Sys2Proof.Machine
open Sys2Proof.Safety

/-- A tile with inexact enabled whose stream a0 names 16 binary32 elements from address 0. Element 0 is 1 + 2^-23, which no block format
holds exactly, and its word, which the attempt has written, has two bits inverted since (R269). -/
def struckBlockTile : Tile := {
  ct := {
    now := 1000, isize := 8, ssize := 16
    cx := {
      trapen := 16
      a := (Vector.replicate 16 {}).set 0 {
        valid := true, record := BitVec.ofNat 512 (10 * 2 ^ 32 + 16 * 2 ^ 64 + 4 * 2 ^ 192), pos := 0 } } }
  sp := { pub := [(0, 1), (2, 0x80), (3, 0x3F)], soft := [{ word := 0, bits := [0, 1] }] }
  marks := [0] }

/-- The module with that tile in focus. -/
def struckBlockState : State := { tile := struckBlockTile }

/-- UE_REPLAY of the word read, and the arithmetic trap. -/
theorem struckBlock_causes : causesAfter (exec (.vbqpack ⟨1, 32, 0, 0⟩ none) struckBlockState) = 2 := by decide +kernel

theorem charged_causes (s : State) (c : Cause) (v : Word) (slot det : Nat) :
    (charged s c v slot det).tile.dets.length = s.tile.dets.length + 1 := by
  simp [charged]

/-- Refutes O24: VBQPACK of a stream whose first word is beyond correction leaves UE_REPLAY beside its trap, where the statement has the
trap alone. -/
theorem not_blockPipAndDeferralOps : ¬ Obligations.BlockPipAndDeferralOps := by
  rintro ⟨blocks, -, -⟩
  obtain ⟨packs, -⟩ := blocks ⟨1, 32, 0, 0⟩ none struckBlockState (by decide)
  obtain ⟨traps, -⟩ := packs (by decide +kernel) (by decide +kernel) (by decide +kernel)
  obtain ⟨t, l, ran, -, dets⟩ := traps 4 (.binary 4) ⟨⟨4, .inl ⟨rfl, rfl⟩⟩, by decide +kernel, by decide +kernel⟩
  have two := struckBlock_causes
  rw [ran] at two
  have one : t.tile.dets.length = 1 := by rw [dets, charged_causes]; rfl
  exact absurd (one.symm.trans two) (by decide)

end Sys2Proof.Machine
end

section
/-!
The sequencer's transfers: targets prepared, the checks of an arrival, and the branches, calls and returns that pass them.
-/
namespace Sys2Proof.Machine
open Sys2Proof.Safety

/-! ### The checks of an arrival (R54, R142, R158) -/

theorem opWord_s_eq (w : OpWord) : w.s = w.getLsbD 31 := by
  simp [OpWord.s, BitVec.getMsbD]

/-- An arrival is refused with the cause that R54 gives its word, and with its address. -/
theorem arrivalFault_eq (copy : List OpWord) (a : Nat) : arrivalFault copy a = (arrivalCause copy a).map (·, a) := by
  simp only [arrivalFault, arrivalCause, opWord_s_eq, copyWord, padWord, Bool.not_eq_true', beq_iff_eq]
  split
  · rfl
  · split <;> rfl

theorem arrivalCause_none {copy : List OpWord} {a : Nat} (h : arrives copy a) : arrivalCause copy a = none := by
  obtain ⟨begins, notPad⟩ := h
  rw [arrivalCause, begins, if_neg (by decide), if_neg notPad]

/-- Where a bundle begins, an arrival passes. -/
theorem arrivalFault_none {copy : List OpWord} {a : Nat} (h : arrives copy a) : arrivalFault copy a = none := by
  rw [arrivalFault_eq, arrivalCause_none h]; rfl

/-- The checks by the state of what names the target: an arrival is checked last, and only where it is Ready. -/
theorem transferCause_ready (e : Cause × Nat) (ready now : Nat) (copy : List OpWord) (a : Nat) :
    transferCause e .ready ready now copy a = arrivalFault copy a := by
  simp only [transferCause, arrivalFault, opWord_s_eq, copyWord, padWord, Bool.not_eq_true', beq_iff_eq]

theorem bFault_eq (b : BReg) (n c : Nat) :
    bFault b n c = transferCause (.unpreparedTarget, n) b.state b.ready c b.copy b.target := by
  unfold bFault
  cases b.state with
  | ready => exact (transferCause_ready ..).symm
  | _ => rfl

/-- A Ready register whose target begins a bundle passes the checks of R142. -/
theorem bFault_none {b : BReg} (hr : b.state = .ready) (h : arrives b.copy b.target) (n c : Nat) : bFault b n c = none := by
  rw [bFault_eq, hr, transferCause_ready, arrivalFault_none h]

theorem retFault_eq {q : Seq} {r : RetEntry} {rs : List RetEntry} (h : q.rets = r :: rs) (ne : r.state ≠ .empty) (e : Cause × Nat)
    (c : Nat) : retFault q c = transferCause e r.state r.ready c r.copy r.addr := by
  simp only [retFault, h]
  cases hr : r.state with
  | empty => exact absurd hr ne
  | ready => exact (transferCause_ready ..).symm
  | _ => rfl

theorem retFault_none {q : Seq} {r : RetEntry} {rs : List RetEntry} (h : q.rets = r :: rs) (hr : r.state = .ready)
    (ha : arrives r.copy r.addr) (c : Nat) : retFault q c = none := by
  rw [retFault_eq h (by simp [hr]) (.rstackUnderflow, 0), hr, transferCause_ready, arrivalFault_none ha]

/-! ### Preparing and emptying b registers (R141, R147, R148) -/

theorem prepare_ok {s : State} {n : BitVec 3} {a : Nat} {ok : Bool} (hok : ok = true) (ha : a < codePart s) :
    prepare n a ok s = .next (withB s n (prepared s a)) := by
  have fits : a < s.tile.ct.codeEnd := ha
  simp only [prepare, hok, fits, decide_true, Bool.and_self, if_true]
  rfl

theorem prepare_traps {s : State} {n : BitVec 3} {a : Nat} {ok : Bool} (h : ok = true → codePart s ≤ a) :
    prepare n a ok s = .next (charged s .illegalOp (BitVec.ofNat 64 a) 0 s.tile.ct.now) := by
  have refused : (ok && decide (a < s.tile.ct.codeEnd)) = false := by
    cases ok with
    | false => rfl
    | true => exact decide_eq_false (Nat.not_lt.mpr (h rfl))
  simp only [prepare, refused, Bool.false_eq_true, if_false]
  rfl

/-- BPREPR takes a target of 17 bits whose low two are zero (R147). -/
theorem exec_bprepr (o : RRR) (s : State) : exec (.bprepr o) s =
    prepare (low3 o.d) (s.tile.sN o.a) (s.tile.sN o.a < 2 ^ 17 && s.tile.sN o.a % 4 == 0) s := rfl

theorem preparation_and_invalidation : preparationAndInvalidation := by
  refine ⟨fun o s => ⟨fun pos fits => ?_, fun bad => ?_⟩, fun o s => ⟨fun small aligned fits => ?_, fun bad => ?_⟩,
    fun o s hf => ?_, fun o s hf => ?_⟩
  · exact prepare_ok (decide_eq_true pos) fits
  · refine (prepare_traps fun ok => ?_).trans (by rw [ofNat_ofInt])
    exact bad.resolve_left (Int.not_lt.mpr (of_decide_eq_true ok))
  · rw [exec_bprepr]
    exact prepare_ok (by rw [Bool.and_eq_true, decide_eq_true_eq, beq_iff_eq]; exact ⟨small, aligned⟩) fits
  · rw [exec_bprepr]
    refine (prepare_traps fun ok => ?_).trans (by rw [Tile.sN, BitVec.ofNat_toNat, BitVec.setWidth_eq])
    rw [Bool.and_eq_true, decide_eq_true_eq, beq_iff_eq] at ok
    exact (bad.resolve_left (Nat.not_le.mpr ok.1)).resolve_left (not_not_intro ok.2)
  · simp only [exec, execBinv, hf, Bool.false_eq_true, if_false]; rfl
  · refine ⟨{ s.tile.ct.sq with b := Vector.replicate 8 {} }, ?_, fun n => ?_, rfl⟩
    · simp only [exec, execBinv, hf, if_true]; rfl
    · simp

/-! ### Transfers through b registers (R142, R143, R145) -/

theorem exec_bt (o : BX) (s : State) : exec (.bt o) s = transfer o (fun s => s.tile.ct.cx.q.getLsbD o.q.toNat) id s := rfl

theorem exec_bf (o : BX) (s : State) : exec (.bf o) s = transfer o (fun s => !s.tile.ct.cx.q.getLsbD o.q.toNat) id s := rfl

theorem exec_ba (o : BX) (s : State) : exec (.ba o) s = transfer o (fun _ => true) id s := rfl

theorem transfer_traps {o : BX} {s : State} {c : Cause} {v : Nat}
    (h : bFault (bReg s o.b) o.b.toNat s.tile.ct.now = some (c, v)) (taken : State → Bool) (also : Tile → Tile) :
    transfer o taken also s = .next (charged s c (BitVec.ofNat 64 v) 0 s.tile.ct.now) := by
  have fault : bFault (s.tile.ct.sq.rdB o.b) o.b.toNat s.tile.c = some (c, v) := h
  simp only [transfer, fault]
  rfl

/-- A transfer that passes its checks and is taken, with what it does to the return stack. -/
theorem transfer_taken {o : BX} {s : State} (h : bFault (bReg s o.b) o.b.toNat s.tile.ct.now = none) {taken : State → Bool}
    (ht : taken s = true) {also : Tile → Tile} {rets : List RetEntry} (ha : also s.tile = s.tile.onSq ({ · with rets := rets })) :
    transfer o taken also s = .next (transferred s o rets) := by
  have passes : bFault (s.tile.ct.sq.rdB o.b) o.b.toNat s.tile.c = none := h
  simp only [transfer, passes, ht, if_true, onTile, ha, transferred]
  cases o.f.getLsbD 0 <;> rfl

theorem transfer_untaken {o : BX} {s : State} (h : bFault (bReg s o.b) o.b.toNat s.tile.ct.now = none) {taken : State → Bool}
    (ht : taken s = false) (also : Tile → Tile) : transfer o taken also s = .next s := by
  have passes : bFault (s.tile.ct.sq.rdB o.b) o.b.toNat s.tile.c = none := h
  simp [transfer, passes, ht]

/-- CALL transfers with a push where the stack has room (R158). -/
theorem execCall_room {o : BX} {s : State} (h : bFault (bReg s o.b) o.b.toNat s.tile.ct.now = none)
    (room : s.tile.ct.sq.rets.length < 8) : execCall o s = transfer o (fun _ => true) Tile.pushReturn s := by
  have passes : bFault (s.tile.ct.sq.rdB o.b) o.b.toNat s.tile.c = none := h
  simp only [execCall, passes, retDepth, Nat.not_le.mpr room, if_false]

theorem execCall_full {o : BX} {s : State} (h : bFault (bReg s o.b) o.b.toNat s.tile.ct.now = none)
    (full : 8 ≤ s.tile.ct.sq.rets.length) : execCall o s = .next (charged s .rstackOverflow 8 0 s.tile.ct.now) := by
  have passes : bFault (s.tile.ct.sq.rdB o.b) o.b.toNat s.tile.c = none := h
  simp only [execCall, passes, retDepth, full, if_true]
  rfl

theorem execCall_traps {o : BX} {s : State} {c : Cause} {v : Nat}
    (h : bFault (bReg s o.b) o.b.toNat s.tile.ct.now = some (c, v)) :
    execCall o s = .next (charged s c (BitVec.ofNat 64 v) 0 s.tile.ct.now) := by
  have fault : bFault (s.tile.ct.sq.rdB o.b) o.b.toNat s.tile.c = some (c, v) := h
  simp only [execCall, fault]
  rfl

theorem execRet_traps (o : BX) {s : State} {c : Cause} {v : Nat} (h : retFault s.tile.ct.sq s.tile.ct.now = some (c, v)) :
    execRet o s = .next (charged s c (BitVec.ofNat 64 v) 0 s.tile.ct.now) := by
  have fault : retFault s.tile.ct.sq s.tile.c = some (c, v) := h
  simp only [execRet, fault]
  rfl

theorem execRet_goes (o : BX) {s : State} {r : RetEntry} {rs : List RetEntry} (hq : s.tile.ct.sq.rets = r :: rs)
    (h : retFault s.tile.ct.sq s.tile.ct.now = none) :
    execRet o s = .next (withSeq s { s.tile.ct.sq with rets := rs, target := some (r.addr, r.copy) }) := by
  have passes : retFault s.tile.ct.sq s.tile.c = none := h
  simp only [execRet, passes, onTile, Tile.onSq, hq]
  rfl

theorem transfers_go_to_their_target : transfersGoToTheirTarget := by
  refine fun o s => ⟨fun hr ha => ?_, fun r rs hq hr ha => execRet_goes o hq (retFault_none hq hr ha _)⟩
  have passes := bFault_none hr ha o.b.toNat s.tile.ct.now
  rw [exec_bt, exec_bf, exec_ba]
  refine ⟨?_, ?_, transfer_taken passes rfl rfl, fun room => ?_⟩
  · cases hq : s.tile.ct.cx.q.getLsbD o.q.toNat with
    | true => exact transfer_taken passes hq rfl
    | false => exact transfer_untaken passes hq _
  · cases hq : s.tile.ct.cx.q.getLsbD o.q.toNat with
    | true => exact transfer_untaken passes (by simp [hq]) _
    | false => exact transfer_taken passes (by simp [hq]) rfl
  · exact (execCall_room passes room).trans (transfer_taken passes rfl rfl)

theorem transfer_checks_trap_in_order : transferChecksTrapInOrder := by
  refine ⟨fun o s c v h i hi => ?_, fun o s hr ha full => execCall_full (bFault_none hr ha _ _) full,
    fun o s hq => execRet_traps o (by simp [retFault, hq]), fun o s r rs c v hq ne h => ?_⟩
  · rw [← bFault_eq] at h
    simp only [List.mem_cons, List.not_mem_nil, or_false] at hi
    rcases hi with rfl | rfl | rfl | rfl
    · rw [exec_bt, transfer_traps h]
    · rw [exec_bf, transfer_traps h]
    · rw [exec_ba, transfer_traps h]
    · exact execCall_traps h
  · exact execRet_traps o ((retFault_eq hq ne _ _).trans h)

/-- Settles O13: preparation by `prepare_ok` and `prepare_traps`; a transfer by the outcome of its checks, which are those of R142. -/
theorem transfersReachTheirTargetOrTrap : Obligations.TransfersReachTheirTargetOrTrap :=
  ⟨preparation_and_invalidation, transfers_go_to_their_target, transfer_checks_trap_in_order⟩

end Sys2Proof.Machine
end

section
/-!
Loops: their entry and exit, and the loop-back at the commit of a body's last bundle.
-/
namespace Sys2Proof.Machine
open Sys2Proof.Safety

/-! ### Stage predicates (R155) -/

/-- The predicates of an iteration are results in flight, visible from the next cycle. -/
theorem landQ_foldl (f : Nat → Bool) (js : List Nat) (t : Tile) : ∃ n rs,
    js.foldl (fun t j => t.landQ (BitVec.ofNat 3 (4 + j)) (f j) 1) t =
      { t with uid := n, ct := { t.ct with inflight := t.ct.inflight ++ rs } } ∧
    rs.map (fun r => (r.dest, r.due, r.src)) =
      js.map fun j => (.q (BitVec.ofNat 3 (4 + j)), t.ct.now + 1, .val (if f j then 1 else 0)) := by
  induction js generalizing t with
  | nil => exact ⟨t.uid, [], by simp, rfl⟩
  | cons j js ih =>
    obtain ⟨n, rs, run, landed⟩ := ih (t.landQ (BitVec.ofNat 3 (4 + j)) (f j) 1)
    rw [List.foldl_cons, run]
    refine ⟨n, _ :: rs, congrArg (fun l => { t with uid := n, ct := { t.ct with inflight := l } }) (List.append_assoc ..), ?_⟩
    rw [List.map_cons, List.map_cons, landed]
    rfl

theorem landStages_eq (t : Tile) (e : LoopEntry) : ∃ n rs,
    t.landStages e = { t with uid := n, ct := { t.ct with inflight := t.ct.inflight ++ rs } } ∧
    rs.map (fun r => (r.dest, r.due, r.src)) = (List.range (e.stages + 1)).map fun j =>
      (.q (BitVec.ofNat 3 (4 + j)), t.ct.now + 1, .val (if j ≤ e.index ∧ e.index < e.n + j then 1 else 0)) := by
  obtain ⟨n, rs, run, landed⟩ := landQ_foldl (fun j => j ≤ e.index && e.index - j < e.n) (List.range (e.stages + 1)) t
  refine ⟨n, rs, run, landed.trans (List.map_congr_left fun j _ => ?_)⟩
  have same : (j ≤ e.index && e.index - j < e.n) = decide (j ≤ e.index ∧ e.index < e.n + j) := by
    rw [Bool.eq_iff_iff]; simp only [Bool.and_eq_true, decide_eq_true_eq]; omega
  simp only [same, decide_eq_true_eq]

/-- In iteration 0 only the first stage's predicate is true. -/
theorem landStages_first {s : State} {e : LoopEntry} (first : e.index = 0) (pos : 0 < e.n) :
    withTile s (s.tile.landStages e) =
      (List.range (e.stages + 1)).foldl (fun s j => gainsQ s (BitVec.ofNat 3 (4 + j)) (j == 0) 0 1) s := by
  have same : (fun (t : Tile) j => t.landQ (BitVec.ofNat 3 (4 + j)) (j ≤ e.index && e.index - j < e.n) 1) =
      fun t j => t.landQ (BitVec.ofNat 3 (4 + j)) (j == 0) 1 := by
    funext t j
    cases j <;> simp [first, pos]
  rw [Tile.landStages, same]
  generalize List.range (e.stages + 1) = js
  induction js generalizing s with
  | nil => rfl
  | cons j js ih => exact ih (s := gainsQ s (BitVec.ofNat 3 (4 + j)) (j == 0) 0 1)

/-! ### Entry (R151) -/

/-- END of an LP op. -/
def loopEnd (s : State) (o : LP) (x : Ext) : Nat := s.tile.ct.sq.pc + 4 * (o.e.toNat + 4096 * x.bits.toNat)

/-- The checks of a body skipped: END lies in the code part and is fit to be arrived at. -/
def skipFault (s : State) (e : Nat) : Option (Cause × Nat) :=
  if codePart s ≤ e then some (.illegalOp, e) else arrivalFault (s.tile.packet e) e

section
variable {o : LP} {x : Ext} {n stages : Nat} {pipelined : Bool} {s : State}

theorem enterLoop_tooMany (h : 0xFFFF_FFFC < n) :
    enterLoop o x n stages pipelined s = .next (charged s .illegalOp (BitVec.ofNat 64 n) 0 s.tile.ct.now) := by
  simp only [enterLoop, h, if_true]; rfl

theorem enterLoop_skip_traps {c : Cause} {v : Nat} (h : skipFault s (loopEnd s o x) = some (c, v)) :
    enterLoop o x 0 stages pipelined s = .next (charged s c (BitVec.ofNat 64 v) 0 s.tile.ct.now) := by
  unfold enterLoop
  rw [if_neg (by decide), if_pos rfl]
  split
  · next found => cases found.symm.trans h; rfl
  · next none => exact absurd (none.symm.trans h) (by simp)

theorem enterLoop_skips (h : skipFault s (loopEnd s o x) = none) : enterLoop o x 0 stages pipelined s =
    .next (withSeq s { s.tile.ct.sq with target := some (loopEnd s o x, s.tile.packet (loopEnd s o x)) }) := by
  unfold enterLoop
  rw [if_neg (by decide), if_pos rfl]
  split
  · next found => exact absurd (found.symm.trans h) (by simp)
  · rfl

theorem enterLoop_full (pos : 0 < n) (le : n ≤ 0xFFFF_FFFC) (full : 6 ≤ s.tile.ct.sq.loops.length) :
    enterLoop o x n stages pipelined s = .next (charged s .loopOverflow 6 0 s.tile.ct.now) := by
  simp only [enterLoop, Nat.not_lt.mpr le, if_false, Nat.ne_of_gt pos, loopDepth, full, if_true]; rfl

theorem enterLoop_enters (pos : 0 < n) (le : n ≤ 0xFFFF_FFFC) (room : s.tile.ct.sq.loops.length < 6) (one : 0 < stages) :
    enterLoop o x n stages pipelined s = .next (loopEntered s o x n stages pipelined) := by
  unfold enterLoop
  rw [if_neg (Nat.not_lt.mpr le), if_neg (Nat.ne_of_gt pos), if_neg (show ¬loopDepth ≤ _ from Nat.not_le.mpr room)]
  have landed (u : State) :
      (if pipelined then (List.range stages).foldl (fun s j => gainsQ s (BitVec.ofNat 3 (4 + j)) (j == 0) 0 1) u else u) =
        withTile u (if pipelined then u.tile.landStages (pushedLoop s o x n stages pipelined) else u.tile) := by
    cases pipelined with
    | false => rfl
    | true =>
      have first := landStages_first (s := u) (e := pushedLoop s o x n stages true) rfl pos
      rw [show (pushedLoop s o x n stages true).stages + 1 = stages from Nat.sub_add_cancel one] at first
      exact first.symm
  simp only [loopEntered, landed]
  unfold pushedLoop
  cases o.f.getLsbD 2 <;> rfl

/-- The outcomes of R151, by the trip count and the depth of the stack. -/
theorem loopRule_of_enterLoop {i : Instr} (run : exec i s = enterLoop o x n stages pipelined s) (one : 0 < stages) :
    loopRule i s o x n stages pipelined := by
  unfold loopRule
  rw [run]
  refine ⟨enterLoop_tooMany, ?_, ?_, ?_, fun pos le full => enterLoop_full pos le full,
    fun pos le room => enterLoop_enters pos le room one⟩
  · rintro rfl inside fit
    exact enterLoop_skips ((if_neg (Nat.not_le.mpr inside)).trans (arrivalFault_none fit))
  · rintro c rfl inside refused
    exact enterLoop_skip_traps ((if_neg (Nat.not_le.mpr inside)).trans
      ((arrivalFault_eq ..).trans (congrArg (Option.map (·, loopEnd s o x)) refused)))
  · rintro rfl beyond
    exact enterLoop_skip_traps (if_pos beyond)

end

theorem loops_are_entered : loopsAreEntered := fun _ _ _ =>
  ⟨loopRule_of_enterLoop rfl Nat.one_pos, loopRule_of_enterLoop rfl Nat.one_pos, loopRule_of_enterLoop rfl (Nat.succ_pos _)⟩

/-! ### Exit and index (R153, R154) -/

theorem execLexit_traps {o : BX} {s : State} {c : Cause} {v : Nat} (h : exitFault s.tile.ct.sq = some (c, v)) :
    execLexit o s = .next (charged s c (BitVec.ofNat 64 v) 0 s.tile.ct.now) := by
  simp only [execLexit, h]; rfl

/-- LEXIT is taken by its form or by its condition bit. -/
theorem execLexit_passes {o : BX} {s : State} {e : LoopEntry} {es : List LoopEntry} (hq : s.tile.ct.sq.loops = e :: es)
    (h : exitFault s.tile.ct.sq = none) : execLexit o s =
      .next (if o.f.getLsbD 0 = false ∨ s.tile.ct.cx.q.getLsbD o.q.toNat = true then
        withSeq s { s.tile.ct.sq with loops := es, target := some (e.stop, e.exitCopy) } else s) := by
  simp only [execLexit, h, onTile, Tile.onSq, hq, Tile.q, Bool.or_eq_true, Bool.not_eq_true']
  split <;> rfl

theorem exitFault_eq {q : Seq} {e : LoopEntry} {es : List LoopEntry} (hq : q.loops = e :: es) :
    exitFault q = if e.exitStale then some (.staleTarget, e.stop) else arrivalFault e.exitCopy e.stop := by
  simp only [exitFault, hq]

theorem loop_exit_and_index : loopExitAndIndex := by
  refine ⟨fun o s hq => execLexit_traps (by simp [exitFault, hq]), fun o s e es hq =>
    ⟨fun stale => execLexit_traps ?_, fun c fresh refused => execLexit_traps ?_, fun fresh fit => execLexit_passes hq ?_⟩,
    fun o s => ⟨_, rfl, fun beyond => ?_, fun e at_ => ?_⟩⟩
  · rw [exitFault_eq hq, stale]; rfl
  · rw [exitFault_eq hq, fresh, arrivalFault_eq, refused]; rfl
  · rw [exitFault_eq hq, fresh, arrivalFault_none fit]; rfl
  · rw [List.getElem?_eq_none beyond]; rfl
  · rw [at_]

/-! ### The commit's changes leave the sequencer and the code (R31) -/

/-- A W1C write of OOBFLAG changes registers alone, whatever the sequencer holds (R210). -/
theorem clearOob_frame (k : Context) (v : Word) : ∃ x, ∀ q,
    ({ k with sq := q } : Context).clearOob v = { k with sq := q, cx := x } := by
  cases hv : v.getLsbD 0 with
  | false => exact ⟨k.cx, fun q => clearOob_of_clear hv⟩
  | true =>
    cases k.oor with
    | none => exact ⟨_, fun q => by simp only [Context.clearOob, hv]; rfl⟩
    | some o =>
      cases hc : decide (o.1 = k.now) && !k.cx.guardMode <;>
        exact ⟨_, fun q => by simp only [Context.clearOob, hv, hc]; rfl⟩

theorem onCx_onSq (t : Tile) (f : Seq → Seq) (g : Ctx → Ctx) : (t.onSq f).onCx g = (t.onCx g).onSq f := rfl

theorem onCx_packet (t : Tile) (g : Ctx → Ctx) : (t.onCx g).packet = t.packet := rfl

theorem clearOob_onCx (t : Tile) (v : Word) : ∃ g, ∀ f : Seq → Seq,
    ({ t.onSq f with ct := (t.onSq f).ct.clearOob v } : Tile) = (t.onSq f).onCx g := by
  obtain ⟨x, hx⟩ := clearOob_frame t.ct v
  exact ⟨fun _ => x, fun f => congrArg (fun k => ({ t with ct := k } : Tile)) (hx (f t.ct.sq))⟩

theorem writeCsr_onSq (t : Tile) (f : Seq → Seq) (n : Nat) (v : Word) : (t.onSq f).writeCsr n v = (t.writeCsr n v).onSq f := by
  obtain ⟨g, hg⟩ := clearOob_onCx t v
  unfold Tile.writeCsr
  split
  -- the write of OOBFLAG
  case h_6 => exact (hg f).trans (congrArg (Tile.onSq · f) (hg id).symm)
  all_goals rfl

theorem writeCsr_packet (t : Tile) (n : Nat) (v : Word) : (t.writeCsr n v).packet = t.packet := by
  obtain ⟨g, hg⟩ := clearOob_onCx t v
  unfold Tile.writeCsr
  split
  -- the write of OOBFLAG
  case h_6 => exact (congrArg Tile.packet (hg id)).trans (onCx_packet ..)
  all_goals rfl

theorem commit1_onSq (dqw pmw : Bool) (t : Tile) (f : Seq → Seq) (p : Post) :
    (t.onSq f).commit1 dqw pmw p = (t.commit1 dqw pmw p).onSq f := by
  cases p <;> simp only [Tile.commit1]
  case csr => exact writeCsr_onSq ..
  case minc | dqPush | dqPull =>
    split
    · rfl
    · exact onCx_onSq ..
  all_goals exact onCx_onSq ..

theorem commit1_packet (dqw pmw : Bool) (t : Tile) (p : Post) : (t.commit1 dqw pmw p).packet = t.packet := by
  cases p <;> simp only [Tile.commit1]
  case csr => exact writeCsr_packet ..
  case minc | dqPush | dqPull =>
    split
    · rfl
    · exact onCx_packet ..
  all_goals exact onCx_packet ..

theorem commits_onSq (dqw pmw : Bool) (t : Tile) (f : Seq → Seq) (ps : List Post) :
    ps.foldl (Tile.commit1 dqw pmw) (t.onSq f) = (ps.foldl (Tile.commit1 dqw pmw) t).onSq f :=
  List.foldl_hom (Tile.onSq · f) fun t p => commit1_onSq dqw pmw t f p

theorem commits_packet (dqw pmw : Bool) (t : Tile) (ps : List Post) : (ps.foldl (Tile.commit1 dqw pmw) t).packet = t.packet := by
  induction ps generalizing t with
  | nil => rfl
  | cons p ps ih => exact (ih _).trans (commit1_packet dqw pmw t p)

theorem commit_onSq (t : Tile) (f : Seq → Seq) : (t.onSq f).commit = t.commit.onSq f :=
  commits_onSq _ _ { t with
    post := [], ct := t.ct.putOff (t.post.any (·.writes csrDqcap)) (t.post.any Post.writesMemb) } f _

/-- The commit changes nothing of the sequencer: it commutes with putting back what stood there. -/
theorem commit_sq (t : Tile) : t.commit.ct.sq = t.ct.sq :=
  congrArg (·.ct.sq) (commit_onSq t fun _ => t.ct.sq)

theorem commit_packet (t : Tile) : t.commit.packet = t.packet := commits_packet ..

theorem commit_startCopy (t : Tile) (e : LoopEntry) : t.commit.startCopy e = t.startCopy e := by
  simp only [Tile.startCopy, commit_packet]

/-! ### The loop-back (R152, R155-R157) -/

theorem lastBundle_iff {e : LoopEntry} {a : Nat} {nxt : Option Nat} :
    e.lastBundle a nxt = true ↔ e.start ≤ a ∧ a < e.stop ∧ nxt = some e.stop := by
  simp [LoopEntry.lastBundle, and_assoc]

/-- The tile in which a body begins again: the iteration counted, START to come from its copy, ROTB advanced. -/
def Tile.goneBack (t : Tile) (e : LoopEntry) (es : List LoopEntry) : Tile := { t with ct := { t.ct with
  sq := { t.ct.sq with
    loops := e.next :: es, prePoint := if e.pre then some (t.ct.now + 1) else none, target := some (e.start, t.startCopy e) }
  cx := { t.ct.cx with rotb := if e.rot then t.ct.cx.rotb + 7 else t.ct.cx.rotb } } }

section
variable {t : Tile} {e : LoopEntry} {es : List LoopEntry} {a : Nat} {nxt : Option Nat}

/-- An entry with an iteration left goes back, and lands its stage predicates where LOOPP pushed it. -/
theorem loopBack_of_left (last : e.lastBundle a nxt = true) (left : e.index + 1 < e.total) (fresh : e.startStale = false) :
    t.loopBack a nxt (e :: es) = if e.pipelined then (t.goneBack e es).landStages e.next else t.goneBack e es := by
  simp only [Tile.loopBack, last, left, fresh, Bool.not_true, Bool.false_eq_true, if_false, if_true, Tile.goneBack]
  cases e.rot <;> rfl

/-- What goes back differs from `goneBack` in the predicates in flight. -/
theorem loopBack_of_left_context (last : e.lastBundle a nxt = true) (left : e.index + 1 < e.total) (fresh : e.startStale = false) :
    let k := (t.loopBack a nxt (e :: es)).ct
    k.sq = (t.goneBack e es).ct.sq ∧ k.cx = (t.goneBack e es).ct.cx ∧ ∃ rs, k.inflight = t.ct.inflight ++ rs ∧
    rs.map (fun r => (r.dest, r.due, r.src)) = if e.pipelined then
      (List.range (e.stages + 1)).map fun j =>
        (.q (BitVec.ofNat 3 (4 + j)), t.ct.now + 1, .val (if j ≤ e.index + 1 ∧ e.index + 1 < e.n + j then 1 else 0)) else [] := by
  rw [loopBack_of_left last left fresh]
  cases e.pipelined with
  | false => exact ⟨rfl, rfl, [], (List.append_nil _).symm, rfl⟩
  | true =>
    obtain ⟨n, rs, run, landed⟩ := landStages_eq (t.goneBack e es) e.next
    rw [if_pos rfl, run]
    exact ⟨rfl, rfl, rs, rfl, landed⟩

/-- An exhausted entry gives way to the one below it. -/
theorem loopBack_of_exhausted (last : e.lastBundle a nxt = true) (done : e.total ≤ e.index + 1) :
    t.loopBack a nxt (e :: es) = t.loopBack a nxt es := by
  simp [Tile.loopBack, last, Nat.not_lt.mpr done]

theorem loopBack_of_not_last (other : e.lastBundle a nxt = false) :
    t.loopBack a nxt (e :: es) = t.onSq ({ · with loops := e :: es }) := by
  simp [Tile.loopBack, other]

/-- The loop-back sets the whole loop stack, so the one that stood there does not matter. -/
theorem loopBack_onSq_loops {l : List LoopEntry} (fresh : ∀ f ∈ l, f.startStale = false) (l' : List LoopEntry) :
    (t.onSq ({ · with loops := l' })).loopBack a nxt l = t.loopBack a nxt l := by
  induction l with
  | nil => rfl
  | cons f fs ih =>
    obtain ⟨freshTop, freshRest⟩ := List.forall_mem_cons.mp fresh
    by_cases last : f.lastBundle a nxt = true
    case neg =>
      rw [Bool.not_eq_true] at last
      rw [loopBack_of_not_last last, loopBack_of_not_last last]; rfl
    case pos =>
      by_cases left : f.index + 1 < f.total
      · rw [loopBack_of_left last left freshTop, loopBack_of_left last left freshTop]; rfl
      · rw [loopBack_of_exhausted last (Nat.not_lt.mp left), loopBack_of_exhausted last (Nat.not_lt.mp left), ih freshRest]

end

/-! ### What follows the loop-back in a commit -/

/-- The rest of the commit of a body's last bundle: the segment is closed, the op classes are counted, and the next bundle is chosen. -/
def Tile.concluded (t : Tile) (b : Bundle) (after : Nat) : Tile :=
  ((((t.segAfter b true).tally b.ops).goNext after).onSq fun q => { q with pfx := pfxOf b.ops }).repEnd.didIssue

theorem committed_last {t : Tile} (ht : t.ct.sq.target = none) (b : Bundle) (after : Nat) (nxt : Option Nat) :
    t.committed b true after nxt = (t.commit.loopBack t.ct.sq.pc nxt t.ct.sq.loops).concluded b after := by
  simp only [Tile.committed, commit_sq, ht, Option.isNone_none, Bool.and_self, if_true, Tile.concluded]

theorem countSeg_frame (t : Tile) (n : Nat) (ws : List OpWord) : ∃ g, t.countSeg n ws = t.onSq ({ · with seg := g }) := by
  unfold Tile.countSeg
  split
  · exact ⟨t.ct.sq.seg, rfl⟩
  · exact ⟨_, rfl⟩

theorem closeSeg_frame (t : Tile) (slot : Nat) : ∃ g ds, t.closeSeg slot = { t.onSq ({ · with seg := g }) with dets := ds } := by
  unfold Tile.closeSeg
  split
  · exact ⟨t.ct.sq.seg, t.dets, rfl⟩
  · dsimp only
    split <;> exact ⟨none, _, rfl⟩

/-- The segment's count and close touch the segment and the detected causes alone (R45-R49). -/
theorem segAfter_frame (t : Tile) (b : Bundle) (last : Bool) :
    ∃ g m ds, t.segAfter b last = { t.onSq ({ · with seg := g, mustSeg := m }) with dets := ds } := by
  obtain ⟨g, counted⟩ := countSeg_frame t 1 b.words
  obtain ⟨g', ds, closed⟩ := closeSeg_frame (t.onSq ({ · with seg := g })) 4
  simp only [Tile.segAfter, counted, closed]
  split
  · split <;> exact ⟨_, _, _, rfl⟩
  · exact ⟨g, t.ct.sq.mustSeg, t.dets, rfl⟩

theorem repEnd_of_none {t : Tile} (hr : t.ct.sq.rep = none) : t.repEnd = t := by simp [Tile.repEnd, hr]

theorem goNext_of_target {t : Tile} {a : Nat} {copy : List OpWord} (ht : t.ct.sq.target = some (a, copy)) (after : Nat) :
    t.goNext after = t.onSq fun q =>
      { q with pc := a, sequential := false, fetchCopy := some copy, target := none, pfx := none, buffer := none } := by
  simp only [Tile.goNext, Tile.onSq, ht]

theorem goNext_of_none {t : Tile} (ht : t.ct.sq.target = none) (after : Nat) : t.goNext after = t.onSq fun q =>
    { q with pc := after, sequential := true, fetchCopy := none, pfx := none, buffer := none } := by
  simp only [Tile.goNext, Tile.onSq, ht]

/-- Where the loop-back has chosen a target, the commit goes there and leaves what the loop-back made of loops, registers and results. -/
theorem concluded_of_target {t : Tile} {a : Nat} {copy : List OpWord} (ht : t.ct.sq.target = some (a, copy)) (hr : t.ct.sq.rep = none)
    (b : Bundle) (after : Nat) : let k := (t.concluded b after).ct
    k.sq.loops = t.ct.sq.loops ∧ k.sq.pc = a ∧ k.sq.sequential = false ∧ k.sq.fetchCopy = some copy ∧
    k.sq.prePoint = t.ct.sq.prePoint ∧ k.cx = t.ct.cx ∧ k.inflight = t.ct.inflight := by
  obtain ⟨g, m, ds, seg⟩ := segAfter_frame t b true
  rw [Tile.concluded, seg, goNext_of_target (by exact ht), repEnd_of_none (by exact hr)]
  exact ⟨rfl, rfl, rfl, rfl, rfl, rfl, rfl⟩

/-- Where it has chosen none, the next bundle is the sequential one. -/
theorem concluded_of_none {t : Tile} (ht : t.ct.sq.target = none) (hr : t.ct.sq.rep = none)
    (b : Bundle) (after : Nat) : let k := (t.concluded b after).ct
    k.sq.loops = t.ct.sq.loops ∧ k.sq.pc = after ∧ k.sq.sequential = true ∧ k.sq.fetchCopy = none ∧
    k.cx = t.ct.cx ∧ k.inflight = t.ct.inflight := by
  obtain ⟨g, m, ds, seg⟩ := segAfter_frame t b true
  rw [Tile.concluded, seg, goNext_of_none (by exact ht), repEnd_of_none (by exact hr)]
  exact ⟨rfl, rfl, rfl, rfl, rfl, rfl⟩

theorem loops_go_back : loopsGoBack := by
  intro t b after nxt e es q k u hq ht hr freshRest endsHere
  have run : u = (t.commit.loopBack q.pc nxt (e :: es)).concluded b after := by rw [← hq]; exact committed_last ht b after nxt
  have target : t.commit.ct.sq.target = none := by rw [commit_sq]; exact ht
  have rep : t.commit.ct.sq.rep = none := by rw [commit_sq]; exact hr
  refine ⟨fun ends left fresh => ?_, fun ends done => ?_, fun goes => ?_⟩
  · obtain ⟨sq, cx, rs, inflight, landed⟩ :=
      loopBack_of_left_context (t := t.commit) (es := es) (lastBundle_iff.mpr ends) left fresh
    obtain ⟨loops, pc, seq, copy, point, cx', inflight'⟩ :=
      concluded_of_target (congrArg Seq.target sq) ((congrArg Seq.rep sq).trans rep) b after
    rw [run]
    exact ⟨loops.trans (congrArg Seq.loops sq), pc, seq, copy.trans (congrArg some (commit_startCopy t e)),
      point.trans (congrArg Seq.prePoint sq), cx'.trans cx, rs, inflight'.trans inflight, landed⟩
  · rw [run, loopBack_of_exhausted (lastBundle_iff.mpr ends) done]
    have popped := committed_last (t := t.onSq ({ · with loops := es })) ht b after nxt
    rw [commit_onSq] at popped
    exact (popped.trans (congrArg (Tile.concluded · b after) (loopBack_onSq_loops freshRest es))).symm
  · have other : e.lastBundle q.pc nxt = false := by rw [← Bool.not_eq_true, lastBundle_iff]; exact goes
    rw [run, loopBack_of_not_last other, ← hq]
    exact concluded_of_none (t := t.commit.onSq ({ · with loops := q.loops })) target rep b after

/-- Settles O14: entry by the outcomes of `enterLoop`, exit by those of LEXIT, and the loop-back by the top entry: it has an iteration
left, it is exhausted, or its body does not end here. -/
theorem loopsAreEnteredAndLeft : Obligations.LoopsAreEnteredAndLeft :=
  ⟨loops_are_entered, loop_exit_and_index, loops_go_back⟩

end Sys2Proof.Machine
end

section
/-!
The matrix engines: their occupation, their operand streams, and what each of their ops sets under way.
-/
namespace Sys2Proof.Machine
open Sys2Proof.Safety

/-! ### What every X op does (R229, R230) -/

theorem collide_eq (t : Tile) (bad : Bool) (v slot : Nat) :
    t.collide bad v slot = { t with late := t.late ++ if bad then [(v, slot)] else [] } := by
  cases bad
  · simp [Tile.collide]
  · rfl

theorem takeCim_eq (s : State) (n : Nat) : s.tile.takeCim n = engineTaken s 0 n := by
  rw [Tile.takeCim, collide_eq]
  by_cases busy : s.tile.ct.now < s.tile.cimBusy <;> simp [Tile.c, engineTaken, engineTval, busy]

@[simp] theorem engineTaken_ct (s : State) (e n : Nat) : (engineTaken s e n).ct = s.tile.ct := rfl

theorem onTile_makes {f : Tile → Tile} {s : State} {t : Tile} (makes : f s.tile = t) : onTile f s = .next (withTile s t) := by
  rw [onTile, makes]; rfl

/-- An op on the tile in focus whose checks find no fault leaves the tile that it makes. -/
theorem checked_onTile {faults : State → List (Option (Cause × Nat))} {s : State} (h : firstFault (faults s) = none) {n : Nat}
    {f : Tile → Tile} {t : Tile} (makes : f s.tile = t) : checked faults n (onTile f) s = .next (withTile s t) := by
  rw [checked_ok h]
  exact onTile_makes makes

/-- The tile with more changes for the commit of its bundle and more effects to come. -/
def Tile.leaves (t : Tile) (ps : List Post) (es : List Pend) : Tile := { t with post := t.post ++ ps, pend := t.pend ++ es }

/-- An effect of the X op now issuing on a tile, as `xEffect` has it for the tile in focus. -/
def Tile.xEffect (t : Tile) (due : Nat) (k : PendKind) : Pend :=
  { due := due, kind := k, issue := t.ct.now, slot := 3, addr := t.ct.sq.pc, phase := t.ct.cx.phaseNum }

theorem pending_eq (t : Tile) (due : Nat) (k : PendKind) : t.pending due 3 k = t.leaves [] [t.xEffect due k] := by
  rw [Tile.leaves, List.append_nil]; rfl

theorem later_eq (t : Tile) (p : Post) : t.later p = t.leaves [p] [] := by
  rw [Tile.leaves, List.append_nil]; rfl

theorem advance_eq (t : Tile) (n : BitVec 4) (g : Nat) : t.advance n g = t.leaves [.stream n (streamNext (t.ct.cx.rdA n) g)] [] :=
  later_eq ..

@[simp] theorem leaves_ct (t : Tile) (ps : List Post) (es : List Pend) : (t.leaves ps es).ct = t.ct := rfl

@[simp] theorem leaves_nil (t : Tile) : t.leaves [] [] = t := by simp [Tile.leaves]

@[simp] theorem leaves_leaves (t : Tile) (ps qs : List Post) (es fs : List Pend) :
    (t.leaves ps es).leaves qs fs = t.leaves (ps ++ qs) (es ++ fs) := by simp [Tile.leaves]

theorem later_if (t : Tile) (b : Bool) (p : Post) : (if b then t.later p else t) = t.leaves (if b then [p] else []) [] := by
  cases b
  · exact (leaves_nil t).symm
  · exact later_eq t p

theorem pending_unless (t : Tile) (b : Bool) (due : Nat) (k : PendKind) :
    (if b then t else t.pending due 3 k) = t.leaves [] (if b then [] else [t.xEffect due k]) := by
  cases b
  · exact pending_eq t due k
  · exact (leaves_nil t).symm

/-! ### Plane loads (R235) -/

theorem quadLoad_faults {s : State} {o : XM} (fine : firstFault (s.tile.loadFaults o) = none) (led : s.loadLed o = true) :
    firstFault (s.tile.loadFaults o ++ [if s.loadLed o then none else some (.channelEmpty, 0)]) = none := by
  simp only [firstFault_none, led, if_true, List.mem_append, List.mem_singleton] at fine ⊢
  exact fun x hx => hx.elim (fine x) id

theorem plane_loads_start : planeLoadsStart := by
  intro o s n st cfg fine
  refine ⟨checked_onTile (faults := fun s => s.tile.loadFaults o) fine ?_, fun leads => ?_, fun follows led => ?_⟩
  · rw [takeCim_eq]; rfl
  · have led : s.loadLed o = true := by simp [State.loadLed, leads]
    refine checked_onTile (faults := fun s => s.tile.loadFaults o ++ _) (quadLoad_faults fine led) ?_
    simp only [takeCim_eq]
    exact if_pos leads
  · refine checked_onTile (faults := fun s => s.tile.loadFaults o ++ _) (quadLoad_faults fine led) ?_
    simp only [takeCim_eq]
    exact if_neg follows

/-! ### Multiplies (R236-R238) -/

theorem mem_cmmqRows {q m i : Nat} (hq : q < 4) : i ∈ cmmqRows q m ↔ i < m ∧ i % 4 = q := by
  simp only [cmmqRows, List.mem_filterMap, List.mem_range, Option.ite_none_right_eq_some, Option.some.injEq]
  constructor
  · rintro ⟨k, -, lt, rfl⟩; omega
  · rintro ⟨lt, rfl⟩; exact ⟨i / 4, by omega, by omega, by omega⟩

theorem cmmqRows_sorted (q m : Nat) : (cmmqRows q m).Pairwise (· < ·) := by
  refine List.Pairwise.filterMap _ (fun i j lt a ha b hb => ?_) List.pairwise_lt_range
  simp only [Option.ite_none_right_eq_some, Option.some.injEq] at ha hb
  omega

/-- The rows that a tile takes in CMMQ are those of its place among all rows (R238). -/
theorem cmmqRows_eq {q : Nat} (hq : q < 4) (m : Nat) : cmmqRows q m = (List.range m).filter fun i => i % 4 == q := by
  refine List.Pairwise.eq_of_mem_iff (cmmqRows_sorted q m) (List.pairwise_lt_range.filter _) fun i => ?_
  rw [mem_cmmqRows hq, List.mem_filter, List.mem_range, beq_iff_eq]

/-- The run that a multiply of these rows begins (R236-R238). -/
def cmmRun (t : Tile) (o : XM) (rows : List Nat) : CimRun := {
  row0 := 4 * o.dst.toNat, rows := rows, wa := t.cmmWa o, w := t.cmmW o, planes := t.planes, pip := o.sb.getLsbD 0
  strm := t.ct.cx.rdA o.sa, baseRow := t.ct.cx.cimcfg.toNat % 2 ^ 7, accmode := t.ct.cx.accmode, key := t.ct.cx.pipKey
  ctr := t.ct.cx.cmmCounter }

/-- The tile with the Pip generator taken for `n` cycles where the op uses it, or the collision of R229 where it is not free yet. -/
def pipTaken (t : Tile) (pip : Bool) (n : Nat) : Tile :=
  { t with
    pipBusy := if pip then t.ct.now + n else t.pipBusy
    late := t.late ++ if pip && t.ct.now < t.pipBusy then [(engineTval 2, 3)] else [] }

theorem pipTaken_eq (t : Tile) (pip : Bool) (n : Nat) :
    (if pip then { (t.collide (t.c < t.pipBusy) (engineTval 2) 3) with pipBusy := t.c + n } else t) = pipTaken t pip n := by
  cases pip
  · simp [pipTaken]
  · rw [if_pos rfl, collide_eq]; rfl

@[simp] theorem pipTaken_ct (t : Tile) (pip : Bool) (n : Nat) : (pipTaken t pip n).ct = t.ct := rfl

@[simp] theorem pipTaken_leaves (t : Tile) (ps : List Post) (es : List Pend) (pip : Bool) (n : Nat) :
    pipTaken (t.leaves ps es) pip n = (pipTaken t pip n).leaves ps es := rfl

theorem cfgBase_eq (cfg : Nat) : cfgBase cfg = cfg % 2 ^ 7 := by rw [cfgBase, bits, pow_zero, Nat.div_one]

/-- The tile in which a multiply of `rows` of an A operand of `m` rows has begun, taking the engine for `len` cycles (R236). -/
def multiplied (s : State) (o : XM) (rows : List Nat) (m len : Nat) : Tile :=
  let cfg := s.tile.ct.cx.cimcfg
  let base := cfg.toNat % 2 ^ 7
  (pipTaken (engineTaken s 0 len) (o.sb.getLsbD 0) len).leaves
    (xAdvance s o.sa (m * 64 * s.tile.planes) :: if o.sb.getLsbD 0 && cfg.getLsbD 14 then [.minc] else [])
    ([s.tile.xEffect (s.tile.ct.now + len) (.cimLock base (base + 8 * s.tile.planes)),
      s.tile.xEffect (s.tile.ct.now + len + 4) (.cimEnd s.tile.ct.cx.trapen (List.replicate 48 0) none)] ++
      if rows = [] then [] else [s.tile.xEffect (s.tile.ct.now + 1) (.cimSlice (cmmRun s.tile o rows) 0 0 [])])

theorem multiply_starts {s : State} {o : XM} (fine : firstFault (s.tile.cmmFaults o) = none) (rows : List Nat) (m len : Nat) :
    multiply o (fun _ => rows) m (fun _ => len) s = .next (withTile s (multiplied s o rows m len)) := by
  refine checked_onTile (faults := fun s => s.tile.cmmFaults o) fine ?_
  have minc : bit s.tile.ct.cx.cimcfg.toNat 14 = s.tile.ct.cx.cimcfg.getLsbD 14 := bit_eq_testBit ..
  dsimp only
  rw [pipTaken_eq, later_if, pending_unless, takeCim_eq, minc]
  simp only [pending_eq, advance_eq, cfgBase_eq, leaves_leaves, leaves_ct, pipTaken_ct, pipTaken_leaves, engineTaken_ct, Tile.xEffect,
    Tile.c, Tile.planes, List.nil_append, List.append_nil, List.isEmpty_iff]
  rfl

/-- CMM and CMMQ are multiplies of the rows that their tile takes (R238). -/
theorem exec_cmm (o : XM) (s : State) (quad : Bool) : exec (if quad then .cmmq o else .cmm o) s =
    multiply o (fun _ => if quad then (List.range o.cnt.toNat).filter fun i => i % 4 == s.tile.ltid % 4 else List.range o.cnt.toNat)
      o.cnt.toNat (fun _ => s.tile.planes * s.tile.cmmW o * (if quad then (o.cnt.toNat + 3) / 4 else o.cnt.toNat)) s := by
  cases quad
  · rfl
  · rw [if_pos rfl, if_pos rfl, ← cmmqRows_eq (Nat.mod_lt _ (by decide))]; rfl

theorem multiplies_start : multipliesStart := by
  intro o s quad fine m p rows len pip
  refine ⟨_, (exec_cmm o s quad).trans (multiply_starts fine rows m len), rfl, rfl, rfl, rfl, rfl, rfl, rfl, rfl, rfl, fun cim gen => ?late,
    ?post, cmmRun s.tile o rows, rfl, rfl, rfl, rfl, rfl, rfl, ?pend⟩
  case late =>
    show (pipTaken (engineTaken s 0 len) pip len).late = s.tile.late
    simp [pipTaken, engineTaken, not_lt.2 cim, not_lt.2 gen]
  case post => rfl
  case pend => exact (List.append_assoc ..).symm

/-! ### The accumulator (R239) -/

theorem accIndex_row {lo n row col : Nat} (hcol : col < 384) :
    (accIndex lo 0 ≤ row * 384 + col ∧ row * 384 + col < accIndex (lo + n) 0) ↔ lo ≤ row ∧ row < lo + n := by
  simp only [accIndex]; omega

theorem cells_cleared (s : State) (o : XM) : ∃ m : Store 48, exec (.caccz o) s = .next (withTile s { engineTaken s 0 1 with acc := m }) ∧
    ∀ row col, col < 384 → memGet m (row * 384 + col) =
      if 4 * o.dst.toNat ≤ row ∧ row < 4 * o.dst.toNat + o.cnt.toNat then 0 else memGet s.tile.acc (row * 384 + col) := by
  refine ⟨memClear s.tile.acc (accIndex (4 * o.dst.toNat) 0) (accIndex (4 * o.dst.toNat + o.cnt.toNat) 0), ?_, fun row col hcol => ?_⟩
  · show execCaccz o s = _
    exact onTile_makes (by rw [takeCim_eq]; rfl)
  · rw [memGet_memClear]
    exact if_congr (accIndex_row hcol) rfl rfl

/-- Lanes whose flags are not enabled to trap land, with the union of their flags. -/
theorem arith_lanes_quiet {s : State} {l : List Nat} (q : Quiet s (l.foldl (· ||| ·) 0)) (lat n : Nat) (f : Tile → Nat → Tile) :
    s.tile.arith l lat n f = f s.tile (l.foldl (· ||| ·) 0) := by
  have b := quiet_bits q (h := 4) (l := 0) (by omega)
  have d := quiet_bits q (h := 12) (l := 8) (by omega)
  have none : arithTrap s.tile.trapen l = none := by simp [arithTrap, b, d]
  rw [Tile.arith, none]

theorem foldl_flags_eq (n : Nat) (res : Nat → FRes) :
    (((List.range n).map res).map fun r => bFlags r.fl).foldl (· ||| ·) 0 = laneFlagSum n (fun _ => true) fun i => (res i).fl := by
  simp [laneFlagSum, List.foldl_map, bFlags]

/-- A lane of a vector built from the values of results. -/
theorem lane_results {i : Nat} (h : i < 16) (res : Nat → FRes) :
    lane 32 i (ofLanes 32 (((List.range 16).map res).map (·.val))) = (res i).val % 2 ^ 32 := by
  rw [lane_ofLanes (by omega)]
  simp [List.getD_eq_getElem?_getD, h]

/-- Under an ACCMODE of sums that stay integers, a cell reads as its low word. -/
theorem readCell_integer {mode : Word} (h : mode.getLsbD 0 = false) (cell : BitVec 48) :
    (readCell mode.toNat cell).val = cell.toNat % 2 ^ 32 := by
  have plain : bit mode.toNat 0 = false := (bit_eq_testBit ..).trans h
  simp [readCell, plain]

/-- The cell that CACCRD reads into lane `i`, under ACCMODE (R239). -/
def readLane (s : State) (o : XM) (i : Nat) : FRes :=
  readCell s.tile.ct.cx.accmode.toNat
    (memGet s.tile.acc (o.cnt.toNat % 64 * 384 + (16 * (o.cnt.toNat / 64 + if o.sb.getLsbD 0 then 16 else 0) + i)))

theorem cells_read {s : State} {o : XM} (idle : s.tile.rowBusy (o.cnt.toNat % 64) = false)
    (q : Quiet s (laneFlagSum 16 (fun _ => true) fun i => (readLane s o i).fl)) :
    exec (.caccrd o) s = .next (gains s (.v (s.tile.ct.cx.phys (o.dst.setWidth 5)))
      (ofLanes 32 (((List.range 16).map (readLane s o)).map (·.val))) (BitVec.allOnes 64)
      (laneFlagSum 16 (fun _ => true) fun i => (readLane s o i).fl) 3 3) := by
  show execCaccrd o s = _
  rw [← foldl_flags_eq] at q ⊢
  dsimp only [execCaccrd]
  refine onTile_makes ?_
  dsimp only
  rw [idle]
  exact arith_lanes_quiet q 3 3 _

theorem accumulator_ops : accumulatorOps := by
  intro o s
  refine ⟨cells_cleared s o, fun idle q => ⟨_, cells_read idle q, fun i => (lane_results · _), fun integer i hi => ?_⟩, fun fine => ?_⟩
  · exact (lane_results hi _).trans (by rw [readLane, readCell_integer integer, Nat.mod_mod])
  · refine checked_onTile (faults := fun s => s.tile.caccstFaults o) fine ?_
    have groups : (if s.tile.fmtOf o.sa = 10 then 24 * o.cnt.toNat else 48 * o.cnt.toNat) =
      (if s.tile.fmtOf o.sa = 10 then 24 else 48) * o.cnt.toNat := (ite_mul ..).symm
    dsimp only
    rw [takeCim_eq, groups]; rfl

/-- Settles O32: ops on the CIM engine by `checked_onTile`, a multiply by `multiply_starts` with the rows of its tile, and the array by
what `memClear` and `readCell` leave of a cell. -/
theorem matrixEngineOpsStart : Obligations.MatrixEngineOpsStart :=
  ⟨plane_loads_start, multiplies_start, accumulator_ops⟩

end Sys2Proof.Machine
end

section
/-!
The dense engine: the tile that each of its ops leaves, and the reads of DMMA, which change nothing that its landing goes by.
-/
namespace Sys2Proof.Machine
open Sys2Proof.Safety

theorem takeDense_eq (s : State) (n : Nat) : s.tile.takeDense n = engineTaken s 1 n := by
  rw [Tile.takeDense, collide_eq]
  by_cases busy : s.tile.ct.now < s.tile.denseBusy <;> simp [Tile.c, engineTaken, engineTval, busy]

/-! ### Landings on an x register (R250) -/

/-- The tile with more effects to come. -/
def Tile.sends (t : Tile) (es : List Pend) : Tile := { t with pend := t.pend ++ es }

theorem sends_leaves (t : Tile) (es fs : List Pend) (ps : List Post) : (t.sends es).leaves ps fs = t.leaves ps (es ++ fs) := by
  rw [Tile.leaves, Tile.leaves, Tile.sends, List.append_assoc]

theorem landX_clear {t : Tile} {x : BitVec 3} {at_ : Nat} {fix : Bool} (h : t.xClash x at_ fix = false) (k : PendKind) :
    t.landX x at_ fix k = t.sends [t.xEffect at_ k] := by
  rw [Tile.landX, h]; rfl

@[simp] theorem engineTaken_xClash (s : State) (e n : Nat) (x : BitVec 3) (at_ : Nat) (fix : Bool) :
    (engineTaken s e n).xClash x at_ fix = s.tile.xClash x at_ fix := rfl

/-! ### Clearing, loading, storing and reading x registers (R247) -/

theorem register_cleared {s : State} {o : XM} (clear : s.tile.xClash (xOf o) (s.tile.ct.now + 1) false = false) :
    execDxz o s = .next (withTile s ((engineTaken s 1 1).sends [xEffect s (s.tile.ct.now + 1) (.xZero (xOf o))])) :=
  onTile_makes (by rw [takeDense_eq]; exact landX_clear (t := engineTaken s 1 1) clear _)

/-- A stream that is valid, of the direction asked for and not at its end may be named with its own element size (R221). -/
theorem streamFault_none {st : Stream} {write : Bool} (valid : st.valid = true) (dir : recWrite st.record = write)
    (more : st.pos < recN st.record) (n : Nat) : streamFault st n write (recZ st.record) = none := by
  simp [streamFault, valid, dir, more.ne]

/-- KIND of the contents that a stream's format gives (R247). -/
def streamKind (st : Stream) : XKind := if recFmt st.record = 11 then .f64 else .f32

theorem streamKind_n (st : Stream) : (streamKind st).n = if recFmt st.record = 11 then 8 else 16 := by
  unfold streamKind; split <;> rfl

theorem groups_eq_n (k : XKind) : (if k = .f64 then 8 else 16) = k.n := by cases k <;> rfl

theorem streamKind_of_n (st : Stream) : (if (streamKind st).n = 8 then .f64 else .f32) = streamKind st := by
  unfold streamKind; split <;> rfl

theorem register_loaded {s : State} {o : XM} {st : Stream} (hst : s.tile.ct.cx.rdA o.sa = st) (valid : st.valid = true)
    (dir : recWrite st.record = false) (more : st.pos < recN st.record) (fmt : recFmt st.record = 10 ∨ recFmt st.record = 11) {n : Nat}
    (hn : (streamKind st).n = n) (clear : s.tile.xClash (xOf o) (s.tile.ct.now + 4 + n) false = false) :
    execDxld o s = .next (withTile s ((engineTaken s 1 n).leaves [xAdvance s o.sa (n * n)]
      [xEffect s (s.tile.ct.now + 4 + n) (.xLoad (xOf o) (streamKind st) []), xEffect s (s.tile.ct.now + 1) (.xRead (xOf o) 0 st)])) := by
  subst hst
  refine checked_onTile ?_ ?_
  · rw [firstFault_none]
    rcases fmt with fmt | fmt <;> simp [Tile.xNaming, streamFault_none valid dir more, shapeIf, Tile.fmtOf, fmt]
  · have kind : (if s.tile.fmtOf o.sa = 11 then XKind.f64 else .f32) = streamKind (s.tile.ct.cx.rdA o.sa) := rfl
    dsimp only
    rw [kind, groups_eq_n, hn, takeDense_eq, landX_clear (by exact clear), advance_eq, pending_eq, leaves_leaves, sends_leaves]
    rfl

/-- The kind of what DXST stores is that of its stream, where x holds no other (R247). -/
theorem storeKind_eq {t : Tile} {o : XM}
    (agree : (t.fmtOf o.sa = 10 ∧ (t.ct.cx.rdX (xOf o)).kind ≠ .f64) ∨ (t.fmtOf o.sa = 11 ∧ (t.ct.cx.rdX (xOf o)).kind ≠ .f32)) :
    t.storeKind o = streamKind (t.ct.cx.rdA o.sa) := by
  unfold Tile.storeKind
  cases kind : (t.ct.cx.rdX (xOf o)).kind with
  | empty => rfl
  | f32 =>
    have fmt : t.fmtOf o.sa = 10 := by simpa [kind] using agree
    exact (if_neg (fmt.trans_ne (by decide))).symm
  | f64 =>
    have fmt : t.fmtOf o.sa = 11 := by simpa [kind] using agree
    exact (if_pos fmt).symm

theorem register_stored {s : State} {o : XM} {st : Stream} (hst : s.tile.ct.cx.rdA o.sa = st) (valid : st.valid = true)
    (dir : recWrite st.record = true) (more : st.pos < recN st.record) {n : Nat} (hn : (streamKind st).n = n)
    (agree : (recFmt st.record = 10 ∧ (xReg s o).kind ≠ .f64) ∨ (recFmt st.record = 11 ∧ (xReg s o).kind ≠ .f32)) :
    execDxst o s = .next (withTile s ((engineTaken s 1 n).leaves [xAdvance s o.sa (n * n)]
      [xEffect s (s.tile.ct.now + 1) (.xStore 0 st ((xReg s o).data (streamKind st)))])) := by
  subst hst
  have kind := storeKind_eq (t := s.tile) (o := o) agree
  refine checked_onTile ?_ ?_
  · rw [firstFault_none]
    dsimp only
    rw [kind]
    rcases agree with ⟨fmt, -⟩ | ⟨fmt, -⟩ <;>
      simp [Tile.xNaming, streamFault_none valid dir more, shapeIf, Tile.fmtOf, fmt, streamKind]
  · dsimp only
    rw [kind, groups_eq_n, hn, takeDense_eq, advance_eq, pending_eq, leaves_leaves]
    rfl

theorem cell_read {s : State} {o : XM} (there : ¬((xReg s o).kind = .f64 ∧ 80 < o.cnt.toNat)) :
    execDxrd o s = .next (gains (withTile s (engineTaken s 1 1)) (.s (o.sa.setWidth 6))
      ((memGet (xReg s o).cells o.cnt.toNat).setWidth 512) 0xFF 0 2 3) := by
  have cell : s.tile.noCell o = false := by
    simp only [Tile.noCell, Bool.and_eq_false_imp, beq_iff_eq, decide_eq_false_iff_not]
    exact fun f64 past => there ⟨f64, past⟩
  dsimp only [execDxrd]
  rw [if_neg (by rw [cell]; decide)]
  exact onTile_makes (by rw [takeDense_eq]; rfl)

theorem no_cell_traps {s : State} {o : XM} (f64 : (xReg s o).kind = .f64) (past : 80 < o.cnt.toNat) :
    execDxrd o s = .next (charged s .illegalOp (BitVec.ofNat 64 s.tile.freeTval) 3 s.tile.ct.now) := by
  have none : s.tile.noCell o = true := by
    rw [Tile.noCell, Bool.and_eq_true, beq_iff_eq, decide_eq_true_eq]
    exact ⟨f64, past⟩
  dsimp only [execDxrd]
  rw [if_pos none, trapOut_eq]

/-! ### Checks and repairs (R248, R249) -/

/-- A pattern of masks that DXFIX repairs or that asks for nothing: both masks zero, or one line in each. -/
def fitPattern (rows cols : Nat) : Prop := (rows = 0 ∧ cols = 0) ∨ (popCount 17 rows == 1 && popCount 17 cols == 1) = true

theorem repairable_iff (rows cols : Nat) : repairable rows cols = true ↔ fitPattern rows cols := by
  simp [repairable, fitPattern]

theorem checksum_off {t : Tile} {rows cols : Nat} (h : fitPattern rows cols ∨ bit t.ct.cx.trapen.toNat 16 = false) :
    (!repairable rows cols && t.chkEn) = false := by
  rcases h with fit | off
  · rw [(repairable_iff ..).2 fit]; rfl
  · rw [Tile.chkEn, Tile.trapen, off, Bool.and_false]

theorem checksum_on {t : Tile} {rows cols : Nat} (h : ¬fitPattern rows cols) (on : bit t.ct.cx.trapen.toNat 16 = true) :
    (!repairable rows cols && t.chkEn) = true := by
  rw [← repairable_iff, Bool.not_eq_true] at h
  rw [h, Tile.chkEn, Tile.trapen, on]; rfl

theorem checks_and_fixes : checksAndFixes := by
  intro o s now x r m one fine
  refine ⟨fun empty => ?_, fun quiet => ?_, fun unfit on => ?_, fun clear quiet => ?_⟩
  · simp only [m, checkMasks]; exact if_pos empty
  · show execDchk o s = _
    refine onTile_makes ?_
    dsimp only
    rw [takeDense_eq, if_neg (by rw [Bool.not_eq_true]; exact checksum_off quiet)]; rfl
  · show execDchk o s = _
    refine onTile_makes ?_
    dsimp only
    rw [takeDense_eq, if_pos (by exact checksum_on unfit on)]; rfl
  · show execDxfix o s = _
    have width : 2 ^ ((s.tile.ct.cx.rdX (xOf o)).kind.n + 1) = 2 ^ (if r.kind = .f64 then 9 else 17) := by
      show 2 ^ (r.kind.n + 1) = _
      cases r.kind <;> rfl
    refine onTile_makes ?_
    dsimp only
    rw [width, takeDense_eq, landX_clear (by exact clear), if_neg (by rw [Bool.not_eq_true]; exact checksum_off quiet)]
    rfl

/-! ### DMMA (R246) -/

/-- What an effect to come takes from its tile beside what it does: the effects that it joins, and its cycle, its place and its phase. -/
def Tile.sender (t : Tile) : List Pend × Nat × Nat × Nat := (t.pend, t.ct.now, t.ct.sq.pc, t.ct.cx.phaseNum)

theorem outOfRange_sender (t : Tile) (vault : Bool) (a : Nat) : (t.outOfRange vault a).sender = t.sender := by
  cases ho : t.ct.oor <;> simp only [Tile.outOfRange, ho] <;> repeat' split
  all_goals rfl

theorem spNote_sender (t : Tile) (as : List Nat) (n : Nat) : (t.spNote as n).sender = t.sender := by
  unfold Tile.spNote
  split
  · rfl
  · exact outOfRange_sender ..

theorem spRaceMark_sender (t : Tile) (as : List Nat) (phase : Nat) (write : Bool) : (t.spRaceMark as phase write).sender = t.sender := by
  unfold Tile.spRaceMark
  split
  · rfl
  · refine foldl_keeps Tile.sender (fun t w => ?_) _ t
    dsimp only
    split <;> rfl

theorem spCheckWord_sender (t : Tile) (p slot issue addr : Nat) : (t.spCheckWord p slot issue addr).sender = t.sender := by
  unfold Tile.spCheckWord
  repeat' split
  all_goals rfl

theorem spCheck_sender (t : Tile) (as : List Nat) (slot issue addr : Nat) : (t.spCheck as slot issue addr).sender = t.sender := by
  unfold Tile.spCheck
  split
  · rfl
  · exact foldl_keeps Tile.sender (fun t w => spCheckWord_sender t _ slot issue addr) _ t

/-- Reading a group now sets nothing under way, whatever its accesses find (R201, R210, R213, R269). -/
theorem groupNow_sender (t : Tile) (n : BitVec 4) (z : Nat) : (t.groupNow n z).2.sender = t.sender := by
  show (t.spUseNow _ z 3).sender = _
  rw [Tile.spUseNow, spCheck_sender, spRaceMark_sender]
  exact spNote_sender ..

theorem xEffect_of_sender {t u : Tile} (h : t.sender = u.sender) (due : Nat) (k : PendKind) : t.xEffect due k = u.xEffect due k := by
  simp only [Tile.sender, Prod.mk.injEq] at h
  obtain ⟨-, now, pc, phase⟩ := h
  rw [Tile.xEffect, now, pc, phase]; rfl

theorem xClash_of_sender {t u : Tile} (h : t.sender = u.sender) (x : BitVec 3) (at_ : Nat) (fix : Bool) :
    t.xClash x at_ fix = u.xClash x at_ fix := by
  simp only [Tile.sender, Prod.mk.injEq] at h
  obtain ⟨pend, now, -, -⟩ := h
  rw [Tile.xClash, Tile.c, pend, now]; rfl

theorem product_begun {s : State} {o : XM} (fine : firstFault (s.tile.dmmaFaults o) = none)
    (clear : s.tile.xClash (xOf o) (s.tile.ct.now + 8) false = false) :
    let z := typeWidth (o.cnt.toNat % 16) / 8
    let a := s.tile.groupNow o.sa z
    let b := a.2.groupNow o.sb z
    execDmma o s = .next (withTile s ((engineTaken (withTile s b.2) 1 4).sends
      [xEffect s (s.tile.ct.now + 8) (.dmma (xOf o) (o.cnt.toNat % 16) a.1 b.1 s.tile.ct.cx.trapen)])) := by
  intro z a b
  have same : (engineTaken (withTile s b.2) 1 4).sender = s.tile.sender := (groupNow_sender ..).trans (groupNow_sender ..)
  refine checked_onTile (faults := fun s => s.tile.dmmaFaults o) fine ?_
  show (b.2.takeDense 4).landX _ _ _ _ = _
  rw [show b.2.takeDense 4 = engineTaken (withTile s b.2) 1 4 from takeDense_eq (withTile s b.2) 4,
    landX_clear (by exact (xClash_of_sender same ..).trans clear), xEffect_of_sender same]
  rfl

theorem ofBytes_lt (l : List Byte) : ofBytes l < 2 ^ (8 * l.length) := by
  induction l with
  | nil => exact Nat.one_pos
  | cons b l ih =>
    have byte := b.isLt
    rw [ofBytes, List.length_cons, Nat.mul_succ, Nat.pow_add]
    omega

theorem spRead_lt (t : Tile) (a n : Nat) : t.spRead a n < 2 ^ (8 * n) := by
  unfold Tile.spRead
  split
  · exact Nat.two_pow_pos _
  · simpa [Tile.spNat, Tile.spBytes] using ofBytes_lt (t.spBytes a n)

/-- A lane of a group read now is the element that the walk still has there, else zero (R221). -/
theorem groupNow_lane {t : Tile} {n : BitVec 4} {z i : Nat} (hi : i < 64 / z) : let st := t.ct.cx.rdA n
    lane (8 * z) i (t.groupNow n z).1 = if st.pos + i < recN st.record then t.spRead (recAddr st.record (st.pos + i)) z else 0 := by
  have fits : 8 * z * i + 8 * z ≤ 512 := lane_fits (by rwa [show 512 = 8 * 64 from rfl, Nat.mul_div_mul_left _ _ (by decide)])
  simp only [Tile.groupNow]
  rw [lane_ofLanes fits]
  simp only [Tile.engineVals, walk, List.map_map, List.getD_eq_getElem?_getD, List.getElem?_map, List.getElem?_range hi,
    Option.map_some, Option.getD_some, Function.comp]
  by_cases more : (t.ct.cx.rdA n).pos + i < recN (t.ct.cx.rdA n).record
  · simp only [more, if_true]
    exact Nat.mod_eq_of_lt (spRead_lt ..)
  · simp only [more, if_false, Nat.zero_mod]

theorem dense_ops_start : denseOpsStart := by
  intro o s now x ty z a b st n
  have groups : (streamKind st).n = n := streamKind_n st
  clear_value n
  subst groups
  refine ⟨fun fine clear => ⟨product_begun fine clear, fun i hi => groupNow_lane hi⟩, register_cleared,
    fun valid dir more fmt clear => ?loads, fun valid dir more agree => register_stored rfl valid dir more rfl agree, cell_read,
    fun f64 past => ⟨_, no_cell_traps f64 past⟩⟩
  case loads =>
    rw [streamKind_of_n]
    exact register_loaded rfl valid dir more fmt rfl clear

/-- Settles O33: each op by the tile that it makes; the two reads of DMMA keep what its landing is set by (`groupNow_sender`), and a
pattern that DXFIX does not repair is told by `checksum_on` and `checksum_off`. -/
theorem denseOpsAndChecksStart : Obligations.DenseOpsAndChecksStart := ⟨dense_ops_start, checks_and_fixes⟩

end Sys2Proof.Machine
end

section
/-!
Loading and moving shares: what reads back from a memory of which a part was replaced, the reload of an IMEM share, and contexts
that leave for their save area and come back.
-/
namespace Sys2Proof.Machine
open Sys2Proof.Safety

/-! ### Replacing a part of a memory -/

/-- The cells of a canonical memory, moved and written over another, read back where they are; elsewhere the other one stands. -/
theorem memGet_memSetAll_moved {w : Nat} {m new : Store w} {lo : Nat} (hm : memWf m = true) (hn : memWfFrom lo new = true) (d b : Nat) :
    memGet (memSetAll m (new.map fun c => (c.1 + d, c.2))) (b + d) =
      if memGet new b = 0 then memGet m (b + d) else memGet new b := by
  induction new generalizing m lo with
  | nil => rfl
  | cons c new ih =>
    obtain ⟨x, v⟩ := c
    simp only [memWfFrom, Bool.and_eq_true, bne_iff_ne] at hn
    obtain ⟨⟨-, nonzero⟩, above⟩ := hn
    show memGet (memSetAll (memSet m (x + d) v) (new.map fun c => (c.1 + d, c.2))) (b + d) = _
    rw [ih (memSet_wf hm _ _) above, memGet]
    by_cases e : b = x
    · subst e
      rw [memGet_below above (Nat.lt_succ_self b), if_pos rfl, if_pos rfl, if_neg nonzero, memGet_memSet_self hm]
    · rw [if_neg e, memGet_memSet_other hm v (by omega)]

/-- A part of a memory that is replaced reads as what replaces it. -/
theorem memGet_memPaste {w : Nat} {m new : Store w} (hm : memWf m = true) (hn : memWf new = true) {n a : Nat} (at_ : Nat) (ha : a < n) :
    memGet (memPaste m at_ n new) (at_ + a) = memGet new a := by
  have cleared : memGet (memClear m at_ (at_ + n)) (at_ + a) = 0 := by rw [memGet_memClear, if_pos (by omega)]
  rw [memPaste, Nat.add_comm at_ a, memGet_memSetAll_moved (memClear_wf hm _ _) hn, Nat.add_comm a at_, cleared]
  split
  · next zero => exact zero.symm
  · rfl

/-! ### Shares of an image (R164, R269) -/

theorem shareCode_wf (im : Image) (i : Nat) : memWf (shareCode im i) = true := by
  unfold shareCode
  split
  · rfl
  · exact memPut_wf (memPut_wf rfl _ _) _ _

theorem shares_reload : sharesReloadFromTheImage := by
  intro s j im hj him ask wf k i
  refine ⟨memPaste s.tile.imem (k.ibase * 1024) (k.isize * 1024) (shareCode im i), ?_, fun a ha =>
    memGet_memPaste wf (shareCode_wf im i) _ ha⟩
  show execImemShareReload s = _
  simp only [execImemShareReload, ask, hj, him, Option.bind_some, Option.map_some]
  rfl

/-! ### Contexts that move (R264, R265) -/

/-- A share that goes into its place reads back there. -/
theorem putShare_pub {t : Tile} {k : Context} {v : SavedShare} (ht : memWf t.sp.pub = true) (hv : memWf v.sp.pub = true) {a : Nat}
    (ha : a < k.ssize * 1024) : memGet (t.putShare k v).sp.pub (k.sbase + a) = memGet v.sp.pub a :=
  memGet_memPaste ht hv _ ha

/-- The wanted context stays the same while another goes to the list of those streamed out. -/
theorem wanted_append {t u : Tile} {k o : Context} (h : t.wanted = some k) (want : u.want = t.want)
    (more : u.streamed = t.streamed ++ [o]) : u.wanted = some k := by
  obtain ⟨p, hp, found⟩ := Option.bind_eq_some_iff.mp h
  rw [Tile.wanted, want, hp, Option.bind_some, more, List.find?_append, found]
  rfl

/-- Where no context has to leave a tile with room for the wanted one, its movement begins. -/
theorem startMove_comes {s : State} {t : Tile} {k : Context} (still : t.moveAt = none) (single : t.standby = none) (hw : t.wanted = some k)
    (fits : (sharesBeside (if t.ct.full then some t.ct else none) k).isSome = true) :
    s.startMove t = { t with moveAt := some (s.wcyc + moveCycles k (t.saved.any fun v => v.pid == k.pid && v.arrays)) } := by
  have stays : s.leaving t = none := by
    simp only [State.leaving, single, hw]
    by_cases full : t.ct.full = true
    · simp only [full, if_true] at fits
      simp [Option.isNone_iff_eq_none, Option.isSome_iff_ne_none.mp fits]
    · simp [full]
  simp [State.startMove, still, hw, stays, fits]

/-- The context that leaves goes to its save area, the other stands in the active slot, and the next movement may begin. -/
theorem contextStreamOut_saves {s : State} {o k : Context} (leaves : s.leaving s.tile = some o) (hw : s.tile.wanted = some k) :
    exec .contextStreamOut s = .next (withTile s (s.startMove { s.tile with
      ct := if s.tile.standby = some o then s.tile.ct else s.tile.standby.getD {}, standby := none
      saved := s.tile.saved ++ [{ s.tile.getShare o with arrays := o.cimUser && k.cimUser }]
      streamed := s.tile.streamed ++ [o], moveAt := none })) := by
  show execContextStreamOut s = _
  simp only [execContextStreamOut, onTile, leaves, hw]
  by_cases h : s.tile.standby = some o <;> simp only [h, if_true, if_false] <;> rfl

/-- The wanted context comes into an empty tile, with the share that was saved with it. -/
theorem contextStreamIn_places {s : State} {k : Context} {v : SavedShare} (single : s.tile.standby = none) (empty : s.tile.ct.isize = 0)
    (hw : s.tile.wanted = some k) (hv : s.tile.saved.find? (·.pid == k.pid) = some v) :
    exec .contextStreamIn s = .next (withTile s { ({ s.tile with
      streamed := s.tile.streamed.filter (!·.isOf k.pid), saved := s.tile.saved.filter (·.pid != k.pid), want := none
      moveAt := none } : Tile).putShare { k with ibase := 0, sbase := 0 } v with ct := { k with ibase := 0, sbase := 0 } }) := by
  have vacant : s.tile.ct.full = false := by simp [Context.full, empty]
  show execContextStreamIn s = _
  simp only [execContextStreamIn, onTile, hw, single, vacant, hv, Option.isSome_none, Bool.false_eq_true, if_false, sharesBeside, Tile.putShare]
  rfl

theorem contexts_stream : contextsStream := by
  refine ⟨?out, ?back⟩
  case out =>
    intro s o k leaves hw rest saved fits
    refine (contextStreamOut_saves leaves hw).trans (congrArg (fun t => Host.Outcome.next (withTile s t)) (startMove_comes rfl rfl ?_ fits))
    exact wanted_append hw rfl rfl
  case back =>
    intro s k v single empty hw hv ht hsp
    refine ⟨_, contextStreamIn_places single empty hw hv, rfl, rfl, rfl, rfl, fun a ha => ?_⟩
    have placed := putShare_pub (k := { k with ibase := 0, sbase := 0 }) ht hsp ha
    rwa [Nat.zero_add] at placed

end Sys2Proof.Machine
end

section
/-!
The end of a job that runs alone (R404): its entry, its tiles and its place; the causes of handlers and silent errors that end it so.
-/
namespace Sys2Proof.Machine
open Sys2Proof.Safety

/-! ### Jobs that a test picks -/

theorem mem_updWhere {α : Type} {p : α → Bool} {f : α → α} {l : List α} {y : α} :
    y ∈ updWhere p f l ↔ ∃ x ∈ l, (if p x then f x else x) = y := List.mem_map

/-- A change that keeps a test keeps what the test finds first, changed. -/
theorem find?_updWhere {α : Type} {p q : α → Bool} {f : α → α} (keeps : ∀ x, q (f x) = q x) (l : List α) :
    (updWhere p f l).find? q = (l.find? q).map fun x => if p x then f x else x := by
  have same : (q ∘ fun x => if p x then f x else x) = q := funext fun x => by
    simp only [Function.comp_apply]
    split
    · exact keeps x
    · rfl
  rw [updWhere, List.find?_map, same]

theorem job?_some {s : State} {pid : Nat} {j : Job} (h : s.job? pid = some j) : j ∈ s.jobs ∧ j.pid = pid ∧ j.state = .running := by
  have found := List.find?_some h
  simp only [Bool.and_eq_true, beq_iff_eq] at found
  exact ⟨List.mem_of_find?_eq_some h, found⟩

/-- A change of a partition's job that leaves it there and running is a change of the job found there. -/
theorem job?_onJob {s : State} {pid : Nat} {f : Job → Job} (keeps : ∀ j, (f j).pid = j.pid ∧ (f j).state = j.state) :
    (s.onJob pid f).job? pid = (s.job? pid).map f := by
  unfold State.job?
  rw [State.onJob_jobs, find?_updWhere fun j => by rw [(keeps j).1, (keeps j).2]]
  refine Option.map_congr fun j found => ?_
  rw [if_pos (List.find?_some (Option.mem_def.mp found))]

@[simp] theorem Job.same_self (j : Job) : j.same j = true := by simp [Job.same]

/-! ### Entries (R404) -/

@[simp] theorem onRing_admission (h : Hilum) (r : RingId) (f : Ring → Ring) : (h.onRing r f).admission = h.admission := by cases r <;> rfl

theorem enter_room {s : State} {r : RingId} (room : (s.hilum.ring r).waiting.length < 1024) (ws : List Word) :
    s.enter r ws = s.onHilum (·.onRing r fun q => { q with waiting := q.waiting ++ [⟨ws⟩] }) := if_neg (Nat.not_le.mpr room)

/-- The STATUS field of an entry. -/
theorem entryWords_status (s : State) (r : RingId) (status ctag : Nat) (jobEnd : Bool) (d : EntryData) :
    ((s.entryWords r status ctag jobEnd d).getD 1 0).toNat % 2 ^ 16 = status % 2 ^ 16 := by
  show (BitVec.ofNat 64 (status + (if jobEnd then 2 ^ 16 else 0) + (if d.late then 2 ^ 17 else 0) + ctag * 2 ^ 32)).toNat % 2 ^ 16 = _
  rw [BitVec.toNat_ofNat]
  cases jobEnd <;> cases d.late <;> simp only [if_true, Bool.false_eq_true, if_false] <;> omega

/-- The trap record of an entry. -/
theorem entryWords_trap (s : State) (r : RingId) (status ctag : Nat) (jobEnd : Bool) (d : EntryData) :
    ((s.entryWords r status ctag jobEnd d).drop 8).take 4 = (d.trap ++ [0, 0, 0, 0]).take 4 := by
  obtain ⟨a, b, two⟩ := List.length_eq_two.mp (show ((d.replays ++ [0, 0]).take 2).length = 2 by simp)
  have four : ((d.trap ++ [0, 0, 0, 0]).take 4).length = 4 := by simp
  simp only [State.entryWords, two]
  generalize (d.trap ++ [0, 0, 0, 0]).take 4 = t at four
  simp [four]

/-- What one entry more in the ring of a job says of it: its JOBID, the status and the trap record. -/
def jobEntry (s t : State) (j : Job) (status : Nat) (trap : List Word) : Prop :=
  ∃ e : Entry, (t.hilum.ring j.ring).waiting = (s.hilum.ring j.ring).waiting ++ [e] ∧ e.words.getD 0 0 = j.jobid ∧
    (e.words.getD 1 0).toNat % 2 ^ 16 = status ∧ (e.words.drop 8).take 4 = trap

/-- An advance of the chain leaves what waits for admission and for the ring. -/
theorem chain_advances (s : State) (j : Job) (chains : Bool) (result : List Byte) :
    ∃ h : Hilum, (if chains = true then s.onHilum (·.onRing j.ring (·.advance result j.jobid)) else s) = s.onHilum (fun _ => h) ∧
      h.admission = s.hilum.admission ∧ (h.ring j.ring).waiting = (s.hilum.ring j.ring).waiting := by
  cases chains with
  | false => exact ⟨s.hilum, rfl, rfl, rfl⟩
  | true => exact ⟨_, rfl, onRing_admission .., by rw [Hilum.ring_onRing_self]; rfl⟩

/-- The entry of a job's end: nothing but the Hilum changes, and nothing there waits for admission that did not. -/
theorem endEntry_enters {s : State} {j : Job} (room : (s.hilum.ring j.ring).waiting.length < 1024) (status dcyc unit : Nat) (trap : List Word) :
    ∃ h : Hilum, s.endEntry j status dcyc unit trap = s.onHilum (fun _ => h) ∧ h.admission = s.hilum.admission ∧
      jobEntry s (s.onHilum fun _ => h) j (status % 2 ^ 16) ((trap ++ [0, 0, 0, 0]).take 4) := by
  obtain ⟨h, chained, queued, waits⟩ := chain_advances s j (!noChain.contains status && !(status == stCancelled && !j.started))
    (if status = stEmpty then digest256 [] else j.digest)
  have room' : ((s.onHilum fun _ => h).hilum.ring j.ring).waiting.length < 1024 := by rw [State.onHilum_hilum, waits]; exact room
  simp only [State.endEntry, chained, enter_room room']
  refine ⟨_, rfl, (onRing_admission ..).trans queued, ?entry, ?waiting, ?words⟩
  case waiting =>
    rw [State.onHilum_hilum, Hilum.ring_onRing_self]
    exact congrArg (· ++ _) waits
  case words => exact ⟨rfl, entryWords_status .., entryWords_trap ..⟩

/-! ### Leaving the wafer (R404) -/

theorem evict_gone (t : Tile) (pid : Nat) : (t.evict pid).ct.isOf pid = false := by
  unfold Tile.evict
  dsimp only
  split
  · rfl
  · next h => exact Bool.not_eq_true _ ▸ h

/-- No tile of a job that leaves holds a context of it. -/
theorem discard_tiles {s : State} {j : Job} {u : Tile} (hu : u ∈ (s.discard j).tiles) (there : j.ltids.contains u.ltid = true) :
    u.ct.isOf j.pid = false := by
  have moved : (s.discard j).tiles = s.tiles.map fun t => if j.ltids.contains t.ltid then t.evict j.pid else t := rfl
  obtain ⟨t, -, rfl⟩ := List.mem_map.mp (moved ▸ hu)
  by_cases h : j.ltids.contains t.ltid = true
  · rw [if_pos h]; exact evict_gone t j.pid
  · rw [if_neg h] at there; exact absurd there h

/-- Every job that is the one retired has ended. -/
theorem retired_ended {l : List Job} {j k : Job} (live : j.state ≠ .ended)
    (hk : k ∈ updWhere (fun k => k.same j && (k.state == .ended) == (j.state == .ended)) Job.retire l) (same : k.same j = true) :
    k.state = .ended := by
  obtain ⟨x, -, rfl⟩ := mem_updWhere.mp hk
  split
  · rfl
  · next other =>
    rw [if_neg other] at same
    simpa [same, live] using other

/-- With no record waiting the admission loop does nothing. -/
theorem runAdmission_idle {s : State} (idle : ∀ c : Fin 4, s.hilum.admission[c] = []) : s.runAdmission = s := by
  have nobody : (List.finRange 4).find? (fun c => !(s.hilum.admission[c]).isEmpty) = none :=
    List.find?_eq_none.mpr fun c _ => by simp [idle c]
  show s.admitLoop (s.jobs.length + 3 + 1) = s
  simp only [State.admitLoop, nobody, ite_self]

/-- One placement ends: its entry, its tiles, its place. -/
theorem closeJob_ends {s : State} {j : Job} (live : j.state ≠ .ended) (room : (s.hilum.ring j.ring).waiting.length < 1024)
    (status dcyc unit : Nat) (trap : List Word) : let t := s.closeJob j status dcyc unit trap
    jobEnded s t j (status % 2 ^ 16) ((trap ++ [0, 0, 0, 0]).take 4) ∧ t.hilum.admission = s.hilum.admission ∧
      t.retireAsk = s.retireAsk := by
  have owed : ∃ cs, (if breaksPairs status || j.breakAsk then s.oweBreaks j else s) = { s with commons := cs } := by
    split <;> exact ⟨_, rfl⟩
  obtain ⟨cs, owed⟩ := owed
  obtain ⟨h, entered, queued, entry⟩ := endEntry_enters (s := { s with commons := cs }) room status dcyc unit trap
  simp only [State.closeJob, owed, entered]
  exact ⟨⟨fun k hk same => retired_ended live hk same, fun u hu there => discard_tiles hu there, entry⟩, queued, rfl⟩

/-- A job that runs alone ends with nothing else happening. -/
theorem finishJob_alone {s : State} {j : Job} (plain : endsPlainly s j) (live : j.state ≠ .ended) {status : Nat} (small : status < 2 ^ 16)
    (dcyc unit : Nat) (trap : List Word) : let t := s.finishJob j status dcyc unit trap
    jobEnded s t j status ((trap ++ [0, 0, 0, 0]).take 4) ∧ t.retireAsk = s.retireAsk := by
  obtain ⟨alone, idle, room⟩ := plain
  obtain ⟨ended, queued, asks⟩ := closeJob_ends live room status dcyc unit trap
  have single : s.endJob j status dcyc unit trap = s.closeJob j status dcyc unit trap := by simp [State.endJob, State.twinOf, alone]
  intro t
  have same : t = s.closeJob j status dcyc unit trap :=
    (congrArg State.runAdmission single).trans (runAdmission_idle fun c => by rw [queued]; exact idle c)
  rw [Nat.mod_eq_of_lt small] at ended
  exact same ▸ ⟨ended, asks⟩

/-! ### The one cause of a group or of a partition (R252, R262, R268) -/

theorem Cause.code_lt (c : Cause) : c.code < 2 ^ 8 := by
  cases c <;> simp only [Cause.code] <;> omega

/-- Of the tiles that a test picks only the first has something to list. -/
theorem flatMap_filter_head {α β : Type} {p : α → Bool} {g : α → List β} {x : α} {xs : List α} (first : p x = true)
    (rest : ∀ y ∈ xs, p y = true → g y = []) : ((x :: xs).filter p).flatMap g = g x := by
  have none : (xs.filter p).flatMap g = [] := List.flatMap_eq_nil_iff.mpr fun y hy => by
    obtain ⟨there, picked⟩ := List.mem_filter.mp hy
    exact rest y there picked
  rw [List.filter_cons_of_pos first, List.flatMap_cons, none, List.append_nil]

/-- Where no other tile of the group has a cause, the causes of the group are the tile's own. -/
theorem groupDets_own {s : State} (rest : ∀ u ∈ s.others, u.sameGroup s.tile = true ∨ u.ltid = s.tile.ltid → u.dets = []) :
    s.groupDets s.tile = s.tile.dets.map fun d => (s.tile, d) :=
  flatMap_filter_head (by simp) fun u hu picked => by
    rw [rest u hu (by simpa using picked)]
    rfl

theorem handlerFault_sole {s : State} {j : Job} {d : Det} (hj : s.myJob = some j) (only : s.groupDets s.tile = [(s.tile, d)])
    (due : d.det + treeDelay j.width j.height ≤ s.tile.ct.now) (nest : d.nest = true) (precise : d.cls = .precise) :
    s.handlerFault = some (s.tile, d) := by
  have nested : d.endsNested = true := by simp [Det.endsNested, nest, precise]
  simp [State.handlerFault, hj, only, nested, firstDet, hasClass, precise, Job.td, Tile.c, due]

theorem silentDue_sole {s : State} {j : Job} {d : Det} (hj : s.myJob = some j) (full : s.tile.ct.isize ≠ 0) (only : s.tile.dets = [d])
    (rest : ∀ u ∈ s.others, u.ct.isOf s.tile.ct.pid = true → u.dets = []) (silent : d.cls = .silent)
    (due : d.det + treeDelay j.width j.height ≤ s.tile.ct.now) : s.silentDue s.tile.ct.pid = [(s.tile, d)] := by
  have listed : ((s.tiles.filter fun t => t.ct.isOf s.tile.ct.pid).flatMap fun t =>
      (t.dets.filter fun d => d.cls == .silent).map fun d => (t, d)) = [(s.tile, d)] :=
    (flatMap_filter_head (by simp [Context.isOf, Context.full, full]) fun u hu picked => by rw [rest u hu picked]; rfl).trans
      (by simp [only, silent])
  unfold State.myJob at hj
  simp only [State.silentDue, hj, listed]
  simp [Job.td, Tile.c, due]

theorem handler_faults_and_silent_errors : handlerFaultsAndSilentErrorsEndTheJob := by
  intro s j hj plain d only due
  obtain ⟨-, -, running⟩ := job?_some hj
  have live : j.state ≠ .ended := by simp [running]
  refine ⟨fun nest precise rest => ?handler, fun silent full rest => ?silent⟩
  case handler =>
    have fault := handlerFault_sole hj ((groupDets_own rest).trans (by rw [only]; rfl)) due nest precise
    have small : 0x100 + d.cause.code < 2 ^ 16 := by have := d.cause.code_lt; omega
    refine ⟨_, ?_, (finishJob_alone plain live small (d.det + j.td) 0
      (trapRecord d.cause.code s.tile.ltid s.tile.ct.node true d.slot d.addr d.issue d.tval)).1⟩
    show execHandlerFaultEnd s = _
    simp only [execHandlerFaultEnd, fault, hj]
  case silent =>
    have killed := silentDue_sole hj full only rest silent due
    let s' : State := { s with retireAsk := s.retireAsk ++ [s.unitWord s.tile.ltid false d.cause.code] }
    obtain ⟨ended, asks⟩ := finishJob_alone (s := s') plain live (show stKilled < 2 ^ 16 by decide) (d.det + j.td)
      (s.unitWord s.tile.ltid false d.cause.code).toNat []
    refine ⟨_, ?_, asks, ended⟩
    show execSilentErrorKill s = _
    simp [execSilentErrorKill, killed, hj, uniq, s']

/-- Settles O43: the cause found is the tile's own (`handlerFault_sole`, `silentDue_sole`) and the job ends alone (`finishJob_alone`); a
share that is pasted over a part of the IMEM reads back there (`memGet_memPaste`). -/
theorem faultsOfHandlersAndShares : Obligations.FaultsOfHandlersAndShares := ⟨handler_faults_and_silent_errors, shares_reload⟩

end Sys2Proof.Machine
end

section
/-!
The halt of a group (R256): the quads that a replay realigns, what a rewind leaves of a tile, and the three ways a halt goes.
-/
namespace Sys2Proof.Machine
open Sys2Proof.Safety

/-! ### A quad after a change of one (R304) -/

theorem quad_setQuad (s : State) (q : Nat) (x : Quad) (p : Nat) : (s.setQuad q x).quad p = if p = q then x else s.quad p := by
  by_cases e : p = q
  · subst e; simp [State.quad]
  · have other : (fun c : Nat × Quad => decide ((c.1 != q) = true ∧ (c.1 == p) = true)) = fun c => c.1 == p := funext fun c => by
      by_cases h : c.1 = p <;> simp [h, e]
    rw [if_neg e, State.quad, State.setQuad_quads, List.find?_cons_of_neg (by simpa using Ne.symm e), List.find?_filter, other]
    rfl

theorem skewOf_setSkew (q : Quad) (pid : Nat) (v : Int) : (q.setSkew pid v).skewOf pid = v := by
  by_cases zero : v = 0
  · have unlisted : (q.dskews.filter (·.1 != pid)).find? (fun e => e.1 == pid) = none :=
      List.find?_eq_none.mpr fun e he => by simpa using (List.mem_filter.mp he).2
    simp only [Quad.skewOf, Quad.setSkew, zero, if_true, List.nil_append, unlisted]
    rfl
  · simp [Quad.skewOf, Quad.setSkew, zero]

/-- From `s` to `t` only what quads hold has changed. -/
def quadsOnly (s t : State) : Prop := ∃ qs, t = { s with quads := qs }

theorem quadsOnly.trans {s t u : State} : quadsOnly s t → quadsOnly t u → quadsOnly s u := by
  rintro ⟨_, rfl⟩ ⟨qs, rfl⟩; exact ⟨qs, rfl⟩

theorem foldl_quadsOnly {α : Type} {f : State → α → State} (one : ∀ s a, quadsOnly s (f s a)) (l : List α) (s : State) :
    quadsOnly s (l.foldl f s) := by
  induction l generalizing s with
  | nil => exact ⟨_, rfl⟩
  | cons a l ih => exact (one s a).trans (ih _)

/-! ### Realignment (R310) -/

/-- The copy of a partition in one quad is set where the reference stands. -/
def realignOne (pid : Nat) (off : Int) (s : State) (q : Nat) : State :=
  if (s.quad q).skewOf pid = off then s else s.setQuad q ((s.quad q).realign pid off)

theorem realign_eq (s : State) (pid : Nat) (qs : List Nat) : s.realign pid qs =
    (qs.foldl (realignOne pid (s.refOff pid)) s).recentre fun q d => qs.contains q || qs.contains (quadBeyond q d) := rfl

theorem realignOne_self (pid : Nat) (off : Int) (s : State) (q : Nat) : ((realignOne pid off s q).quad q).skewOf pid = off := by
  unfold realignOne
  split
  · next there => exact there
  · rw [quad_setQuad, if_pos rfl]; exact skewOf_setSkew ..

theorem realignOne_other {p q : Nat} (ne : p ≠ q) (pid : Nat) (off : Int) (s : State) : (realignOne pid off s q).quad p = s.quad p := by
  unfold realignOne
  split
  · rfl
  · rw [quad_setQuad, if_neg ne]

/-- After the realignment of some quads the copy of each of them stands where the reference does. -/
theorem realigned_skew {pid p : Nat} {off : Int} {qs : List Nat} {s : State} (h : (s.quad p).skewOf pid = off ∨ p ∈ qs) :
    ((qs.foldl (realignOne pid off) s).quad p).skewOf pid = off := by
  induction qs generalizing s with
  | nil => simpa using h
  | cons q qs ih =>
    refine ih ?_
    by_cases e : p = q
    · subst e; exact .inl (realignOne_self ..)
    · rw [realignOne_other e]
      simpa [e] using h

/-- A rise of SLIPS on one quad leaves every quad's copies of DCYC and its buffers. -/
theorem countSlips_quad (s : State) (o n p : Nat) : ((s.setQuad o ((s.quad o).countSlips n)).quad p).dskews = (s.quad p).dskews ∧
    ((s.setQuad o ((s.quad o).countSlips n)).quad p).slipped = (s.quad p).slipped := by
  rw [quad_setQuad]
  split
  · next e => subst e; exact ⟨rfl, rfl⟩
  · exact ⟨rfl, rfl⟩

theorem centre_quad (s : State) (e : Nat × Nat) (p : Nat) : ((s.centre e).quad p).dskews = (s.quad p).dskews ∧
    ∀ i : Fin 4, ((s.centre e).quad p).slipped[i] = if p = e.1 ∧ i.val = e.2 then 0 else (s.quad p).slipped[i] := by
  obtain ⟨skews, slips⟩ := countSlips_quad (s.setQuad e.1 (((s.quad e.1).centre e.2).countSlips ((s.quad e.1).slipOf e.2)))
    (quadBeyond e.1 e.2) ((s.quad e.1).slipOf e.2) p
  refine ⟨skews.trans ?_, fun i => (congrArg (·[i]) slips).trans ?_⟩ <;> rw [quad_setQuad]
  · split
    · next h => subst h; rfl
    · rfl
  · by_cases h : p = e.1
    · subst h; simp [Quad.countSlips, Quad.centre]
    · simp [h]

/-- Re-centring buffers leaves the copies of DCYC, and a buffer named is centred. -/
theorem centres_quad (l : List (Nat × Nat)) (s : State) (p : Nat) : ((l.foldl State.centre s).quad p).dskews = (s.quad p).dskews ∧
    ∀ i : Fin 4, ((l.foldl State.centre s).quad p).slipped[i] = if (p, i.val) ∈ l then 0 else (s.quad p).slipped[i] := by
  induction l generalizing s with
  | nil => simp
  | cons e l ih =>
    obtain ⟨skews, slips⟩ := ih (s.centre e)
    obtain ⟨skews', slips'⟩ := centre_quad s e p
    refine ⟨skews.trans skews', fun i => (slips i).trans ?_⟩
    rw [slips' i]
    by_cases named : (p, i.val) ∈ l <;> simp [named, Prod.ext_iff]

theorem slipOf_eq (q : Quad) (i : Fin 4) : q.slipOf i.val = q.slipped[i] := by simp [Quad.slipOf]

/-- Where the buffers out of a quad are all re-centred, none of them has slipped. -/
theorem recentred_slips {s : State} {on : Nat → Nat → Bool} {p : Nat} (all : ∀ d, on p d = true) :
    ((s.recentre on).quad p).slipped = Vector.replicate 4 0 := by
  have centred (i : Fin 4) : ((s.recentre on).quad p).slipped[i] = 0 := by
    refine ((centres_quad _ s p).2 i).trans ?_
    split
    · rfl
    · next unnamed =>
      rw [State.quad]
      cases found : s.quads.find? fun e => e.1 == p with
      | none => simp
      | some e =>
        have number : e.1 = p := by simpa using List.find?_some found
        by_contra slipped
        refine unnamed (List.mem_flatMap.mpr ⟨e, List.mem_of_find?_eq_some found, List.mem_map.mpr ⟨i.val, ?_, by rw [number]⟩⟩)
        refine List.mem_filter.mpr ⟨List.mem_range.mpr i.isLt, ?_⟩
        rw [number, all, slipOf_eq]
        simpa using slipped
  ext i hi
  simpa using centred ⟨i, hi⟩

theorem recentre_skew (s : State) (on : Nat → Nat → Bool) (p pid : Nat) :
    ((s.recentre on).quad p).skewOf pid = (s.quad p).skewOf pid := by
  rw [Quad.skewOf, show ((s.recentre on).quad p).dskews = _ from (centres_quad _ s p).1]; rfl

theorem realign_quadsOnly (s : State) (pid : Nat) (qs : List Nat) : quadsOnly s (s.realign pid qs) := by
  rw [realign_eq]
  refine (foldl_quadsOnly (fun s q => ?_) qs s).trans (foldl_quadsOnly (fun s e => ⟨_, rfl⟩) _ _)
  unfold realignOne
  split <;> exact ⟨_, rfl⟩

/-- A quad that is realigned: its copy stands where the reference does, and its buffers are centred. -/
theorem realign_quad (s : State) (pid : Nat) {qs : List Nat} {p : Nat} (hp : p ∈ qs) :
    ((s.realign pid qs).quad p).skewOf pid = s.refOff pid ∧ ((s.realign pid qs).quad p).slipped = Vector.replicate 4 0 := by
  rw [realign_eq, recentre_skew]
  exact ⟨realigned_skew (.inr hp), recentred_slips fun d => by simp [hp]⟩

/-- Where a reference stands does not depend on what a change of its job leaves alone. -/
theorem refOff_onJob {s : State} {pid : Nat} {f : Job → Job}
    (keeps : ∀ j, (f j).pid = j.pid ∧ (f j).state = j.state ∧ (f j).ref = j.ref) : (s.onJob pid f).refOff pid = s.refOff pid := by
  have found : (s.onJob pid f).jobs.find? (fun j => j.pid == pid && (j.state == .running || j.state == .preempted)) =
      (s.jobs.find? fun j => j.pid == pid && (j.state == .running || j.state == .preempted)).map
        fun j => if j.pid == pid && j.state == .running then f j else j :=
    find?_updWhere (fun j => by obtain ⟨hp, hs, -⟩ := keeps j; rw [hp, hs]) _
  have tiles : (s.onJob pid f).tiles = s.tiles := rfl
  unfold State.refOff
  rw [found, tiles]
  cases s.jobs.find? fun j => j.pid == pid && (j.state == .running || j.state == .preempted) with
  | none => rfl
  | some j =>
    have ref : (if (j.pid == pid && j.state == .running) = true then f j else j).ref = j.ref := by
      split
      · exact (keeps j).2.2
      · rfl
    cases s.tiles.findSome? (·.contextOf pid) with
    | none => rfl
    | some k => simp only [Option.map_some, ref]

/-! ### Counting replays (R381, R382) -/

theorem countReplay_replaysOf (j : Job) (node : Nat) (c : Cause) : (j.countReplay node c).replaysOf node = j.replaysOf node + 1 := by
  simp only [Job.countReplay, Job.replaysOf]
  cases found : j.stats.find? fun e => e.node == node with
  | none => simp
  | some e =>
    have number : e.node = node := by simpa using List.find?_some found
    simp [number]

/-! ### A rewound tile (R206, R256) -/

/-- Lines that are discarded show what is published. -/
theorem view_discard {sp : Space} {p : Nat × Nat → Bool} {a : Nat} (gone : ∀ l ∈ sp.lines, l.1 = lineOf a → p l = true) (g : Nat) :
    (sp.discard p).view g a = sp.seen a := by
  have unwritten : (sp.discard p).writer a = none := by
    simp only [Space.writer, Space.discard, Option.map_eq_none_iff, List.find?_eq_none, List.mem_filter]
    rintro l ⟨there, kept⟩ line
    simp [gone l there (by simpa using line)] at kept
  rw [Space.view, unwritten]
  exact if_neg nofun

theorem rewound_spByte {t : Tile} (aligned : t.ct.sbase % 64 = 0) {a : Nat} (ha : a < t.ct.ssize * 1024) (s1 : Nat) :
    (t.rewind s1).spByte a = t.spSeen a := by
  refine view_discard (fun l _ line => ?_) spTag
  have start : (t.rewind s1).ct.sbase = t.ct.sbase := rfl
  rw [start, lineOf] at line
  simp only [Bool.and_eq_true, decide_eq_true_eq]
  omega

section
variable {s : State} {n : Nat} (full : s.tile.ct.isize ≠ 0) (strand : s.tile.ct.strand = some n)
include full strand

/-- The tile in focus is one of its group. -/
theorem in_own_group : (s.tile.ct.isOf s.tile.ct.pid && s.tile.ct.strand == some n) = true := by
  simp [Context.isOf, Context.full, full, strand]

/-- The rewind of a group rewinds its tiles, each with its stop. -/
theorem rewindGroup_tile (s1 : Nat) (tb : Option Nat) (halt : Nat) : ∃ g : BitVec 8 × BitVec 15,
    (s.rewindGroup s.tile.ct.pid n s1 tb halt).tile = let u := s.tile.rewind s1
      { u with ct := { u.ct with
        stop := tb.map fun b => { at_ := s1 + (b - s.tile.ct.s0), own := s.tile.ownAt b, gcode := g.1, gsrc := g.2 } } } := by
  exact ⟨_, if_pos (in_own_group full strand)⟩

end

theorem rewindGroup_job (s : State) (pid n s1 : Nat) (tb : Option Nat) (halt : Nat) :
    (s.rewindGroup pid n s1 tb halt).job? pid = (s.job? pid).map (·.dropAttempt n halt) :=
  job?_onJob fun _ => ⟨rfl, rfl⟩

/-! ### The three ways of a halt (R256, R382) -/

/-- Has a tile of the group a full effect log, or lost an entry of it (R259)? -/
def State.logsFull (s : State) (n : Nat) : Bool :=
  (s.strandTiles s.tile.ct.pid n).any fun u => u.ct.logFull || logCap ≤ u.ct.log.length

/-- The group of the tile in focus stops for good, its causes taken. -/
def State.stopGroup (s : State) (n : Nat) : State :=
  s.mapTiles (fun u => u.ct.isOf s.tile.ct.pid && u.ct.strand == some n) fun u =>
    { u with ct := { u.ct with run := .halt none }, dets := [] }

/-- A replay is counted, and where a count disagreed or a link slipped the group's quads are realigned (R310, R381). -/
def State.replayed (s : State) (n : Nat) (c : Cause) : State :=
  let r := s.onJob s.tile.ct.pid (·.countReplay s.tile.ct.node c)
  if (s.groupDets s.tile).any (·.2.cause.ofGrid) then r.realign s.tile.ct.pid (uniq ((s.strandTiles s.tile.ct.pid n).map (·.quadIndex))) else r

section
variable {s : State} {d n : Nat} {j : Job} (first : firstDet (s.groupDets s.tile) = some d) (strand : s.tile.ct.strand = some n)
  (hj : s.myJob = some j) (due : s.haltDue = true)
include first strand hj due

theorem groupHalt_rewinds (precise : replayCause (s.groupDets s.tile) = none) (room : s.logsFull n = false) :
    exec .groupHalt s = .next (s.rewindGroup s.tile.ct.pid n (d + s.tile.groupDelay + 96) (stopIssue (s.groupDets s.tile)) s.tile.ct.now) := by
  unfold State.logsFull at room
  show execGroupHalt s = _
  simp only [execGroupHalt, first, strand, hj, due, precise, room]
  rfl

theorem groupHalt_replays {c : Cause} (replay : replayCause (s.groupDets s.tile) = some c) (room : s.logsFull n = false)
    (few : j.replaysOf s.tile.ct.node < 16) : exec .groupHalt s =
      .next ((s.replayed n c).rewindGroup s.tile.ct.pid n (d + s.tile.groupDelay + 96) none s.tile.ct.now) := by
  unfold State.logsFull at room
  show execGroupHalt s = _
  simp only [execGroupHalt, first, strand, hj, due, replay, room, Nat.not_le.mpr few]
  rfl

theorem groupHalt_escalates {c : Cause} (replay : replayCause (s.groupDets s.tile) = some c)
    (spent : s.logsFull n = true ∨ 16 ≤ j.replaysOf s.tile.ct.node) : exec .groupHalt s =
      .next ((s.stopGroup n).onJob s.tile.ct.pid (·.askRollback (s.tile.ct.now - d))) := by
  unfold State.logsFull at spent
  show execGroupHalt s = _
  simp only [execGroupHalt, first, strand, hj, due, replay]
  rw [if_neg (by simp), if_pos (by simpa using spent)]
  rfl

end

theorem groups_rewind : groupsRewindToTheirStop := by
  refine ⟨?rewind, ?rerun⟩
  case rewind =>
    intro s d n tb j k ds first strand hj due precise stops logs full s1
    have room : s.logsFull n = false := List.any_eq_false.mpr fun u hu => by
      obtain ⟨whole, short⟩ := logs u hu
      simp [whole, show u.ct.log.length < logCap from short]
    obtain ⟨g, rewound⟩ := rewindGroup_tile full strand s1 (some tb) s.tile.ct.now
    refine ⟨_, (groupHalt_rewinds first strand hj due precise room).trans (by rw [stops]), ?_⟩
    rw [rewound]
    exact ⟨rfl, rfl, rfl, rfl, rfl, rfl, rfl, rfl, rfl, rfl, rfl, rfl, rfl, rfl, rfl, fun aligned a ha => rewound_spByte aligned ha s1⟩
  case rerun =>
    intro s s1 halted
    refine ⟨fun reached => ?_, fun early => ?_⟩
    · show execNodeRerunStart s = _
      simp only [execNodeRerunStart, onTile, halted, Tile.c, reached, if_true]
      rfl
    · show execNodeRerunStart s = _
      simp only [execNodeRerunStart, onTile, halted, Tile.c, Nat.not_le.mpr early, if_false]

/-- What a replay's count changes: the job of the group, and no more than quads beside it. -/
theorem replayed_quadsOnly (s : State) (n : Nat) (c : Cause) :
    quadsOnly (s.onJob s.tile.ct.pid (·.countReplay s.tile.ct.node c)) (s.replayed n c) := by
  unfold State.replayed
  dsimp only
  split
  · exact realign_quadsOnly ..
  · exact ⟨_, rfl⟩

theorem mem_uniq {α : Type} [BEq α] [LawfulBEq α] {a : α} {l : List α} : a ∈ uniq l ↔ a ∈ l := by
  have gathered (acc : List α) : a ∈ l.foldl (fun acc x => if acc.contains x then acc else x :: acc) acc ↔ a ∈ acc ∨ a ∈ l := by
    induction l generalizing acc with
    | nil => simp
    | cons x l ih =>
      rw [List.foldl_cons, ih, List.mem_cons]
      split
      · next there =>
        have old : a = x → a ∈ acc := fun e => e ▸ List.contains_iff_mem.mp there
        tauto
      · rw [List.mem_cons]; tauto
  rw [uniq, List.mem_reverse, gathered]
  simp

/-- After a replay for a count that disagreed or a link that slipped, the quads of the group are aligned. -/
theorem replayed_quad {s : State} {n : Nat} (full : s.tile.ct.isize ≠ 0) (strand : s.tile.ct.strand = some n) {c : Cause}
    (grid : ∃ e ∈ s.groupDets s.tile, e.2.cause = .drift ∨ e.2.cause = .channelTag) : let q := (s.replayed n c).quad s.tile.quadIndex
    q.skewOf s.tile.ct.pid = s.refOff s.tile.ct.pid ∧ q.slipped = Vector.replicate 4 0 := by
  have any : (s.groupDets s.tile).any (·.2.cause.ofGrid) = true := by
    obtain ⟨e, there, kind⟩ := grid
    exact List.any_eq_true.mpr ⟨e, there, by simpa [Cause.ofGrid] using kind⟩
  have own : s.tile.quadIndex ∈ uniq ((s.strandTiles s.tile.ct.pid n).map (·.quadIndex)) :=
    mem_uniq.mpr (List.mem_map_of_mem (List.mem_filter.mpr ⟨.head _, in_own_group full strand⟩))
  obtain ⟨skew, slips⟩ := realign_quad (s.onJob s.tile.ct.pid (·.countReplay s.tile.ct.node c)) s.tile.ct.pid own
  simp only [State.replayed, any, if_true]
  exact ⟨skew.trans (refOff_onJob fun _ => ⟨rfl, rfl, rfl⟩), slips⟩

theorem askRollback_keeps (ago : Nat) (j : Job) : (j.askRollback ago).pid = j.pid ∧ (j.askRollback ago).state = j.state := by
  unfold Job.askRollback
  split <;> exact ⟨rfl, rfl⟩

theorem replays_count : replaysCountAndEscalate := by
  intro s d n j c k ds first strand hj due replay full logs
  refine ⟨fun room few => ?count, fun spent => ?escalate⟩
  case count =>
    obtain ⟨qs, counted⟩ := replayed_quadsOnly s n c
    have here : (s.replayed n c).tile = s.tile := by rw [counted]; rfl
    have job : (s.replayed n c).job? k.pid = some (j.countReplay k.node c) := by
      rw [counted]
      exact (job?_onJob (f := (·.countReplay k.node c)) fun _ => ⟨rfl, rfl⟩).trans (congrArg (Option.map _) hj)
    obtain ⟨g, rewound⟩ := rewindGroup_tile (s := s.replayed n c) (by rwa [here]) (by rwa [here]) (d + s.tile.groupDelay + 96) none k.now
    rw [here] at rewound
    refine ⟨_, (j.countReplay k.node c).dropAttempt n k.now, groupHalt_replays first strand hj due replay room few, ?_⟩
    rw [State.myJob, rewound]
    exact ⟨(rewindGroup_job ..).trans (congrArg (Option.map _) job), countReplay_replaysOf j k.node c, rfl, rfl, rfl, rfl, rfl,
      fun grid => replayed_quad full strand grid⟩
  case escalate =>
    have stopped : (s.stopGroup n).tile = { s.tile with ct := { s.tile.ct with run := .halt none }, dets := [] } :=
      if_pos (in_own_group full strand)
    refine ⟨_, j.askRollback (k.now - d), groupHalt_escalates first strand hj due replay spent, ?_⟩
    rw [State.myJob, State.onJob_tile, stopped]
    refine ⟨(job?_onJob (askRollback_keeps _)).trans (congrArg (Option.map _) hj), rfl, rfl, fun calm => ?_⟩
    simp [Job.askRollback, calm, Job.td]

/-- Settles O41: a halt goes one of three ways (`groupHalt_rewinds`, `groupHalt_replays`, `groupHalt_escalates`); what it leaves of a tile
is `rewindGroup_tile`, and what a realignment leaves of a quad `realign_quad`. -/
theorem groupsRewindAndReplay : Obligations.GroupsRewindAndReplay := ⟨groups_rewind, replays_count⟩

end Sys2Proof.Machine
end

section
/-!
Contexts that leave their tiles at a pre-emption point and come back (R39, R168, R266, R307), and the comparison of placements (R344).
-/
namespace Sys2Proof.Machine
open Sys2Proof.Safety

/-! ### The request (R266) -/

theorem request_delivered {s : State} {pid r : Nat} {j : Job} (hj : s.job? pid = some j) (asked : j.preemptAt = some r)
    (reached : r ≤ j.ref) : ∃ t, exec (.preemptDelivery pid) s = .next t ∧ t.tile = s.tile ∧ t.others = s.others ∧
      t.job? pid = some j.preemptNow := by
  refine ⟨_, rfl, rfl, rfl, (job?_onJob fun j => ?_).trans ?_⟩
  · split <;> exact ⟨rfl, rfl⟩
  · simp [hj, asked, reached]

/-! ### What a capture leaves (R39, R171) -/

/-- The capture of results in flight sets flags in XFLAGS, and leaves the other registers, the sequencer and the place of the context. -/
def capturedFrom (k l : Context) : Prop :=
  (∃ fl, l.cx = { k.cx with xflags := fl }) ∧ l.pid = k.pid ∧ l.isize = k.isize ∧ l.sq = k.sq ∧ l.run = k.run ∧ l.after = k.after

theorem capturedFrom.trans {k l m : Context} : capturedFrom k l → capturedFrom l m → capturedFrom k m := by
  rintro ⟨⟨_, cx⟩, pid, size, sq, run, after⟩ ⟨⟨fl, cx'⟩, pid', size', sq', run', after'⟩
  exact ⟨⟨fl, by rw [cx', cx]⟩, pid'.trans pid, size'.trans size, sq'.trans sq, run'.trans run, after'.trans after⟩

theorem capture1_from (n : Nat) (k : Context) (r : Result) : capturedFrom k (k.capture1 n r) := by
  unfold Context.capture1
  dsimp only
  repeat' split
  all_goals exact ⟨⟨_, rfl⟩, rfl, rfl, rfl, rfl, rfl⟩

theorem captures_from (n : Nat) (rs : List Result) (k : Context) : capturedFrom k (rs.foldl (Context.capture1 n) k) := by
  induction rs generalizing k with
  | nil => exact ⟨⟨_, rfl⟩, rfl, rfl, rfl, rfl, rfl⟩
  | cons r rs ih => exact (capture1_from n k r).trans (ih _)

theorem capture_from (k : Context) (n : Nat) : capturedFrom k (k.capture n) :=
  capturedFrom.trans ⟨⟨_, rfl⟩, rfl, rfl, rfl, rfl, rfl⟩ (captures_from ..)

/-! ### A tile that leaves (R266) -/

/-- With nothing but engine effects and results under way there is nothing to be done before a switch. -/
theorem flush_idle {s : State} (pend : s.tile.pend.filter (!·.isEngine) = [])
    (reads : s.tile.ct.inflight.filter (fun r => r.toRead r.rdAt) = []) (fuel : Nat) : s.flush fuel = s := by
  cases fuel with
  | zero => rfl
  | succ n => simp [State.flush, Tile.firstPend, Tile.firstRead, pend, reads]

/-- What leaves by the switch of the tile in focus has left (R266). -/
def State.left (s : State) : State :=
  (s.mapTiles (fun t => (s.leavers.map (·.ltid)).contains t.ltid && t.ct.pid == s.tile.ct.pid) Tile.switchOut).allOut s.tile.ct.pid

theorem allOut_tile (s : State) (pid : Nat) : (s.allOut pid).tile = s.tile := by
  unfold State.allOut State.standStill
  split <;> rfl

/-- A job that does not run is not touched by the end of a switch. -/
theorem mem_allOut {s : State} {j : Job} (there : j ∈ s.jobs) (idle : j.state ≠ .running) (pid : Nat) : j ∈ (s.allOut pid).jobs := by
  unfold State.allOut State.standStill
  split
  · exact mem_updWhere.mpr ⟨j, there, if_neg (by simp [idle])⟩
  · exact there

/-- A context that a loaded job waits for is still awaited when others have left. -/
theorem awaits_left {s : State} {k : Context} (h : s.awaits k = true) : s.left.awaits k = true := by
  simp only [State.awaits, Bool.and_eq_true, List.any_eq_true] at h ⊢
  obtain ⟨full, j, there, waits⟩ := h
  have idle : j.state ≠ .running := by
    intro runs
    simp [runs] at waits
  exact ⟨full, j, mem_allOut (s := s.mapTiles _ Tile.switchOut) there idle _, waits⟩

section
variable {s : State} (alone : s.leavers = [s.tile]) (others : ∀ u ∈ s.others, u.ltid ≠ s.tile.ltid)
include alone

/-- The context of a tile that leaves alone is out. -/
theorem left_tile : s.left.tile = s.tile.switchOut :=
  (allOut_tile ..).trans (if_pos (by simp [alone]))

include others

/-- A tile alone at its point leaves, and takes the context that is awaited there. -/
theorem contextSwitch_alone (due : s.switchDue = true) (clean : s.tile.dets = []) (pend : s.tile.pend.filter (!·.isEngine) = [])
    (reads : s.tile.ct.inflight.filter (fun r => r.toRead r.rdAt) = []) :
    exec .contextSwitch s = .next (s.left.mapTiles (fun t => (s.leavers.map (·.ltid)).contains t.ltid) s.left.bringIn) := by
  have flushed : (s.leavers.map (·.ltid)).foldl (fun (s : State) l =>
      let s := s.focus fun t => t.ltid == l
      s.flush s.tile.flushFuel) s = s := by
    have here : s.focus (fun t => t.ltid == s.tile.ltid) = s := if_pos (beq_self_eq_true _)
    simp only [alone, List.map_cons, List.map_nil, List.foldl_cons, List.foldl_nil, here, flush_idle pend reads]
  have noCause : ((s.tiles.filter fun t => (s.leavers.map (·.ltid)).contains t.ltid && t.ct.pid == s.tile.ct.pid).any fun t =>
      t.ct.strand.isSome && !t.dets.isEmpty) = false := by
    refine List.any_eq_false.mpr fun u hu => ?_
    obtain ⟨there, mine⟩ := List.mem_filter.mp hu
    rcases List.mem_cons.mp there with rfl | other
    · simp [clean]
    · simp [alone, others u other] at mine
  show execContextSwitch s = _
  simp only [execContextSwitch, due, if_true, flushed, noCause, Bool.false_eq_true, if_false]
  rfl

end

/-- A standby context that comes in leaves the memories and the effects of its tile. -/
theorem bringIn_frame (s : State) (t : Tile) : (s.bringIn t).sp = t.sp ∧ (s.bringIn t).imem = t.imem ∧ (s.bringIn t).pend = t.pend := by
  unfold State.bringIn
  split
  · split <;> exact ⟨rfl, rfl, rfl⟩
  · exact ⟨rfl, rfl, rfl⟩

theorem bringIn_of_none {t : Tile} (h : t.standby = none) (s : State) : s.bringIn t = t := by simp [State.bringIn, h]

theorem bringIn_awaited {s : State} {t : Tile} {k : Context} (h : t.standby = some k) (out : t.ct.run = .out) (waits : s.awaits k = true) :
    s.bringIn t = t.swap k := by simp [State.bringIn, h, out, waits]

/-- The tile in focus after its switch: what its context left, and an awaited standby context in its place. -/
theorem contextSwitch_tile {s : State} (alone : s.leavers = [s.tile]) :
    (s.left.mapTiles (fun t => (s.leavers.map (·.ltid)).contains t.ltid) s.left.bringIn).tile = s.left.bringIn s.tile.switchOut :=
  (if_pos (by simp [left_tile alone, alone, Tile.switchOut])).trans (by rw [left_tile alone])

/-! ### A context that resumes (R39, R168, R266) -/

theorem routeBack_frame (s : State) : s.routeBack.tile = s.tile ∧ s.routeBack.others = s.others ∧ s.routeBack.hilum = s.hilum := by
  unfold State.routeBack
  dsimp only
  split <;> exact ⟨rfl, rfl, rfl⟩

/-- A context that nothing found adrift resumes at its saved point when the switch cycles are past. -/
theorem contextSwitchIn_thaws {s : State} {sv : TrapSave} (elapsed : s.tile.switchLeft = some 0) (frozen : s.tile.ct.frozen = some sv)
    (aligned : s.tile.ct.adrift = none) : ∃ t, exec .contextSwitchIn s = .next t ∧ t.others = s.others ∧ t.hilum = s.hilum ∧
      t.tile = { s.tile with switchLeft := none }.thaw sv := by
  obtain ⟨tile, others, hilum⟩ := routeBack_frame { s with tile := { s.tile with switchLeft := none }.thaw sv }
  refine ⟨State.onJob _ s.tile.ct.pid fun j => if j.endStatus.isNone then { j with withheld := false } else j, ?_, others, hilum, tile⟩
  show execContextSwitchIn s = _
  simp only [execContextSwitchIn, elapsed, frozen, aligned, ne_eq, not_true_eq_false, if_false]

theorem contexts_switch : contextsSwitch := by
  refine ⟨fun s pid r j => request_delivered, ?leaves, ?resumes⟩
  case leaves =>
    intro s k due alone others clean pend reads
    obtain ⟨⟨fl, cx⟩, pid, size, sq, run, after⟩ := capture_from k k.now
    obtain ⟨sp, imem, effects⟩ := bringIn_frame s.left s.tile.switchOut
    refine ⟨_, s.tile.switchOut.ct, fl, _, contextSwitch_alone alone others due clean pend reads, rfl, cx, pid, rfl, rfl, sq, run, after,
      rfl, ?_⟩
    rw [contextSwitch_tile alone]
    refine ⟨sp, imem, effects, fun single => by rw [bringIn_of_none (t := s.tile.switchOut) single], fun c standby waits full => ?_⟩
    have stays : s.tile.switchOut.ct.full = true := bne_iff_ne.mpr (size ▸ full)
    rw [bringIn_awaited (t := s.tile.switchOut) standby rfl (awaits_left waits)]
    exact ⟨rfl, if_pos stays, rfl⟩
  case resumes =>
    intro s sv k elapsed frozen aligned
    obtain ⟨t, runs, others, hilum, tile⟩ := contextSwitchIn_thaws elapsed frozen aligned
    refine ⟨t, runs, others, ?_⟩
    rw [tile]
    exact ⟨rfl, rfl, rfl, hilum, rfl, rfl, rfl, rfl, rfl, rfl, rfl⟩

/-! ### A partition that returns (R307, R340) -/

theorem returner_some {s : State} {pid : Nat} {ok : Job → Bool} {j : Job} (h : s.returner pid ok = some j) : j ∈ s.jobs ∧ j.pid = pid := by
  have found := List.find?_some h
  simp only [Bool.and_eq_true, beq_iff_eq] at found
  obtain ⟨⟨hpid, -⟩, -⟩ := found
  obtain ⟨c, -, there⟩ := List.mem_flatMap.mp (List.mem_of_find?_eq_some h)
  exact ⟨(List.mem_filter.mp there).1, hpid⟩

/-- A tile that holds a context makes it active: at once where it stood active, after a switch where it stood by. -/
theorem activate_held {t : Tile} {pid : Nat} (holds : t.holds pid = true) (n : Nat) :
    (t.activate pid n).ct.isOf pid = true ∧ (t.activate pid n).switchLeft = some (if t.ct.isOf pid = true then n else 96) := by
  unfold Tile.activate
  by_cases active : t.ct.isOf pid = true
  · simp only [active, if_true, and_self]
  · simp only [Tile.holds, active, Bool.false_or, Option.any_eq_true] at holds
    obtain ⟨k, standby, here⟩ := holds
    simp only [active, standby, here, if_true, Bool.false_eq_true, if_false]
    exact ⟨here, rfl⟩

/-- What a switch back makes of a job: one that stood aside is active again, a pre-empted one runs, withheld until its contexts do. -/
def Job.switchedBack (j : Job) : Job :=
  if j.aside then { j with aside := false } else { j with state := .running, withheld := true, preempting := false, preemptAt := none }

/-- The cycles until the contexts of a job issue that its tiles hold: none where all of them stand active (R266). -/
def State.returnCycles (s : State) (j : Job) : Nat :=
  if (s.tiles.filter fun t => j.ltids.contains t.ltid).all (·.ct.isOf j.pid) then 0 else switchCycles

/-- The tiles of a job make the context that they hold of it active. -/
def State.reactivated (s : State) (j : Job) : State :=
  s.mapTiles (fun t => j.ltids.contains t.ltid) (·.activate j.pid (s.returnCycles j))

/-- A job whose tiles all hold its context returns: its tiles make it active, and nothing waits to be admitted. -/
theorem switchBack_held {s : State} {j : Job} (idle : ∀ c : Fin 4, s.hilum.admission[c] = [])
    (held : (s.tiles.filter fun t => j.ltids.contains t.ltid).all (·.holds j.pid) = true) :
    s.switchBack j = (s.reactivated j).updJob j Job.switchedBack := by
  unfold State.switchBack
  simp only [held, if_true]
  exact runAdmission_idle idle

theorem partitions_return : partitionsReturn := by
  intro s pid j hj idle mine held
  obtain ⟨there, rfl⟩ := returner_some hj
  have returned : j.switchedBack ∈ ((s.reactivated j).updJob j Job.switchedBack).jobs :=
    mem_updWhere.mpr ⟨j, there, if_pos (by simp)⟩
  refine ⟨_, ?runs, fun started => ⟨_, returned, ?_⟩, fun aside => ?_, fun here => ?_⟩
  case runs =>
    show execPartitionSwitchIn j.pid s = _
    simp only [execPartitionSwitchIn, hj]
    rw [switchBack_held idle (List.all_eq_true.mpr held)]
  · simp [Job.switchedBack, started, Job.same]
  · simpa [Job.switchedBack, aside] using returned
  · have own : s.tile ∈ mine := List.mem_filter.mpr ⟨.head _, here⟩
    have tile : ((s.reactivated j).updJob j Job.switchedBack).tile = s.tile.activate j.pid (s.returnCycles j) := if_pos here
    obtain ⟨active, cycles⟩ := activate_held (held s.tile own) (s.returnCycles j)
    rw [tile]
    refine ⟨active, cycles.trans (congrArg some ?_)⟩
    unfold State.returnCycles
    by_cases all : ∀ u ∈ mine, u.ct.isOf j.pid = true
    · rw [if_pos all, if_pos (all _ own), if_pos (List.all_eq_true.mpr all)]
    · rw [if_neg all, if_neg (fun h => all (List.all_eq_true.mp h))]
      exact ite_self 96

/-! ### The comparison of placements (R344) -/

/-- The same launch record and placement, with the same pages and the same held back. -/
def keepsPages (j k : Job) : Prop :=
  k.jobid = j.jobid ∧ k.place = j.place ∧ k.serial = j.serial ∧ k.pages = j.pages ∧ k.dram = j.dram ∧ k.kept = j.kept ∧
    k.keptDram = j.keptDram

theorem keepsPages.trans {j k l : Job} : keepsPages j k → keepsPages k l → keepsPages j l := by
  rintro ⟨a, b, c, d, e, f, g⟩ ⟨a', b', c', d', e', f', g'⟩
  exact ⟨a'.trans a, b'.trans b, c'.trans c, d'.trans d, e'.trans e, f'.trans f, g'.trans g⟩

theorem keepsPages.same {j k : Job} (h : keepsPages j k) (a : Job) : k.same a = j.same a := by
  obtain ⟨id, place, serial, -⟩ := h
  rw [Job.same, Job.same, id, place, serial]

/-- Each job of the list comes from one of another list with its pages. -/
def pagesFrom (l l' : List Job) : Prop := ∀ k ∈ l', ∃ j ∈ l, keepsPages j k

theorem pagesFrom.trans {l m n : List Job} (h : pagesFrom l m) (h' : pagesFrom m n) : pagesFrom l n := fun k hk => by
  obtain ⟨j, hj, kept⟩ := h' k hk
  obtain ⟨i, hi, kept'⟩ := h j hj
  exact ⟨i, hi, kept'.trans kept⟩

theorem pagesFrom_updWhere {f : Job → Job} (keeps : ∀ j, keepsPages j (f j)) (p : Job → Bool) (l : List Job) :
    pagesFrom l (updWhere p f l) := fun k hk => by
  obtain ⟨j, hj, rfl⟩ := mem_updWhere.mp hk
  refine ⟨j, hj, ?_⟩
  split
  · exact keeps j
  · exact ⟨rfl, rfl, rfl, rfl, rfl, rfl, rfl⟩

theorem pagesFrom_updJob {f : Job → Job} (keeps : ∀ j, keepsPages j (f j)) (s : State) (j : Job) : pagesFrom s.jobs (s.updJob j f).jobs :=
  pagesFrom_updWhere keeps _ _

theorem pagesFrom_discard (s : State) (j : Job) : pagesFrom s.jobs (s.discard j).jobs :=
  pagesFrom_updJob (f := fun k => { k with fenceDigests := s.digestsOf j }) (fun _ => ⟨rfl, rfl, rfl, rfl, rfl, rfl, rfl⟩) s j

theorem pagesFrom_filter (l : List Job) (p : Job → Bool) : pagesFrom l (l.filter p) := fun k hk =>
  ⟨k, (List.mem_filter.mp hk).1, rfl, rfl, rfl, rfl, rfl, rfl, rfl⟩

/-- Both placements leave: one entry, no placement that lives, and every job that stays has its pages. -/
theorem closeDual_ends {s : State} {a b : Job} (first : a.place = 0) (live : a.state ≠ .ended)
    (room : (s.hilum.ring a.ring).waiting.length < 1024) (status dcyc unit : Nat) (trap : List Word) :
    let t := s.closeDual a b status dcyc unit trap
    t.hilum.admission = s.hilum.admission ∧ jobEntry s t a (status % 2 ^ 16) ((trap ++ [0, 0, 0, 0]).take 4) ∧
      (∀ k ∈ t.jobs, k.same a = true ∨ k.same b = true → k.state = .ended) ∧ pagesFrom s.jobs t.jobs := by
  have owed : ∃ cs, (if breaksPairs status || a.breakAsk then (s.oweBreaks a).oweBreaks b else s) = { s with commons := cs } := by
    split <;> exact ⟨_, rfl⟩
  obtain ⟨cs, owed⟩ := owed
  obtain ⟨h, entered, queued, entry⟩ := endEntry_enters (s := { s with commons := cs }) (j := a.joined b) room status dcyc unit trap
  simp only [State.closeDual, first, if_true, owed, entered]
  refine ⟨queued, entry, fun k hk same => ?ended, ?pages⟩
  case ended =>
    obtain ⟨there, stays⟩ := List.mem_filter.mp hk
    rcases same with same | same
    · exact retired_ended live there same
    · simpa [same] using stays
  case pages =>
    have gone := (pagesFrom_discard (State.onHilum { s with commons := cs } fun _ => h) a).trans (pagesFrom_discard _ b)
    exact (gone.trans (pagesFrom_updWhere (f := Job.retire) (fun _ => ⟨rfl, rfl, rfl, rfl, rfl, rfl, rfl⟩) _ _)).trans
      (pagesFrom_filter _ _)

/-- The two placements of a dual job are gone, and what stays of the job has its pages as `f` says. -/
theorem placements_end {s : State} {a b : Job} (first : a.place = 0) (live : a.state ≠ .ended) (idle : ∀ c : Fin 4, s.hilum.admission[c] = [])
    (room : (s.hilum.ring a.ring).waiting.length < 1024) {status : Nat} (small : status < 2 ^ 16) (dcyc unit : Nat)
    {f : Job → Job} (keeps : ∀ j x, (f j).same x = j.same x ∧ (f j).state = j.state) :
    let t := ((s.closeDual a b status dcyc unit []).updJob { a with state := .ended } f).runAdmission
    ∃ e, (t.hilum.ring a.ring).waiting = (s.hilum.ring a.ring).waiting ++ [e] ∧ (e.words.getD 1 0).toNat % 2 ^ 16 = status ∧
      (∀ k ∈ t.jobs, k.same a = true ∨ k.same b = true → k.state = .ended) ∧
      (s.jobs.filter (·.same a) = [a] → ∀ k ∈ t.jobs, k.same a = true → ∃ j, keepsPages a j ∧ k = f j) := by
  obtain ⟨queued, ⟨e, waits, -, code, -⟩, ended, pages⟩ := closeDual_ends (b := b) first live room status dcyc unit []
  intro t
  have settled : t = (s.closeDual a b status dcyc unit []).updJob { a with state := .ended } f :=
    runAdmission_idle fun c => (congrArg (fun q : Vector (List Nat) 4 => q[c]) queued).trans (idle c)
  have came {k : Job} (hk : k ∈ t.jobs) : ∃ j ∈ (s.closeDual a b status dcyc unit []).jobs,
      k.state = j.state ∧ (∀ x, k.same x = j.same x) ∧ (k.same a = true → j.state = .ended → k = f j) := by
    obtain ⟨j, hj, rfl⟩ := mem_updWhere.mp (settled ▸ hk)
    refine ⟨j, hj, ?_⟩
    split
    · exact ⟨(keeps j j).2, fun x => (keeps j x).1, fun _ _ => rfl⟩
    · next other => exact ⟨rfl, fun _ => rfl, fun same gone => absurd (Bool.and_eq_true_iff.mpr ⟨same, by rw [gone]; rfl⟩) other⟩
  refine ⟨e, settled ▸ waits, code.trans (Nat.mod_eq_of_lt small), fun k hk same => ?_, fun sole k hk same => ?_⟩
  · obtain ⟨j, hj, state, alike, -⟩ := came hk
    rw [alike, alike] at same
    exact state.trans (ended j hj same)
  · obtain ⟨j, hj, state, alike, made⟩ := came hk
    obtain ⟨i, hi, kept⟩ := pages j hj
    have own : i ∈ s.jobs.filter (·.same a) := List.mem_filter.mpr ⟨hi, by rw [← kept.same, ← alike]; exact same⟩
    rw [sole, List.mem_singleton] at own
    exact ⟨j, own ▸ kept, made same (ended j hj (.inl (alike a ▸ same)))⟩

/-- What equal digests leave of a dual job: the pages that its placements wrote (R344). -/
def Job.committed (j : Job) : Job := { j with kept := [], keptDram := {} }

theorem placements_compare : placementsCompare := by
  intro s a b st st' found twin placed hst hst' small idle room
  have picked := List.find?_some found
  simp only [Bool.and_eq_true, beq_iff_eq] at picked
  obtain ⟨⟨-, first⟩, -⟩ := picked
  have live : a.state ≠ .ended := by
    intro gone
    simp [Job.placed, gone] at placed
  have compares : exec (.dualCompare a.jobid) s = .next (if a.digest = b.digest
      then ((s.closeDual a b st (max a.ref b.ref) 0 []).updJob { a with state := .ended } Job.committed).runAdmission
      else ((s.closeDual a b stDiverged (max a.ref b.ref) 0 []).updJob { a with state := .ended } Job.dropShadows).runAdmission) := by
    show execDualCompare a.jobid s = _
    simp only [execDualCompare, found, twin, hst, hst']
    split <;> rfl
  by_cases equal : a.digest = b.digest
  · obtain ⟨e, waits, code, ended, pages⟩ := placements_end (b := b) first live idle room small (max a.ref b.ref) 0
      (f := Job.committed) fun _ _ => ⟨rfl, rfl⟩
    refine ⟨_, e, compares.trans (by rw [if_pos equal]), waits, ended, fun _ => ⟨code, fun sole k hk same => ?_⟩,
      fun other => absurd equal other⟩
    obtain ⟨j, ⟨-, -, -, hpages, hdram, -, -⟩, rfl⟩ := pages sole k hk same
    exact ⟨hpages, congrArg Space.published hdram, rfl⟩
  · obtain ⟨e, waits, code, ended, pages⟩ := placements_end (b := b) first live idle room (show stDiverged < 2 ^ 16 by decide)
      (max a.ref b.ref) 0 (f := Job.dropShadows) fun _ _ => ⟨rfl, rfl⟩
    refine ⟨_, e, compares.trans (by rw [if_neg equal]), waits, ended, fun same => absurd same equal,
      fun _ => ⟨code, fun sole k hk same => ?_⟩⟩
    obtain ⟨j, ⟨-, -, -, -, -, hkept, hdram⟩, rfl⟩ := pages sole k hk same
    exact ⟨hkept, hdram⟩

/-- Settles O44: a tile alone at its point leaves as `contextSwitch_alone` says and resumes by `contextSwitchIn_thaws`; a movement begins
by `startMove_comes`; tiles that hold a context make it active (`activate_held`); both placements end together (`placements_end`). -/
theorem contextsLeaveAndReturn : Obligations.ContextsLeaveAndReturn :=
  ⟨contexts_switch, contexts_stream, partitions_return, placements_compare⟩

end Sys2Proof.Machine
end
